-- ==== Sys2Proof/Word.lean ====
section
/-! DEFINITION. Word types, canonical sparse maps and the plainest arithmetic on them. -/

namespace Sys2Proof

/-- A register of the part, a scalar register of a cell engine or an instruction word: 32 bits (R8, R94, R109). -/
abbrev W32 := BitVec 32

/-- A scalar register of a host core (R109). -/
abbrev W64 := BitVec 64

/-- A vector register of a sliver core (R109). -/
abbrev W256 := BitVec 256

/-- A byte. -/
abbrev Byte := BitVec 8

/-- A package physical address (R183) held as a number. -/
abbrev Addr := Nat

/-- `replace k v` in a list sorted by strictly rising key: the entry of `k` becomes `v`, or a new entry is put in its place. -/
def sparsePut {α : Type} (k : Nat) (v : α) : List (Nat × α) → List (Nat × α)
  | [] => [(k, v)]
  | (k', v') :: r =>
    if k < k' then (k, v) :: (k', v') :: r
    else if k = k' then (k, v) :: r
    else (k', v') :: sparsePut k v r

/-- The list without the entry of `k`. -/
def sparseDel {α : Type} (k : Nat) : List (Nat × α) → List (Nat × α)
  | [] => []
  | (k', v') :: r => if k = k' then r else if k < k' then (k', v') :: r else (k', v') :: sparseDel k r

/-- The entry of `k`, or the default that an unlisted key reads as. -/
def sparseGet {α : Type} (dflt : Nat → α) (k : Nat) : List (Nat × α) → α
  | [] => dflt k
  | (k', v') :: r => if k = k' then v' else sparseGet dflt k r

/-- A write of one key: the canonical form lists no entry that equals what its unlisted key reads as. -/
def sparseSet {α : Type} [DecidableEq α] (dflt : Nat → α) (k : Nat) (v : α) (m : List (Nat × α)) : List (Nat × α) :=
  if v = dflt k then sparseDel k m else sparsePut k v m

/-- Strictly rising keys above `lo`, and no entry equal to its default. -/
def sparseWf {α : Type} [DecidableEq α] (dflt : Nat → α) : Option Nat → List (Nat × α) → Bool
  | _, [] => true
  | lo, (k, v) :: r =>
    (match lo with | none => true | some l => decide (l < k)) && decide (v ≠ dflt k) && sparseWf dflt (some k) r

/-- The number of the lowest set bit of a word, or its width. -/
def ctzNat {w : Nat} (x : BitVec w) : Nat := ((List.range w).find? (fun i => x.getLsbD i)).getD w

/-- The count of leading zeros. -/
def clzNat {w : Nat} (x : BitVec w) : Nat := ((List.range w).find? (fun i => x.getLsbD (w - 1 - i))).getD w

/-- The count of ones. -/
def popcNat {w : Nat} (x : BitVec w) : Nat := (List.range w).countP (fun i => x.getLsbD i)

end Sys2Proof
end

