-- ==== Sys2Proof/Syntax.lean ====
section
/-! DEFINITION. The commands of the Phigon 74 as one inductive, and the plain types of their operands. -/

namespace Sys2Proof

/-- A 5-bit register field (R94). -/
abbrev Reg := Fin 32

/-- A cell: compute die 0 to 3 and cell 0 to 15 of that die (R2, R36, R81). -/
structure CellId where
  die : Fin 4
  idx : Fin 16
  deriving DecidableEq, Repr

/-- A sliver core: its cell and its index 0 to 63 (R36). -/
structure SlvId where
  cell : CellId
  core : Fin 64
  deriving DecidableEq, Repr

/-- The engines that execute Xizal (R90). -/
inductive Engine where
  | seq (c : CellId)
  | slv (x : SlvId)
  | host (h : Fin 8)
  deriving DecidableEq, Repr

/-- The scopes of R172 and R206: codes 0 CELL, 1 DIE, 2 PKG, 3 SYS. -/
inductive Scope where
  | cell | die | pkg | sys
  deriving DecidableEq, Repr

/-- The lane formats that majors 0x10 to 0x15 fix (R150). -/
inductive LaneFmt where
  | i8 | i16 | i32 | bf16 | f16 | f32
  deriving DecidableEq, Repr

/-- Who makes a register access: a package access at a privilege level (R121), or an island's own firmware (R186). -/
inductive Agent where
  | user | supervisor | monitor | sia | sib
  deriving DecidableEq, Repr

/-- The safety islands (R2). -/
inductive Isl where
  | sia | sib
  deriving DecidableEq, Repr

/-- Who waits at a token queue past the limit (R76): the first put waiting at a queue, or an engine held on a get. -/
inductive TqWaiter where
  | putAt (q : BitVec 15)
  | getBy (e : Engine)
  deriving DecidableEq, Repr

/-- The ports of job outputs with their codes in a ledger record (R538): 0 to 5 Ethernet MAC, 8 to 11 hub CAN. -/
inductive OutPort where
  | eth (m : Fin 6)
  | can (i : Fin 4)
  deriving DecidableEq, Repr

/-- The three dies with a monitor, an OTP and a debug exchange: HD, SIA and SIB (R625, R633, R640). -/
inductive MonId where
  | hd | sia | sib
  deriving DecidableEq, Repr

/-- The lifecycle states of R627. -/
inductive Lifecycle where
  | open | develop | production
  deriving DecidableEq, Repr

/-- The CSI-2 data types of R675, and any other. -/
inductive CsiType where
  | raw8 | raw10 | raw12 | raw14 | raw16 | yuv422 | embedded | other
  deriving DecidableEq, Repr

/-- What a camera sends (R675): virtual channel, data type, width and height in pixels. -/
structure CamFormat where
  vc : Nat
  typ : CsiType
  width : Nat
  height : Nat
  deriving DecidableEq, Repr

/-- The registers whose read latches another (R668). -/
inductive LatchedReg where
  | cycleLo
  | cntLo (i : Fin 8)
  | snapLo (i : Fin 8)
  deriving DecidableEq, Repr

/-- The bring-up functions whose limit R611 and R628 give a consequence. -/
inductive ReadyFn where
  | hubFw | hubDram
  | cdReady (d : Fin 4)
  | ring | job
  deriving DecidableEq, Repr

/-- A fault report that reaches the islands over the sideband or a hub link (R531, R457, R572, R602). -/
inductive Report where
  /-- CELL_PAIR_MISMATCH of a die (R534). -/
  | pairMismatch (d : Fin 4)
  /-- WB_PAR or ACC_PAR of a cell (R41). -/
  | cellParity (c : CellId) (acc : Bool)
  /-- LS_UE of a cell (R40). -/
  | lsUe (c : CellId)
  /-- A DRAM error of DRAM window 0 to 4 (4 is the hub) at a channel (R202). -/
  | dram (w : Fin 5) (channel : Fin 8) (uncorrectable : Bool) (addr : Nat)
  /-- DRAM retraining of a channel (R572). -/
  | dramRetrain (w : Fin 5) (channel : Fin 8)
  /-- An island memory error: 0 SIA PSRAM, 1 SIA SRAM, 2 SIB PSRAM, 3 SIB SRAM (R572). -/
  | islandMem (n : Fin 4) (uncorrectable : Bool)
  /-- POISON of a path unit (R348). -/
  | poison (d : Fin 4)
  /-- PATH_FAULT of a path unit (R359). -/
  | pathFault (d : Fin 4)
  /-- An exception of a cell (R129). -/
  | cellExc (c : CellId)
  /-- TQ_TIMEOUT of a cell (R76). -/
  | tqTimeout (c : CellId)
  /-- A Shelf fault of a cell (R256, R257). -/
  | shelf (c : CellId)
  /-- IBUF_FETCH of a cell (R90). -/
  | ibufFetch (c : CellId)
  /-- A D2D_ERR bit of a die (R465). -/
  | d2d (d : Fin 7) (bit : Fin 5)
  /-- A retrain of a module (R451). -/
  | retrain (d : Fin 7) (m : Fin 10)
  /-- An ACK timeout of a crate sent on a module (R452). -/
  | ackTimeout (d : Fin 7) (m : Fin 10)
  /-- A crossing flushed toward a domain (R478). -/
  | flushed (dom : Fin 18)
  /-- CDC_STALL toward a domain (R484). -/
  | cdcStall (dom : Fin 18)
  /-- A failed self-test slice of a die, 4 for the hub (R547, R549). -/
  | sliceFail (d : Fin 5)
  /-- A completed self-test sequence of a unit (R547). -/
  | seqDone (d : Fin 5) (unit : Fin 19)
  /-- The error line of a die at 125 degrees (R602). -/
  | hotTrip (d : Fin 7)
  deriving DecidableEq, Repr

/-- The commands: one constructor per row of spec/opcode_table.json, in the order of the table. -/
inductive Instr where
  /-- ADD (R143). -/
  | add (e : Engine) (w : Bool) (d a b : Reg)
  /-- SUB (R143). -/
  | sub (e : Engine) (w : Bool) (d a b : Reg)
  /-- MUL (R143). -/
  | mul (e : Engine) (w : Bool) (d a b : Reg)
  /-- MULH (R143). -/
  | mulh (e : Engine) (w : Bool) (d a b : Reg)
  /-- MULHU (R143). -/
  | mulhu (e : Engine) (w : Bool) (d a b : Reg)
  /-- DIV (R144). -/
  | div (e : Engine) (w : Bool) (d a b : Reg)
  /-- DIVU (R144). -/
  | divu (e : Engine) (w : Bool) (d a b : Reg)
  /-- REM (R144). -/
  | rem (e : Engine) (w : Bool) (d a b : Reg)
  /-- REMU (R144). -/
  | remu (e : Engine) (w : Bool) (d a b : Reg)
  /-- AND (R143). -/
  | and (e : Engine) (w : Bool) (d a b : Reg)
  /-- OR (R143). -/
  | or (e : Engine) (w : Bool) (d a b : Reg)
  /-- XOR (R143). -/
  | xor (e : Engine) (w : Bool) (d a b : Reg)
  /-- ANDN (R143). -/
  | andn (e : Engine) (w : Bool) (d a b : Reg)
  /-- SLL (R143). -/
  | sll (e : Engine) (w : Bool) (d a b : Reg)
  /-- SRL (R143). -/
  | srl (e : Engine) (w : Bool) (d a b : Reg)
  /-- SRA (R143). -/
  | sra (e : Engine) (w : Bool) (d a b : Reg)
  /-- SLLI (R143). -/
  | slli (e : Engine) (w hi : Bool) (d a b : Reg)
  /-- SRLI (R143). -/
  | srli (e : Engine) (w hi : Bool) (d a b : Reg)
  /-- SRAI (R143). -/
  | srai (e : Engine) (w hi : Bool) (d a b : Reg)
  /-- SLT (R143). -/
  | slt (e : Engine) (w : Bool) (d a b : Reg)
  /-- SLTU (R143). -/
  | sltu (e : Engine) (w : Bool) (d a b : Reg)
  /-- SEQ (R143). -/
  | seq (e : Engine) (w : Bool) (d a b : Reg)
  /-- SNE (R143). -/
  | sne (e : Engine) (w : Bool) (d a b : Reg)
  /-- MIN (R143). -/
  | min (e : Engine) (w : Bool) (d a b : Reg)
  /-- MAX (R143). -/
  | max (e : Engine) (w : Bool) (d a b : Reg)
  /-- MINU (R143). -/
  | minu (e : Engine) (w : Bool) (d a b : Reg)
  /-- MAXU (R143). -/
  | maxu (e : Engine) (w : Bool) (d a b : Reg)
  /-- CLZ (R143). -/
  | clz (e : Engine) (w : Bool) (d a : Reg)
  /-- CTZ (R143). -/
  | ctz (e : Engine) (w : Bool) (d a : Reg)
  /-- POPC (R143). -/
  | popc (e : Engine) (w : Bool) (d a : Reg)
  /-- CAS (R145). -/
  | cas (h : Fin 8) (w : Bool) (d a b : Reg)
  /-- ADDI (R146). -/
  | addi (e : Engine) (d a : Reg) (imm : BitVec 16)
  /-- ANDI (R146). -/
  | andi (e : Engine) (d a : Reg) (imm : BitVec 16)
  /-- ORI (R146). -/
  | ori (e : Engine) (d a : Reg) (imm : BitVec 16)
  /-- LUI (R146). -/
  | lui (e : Engine) (d : Reg) (imm : BitVec 16)
  /-- SCALAR_LOAD (R147). -/
  | scalarLoad (e : Engine) (d a : Reg) (size : Fin 4) (u : Bool) (off : BitVec 13)
  /-- SCALAR_STORE (R147). -/
  | scalarStore (e : Engine) (d a : Reg) (size : Fin 4) (off : BitVec 13)
  /-- AADD (R148). -/
  | aadd (c : CellId) (d a b : Reg)
  /-- ASUB (R148). -/
  | asub (c : CellId) (d a b : Reg)
  /-- AMOV (R148). -/
  | amov (c : CellId) (d a : Reg)
  /-- AHI (R148). -/
  | ahi (c : CellId) (d a : Reg)
  /-- ARD (R148). -/
  | ard (c : CellId) (d a : Reg)
  /-- ARDH (R148). -/
  | ardh (c : CellId) (d a : Reg)
  /-- AADDI (R148). -/
  | aaddi (c : CellId) (d a : Reg) (imm : BitVec 16)
  /-- VADD (R150). -/
  | vadd (x : SlvId) (f : LaneFmt) (p : Fin 8) (d a b : Reg)
  /-- VSUB (R150). -/
  | vsub (x : SlvId) (f : LaneFmt) (p : Fin 8) (d a b : Reg)
  /-- VMUL (R150). -/
  | vmul (x : SlvId) (f : LaneFmt) (p : Fin 8) (d a b : Reg)
  /-- VMAC (R150). -/
  | vmac (x : SlvId) (f : LaneFmt) (p : Fin 8) (d a b : Reg)
  /-- VMIN (R151). -/
  | vmin (x : SlvId) (f : LaneFmt) (p : Fin 8) (d a b : Reg)
  /-- VMAX (R151). -/
  | vmax (x : SlvId) (f : LaneFmt) (p : Fin 8) (d a b : Reg)
  /-- VABS (R151). -/
  | vabs (x : SlvId) (f : LaneFmt) (p : Fin 8) (d a : Reg)
  /-- VNEG (R151). -/
  | vneg (x : SlvId) (f : LaneFmt) (p : Fin 8) (d a : Reg)
  /-- VADDS (R150). -/
  | vadds (x : SlvId) (f : LaneFmt) (p : Fin 8) (d a b : Reg)
  /-- VSUBS (R150). -/
  | vsubs (x : SlvId) (f : LaneFmt) (p : Fin 8) (d a b : Reg)
  /-- VSLL (R150). -/
  | vsll (x : SlvId) (f : LaneFmt) (p : Fin 8) (d a b : Reg)
  /-- VSRL (R150). -/
  | vsrl (x : SlvId) (f : LaneFmt) (p : Fin 8) (d a b : Reg)
  /-- VSRA (R150). -/
  | vsra (x : SlvId) (f : LaneFmt) (p : Fin 8) (d a b : Reg)
  /-- VDOT4_I8 (R152). -/
  | vdot4I8 (x : SlvId) (p : Fin 8) (d a b : Reg)
  /-- VDOT4S_I8 (R152). -/
  | vdot4sI8 (x : SlvId) (p : Fin 8) (d a b : Reg)
  /-- VDOT2_I16 (R152). -/
  | vdot2I16 (x : SlvId) (p : Fin 8) (d a b : Reg)
  /-- VDOT2S_I16 (R152). -/
  | vdot2sI16 (x : SlvId) (p : Fin 8) (d a b : Reg)
  /-- VDOT2_BF16 (R152). -/
  | vdot2Bf16 (x : SlvId) (p : Fin 8) (d a b : Reg)
  /-- VDOT2_F16 (R152). -/
  | vdot2F16 (x : SlvId) (p : Fin 8) (d a b : Reg)
  /-- VECTOR_CONVERT (R153). -/
  | vectorConvert (x : SlvId) (p : Fin 8) (tgt src : BitVec 4) (part : Fin 4) (d a : Reg)
  /-- VAND (R154). -/
  | vand (x : SlvId) (p : Fin 8) (d a b : Reg)
  /-- VOR (R154). -/
  | vor (x : SlvId) (p : Fin 8) (d a b : Reg)
  /-- VXOR (R154). -/
  | vxor (x : SlvId) (p : Fin 8) (d a b : Reg)
  /-- VANDN (R154). -/
  | vandn (x : SlvId) (p : Fin 8) (d a b : Reg)
  /-- VSEL (R154). -/
  | vsel (x : SlvId) (p : Fin 8) (d a b : Reg)
  /-- VSPLAT_B (R154). -/
  | vsplatB (x : SlvId) (p : Fin 8) (d a : Reg)
  /-- VSPLAT_H (R154). -/
  | vsplatH (x : SlvId) (p : Fin 8) (d a : Reg)
  /-- VSPLAT_W (R154). -/
  | vsplatW (x : SlvId) (p : Fin 8) (d a : Reg)
  /-- VEXTW (R154). -/
  | vextw (x : SlvId) (d a b : Reg)
  /-- VINSW (R154). -/
  | vinsw (x : SlvId) (p : Fin 8) (d a b : Reg)
  /-- VRSUM_I32 (R154). -/
  | vrsumI32 (x : SlvId) (p : Fin 8) (d a : Reg)
  /-- VRSUM_F32 (R154). -/
  | vrsumF32 (x : SlvId) (p : Fin 8) (d a : Reg)
  /-- VRMAX_F32 (R154). -/
  | vrmaxF32 (x : SlvId) (p : Fin 8) (d a : Reg)
  /-- VCMP_EQ (R155). -/
  | vcmpEq (x : SlvId) (f : LaneFmt) (p : Fin 8) (d a b : Reg)
  /-- VCMP_NE (R155). -/
  | vcmpNe (x : SlvId) (f : LaneFmt) (p : Fin 8) (d a b : Reg)
  /-- VCMP_LT (R155). -/
  | vcmpLt (x : SlvId) (f : LaneFmt) (p : Fin 8) (d a b : Reg)
  /-- VCMP_LE (R155). -/
  | vcmpLe (x : SlvId) (f : LaneFmt) (p : Fin 8) (d a b : Reg)
  /-- VCMP_LTU (R155). -/
  | vcmpLtu (x : SlvId) (f : LaneFmt) (p : Fin 8) (d a b : Reg)
  /-- VCMP_LEU (R155). -/
  | vcmpLeu (x : SlvId) (f : LaneFmt) (p : Fin 8) (d a b : Reg)
  /-- PAND (R155). -/
  | pand (x : SlvId) (d a b : Reg)
  /-- POR (R155). -/
  | por (x : SlvId) (d a b : Reg)
  /-- PXOR (R155). -/
  | pxor (x : SlvId) (d a b : Reg)
  /-- PANDN (R155). -/
  | pandn (x : SlvId) (d a b : Reg)
  /-- VEXP_F32 (R156). -/
  | vexpF32 (x : SlvId) (p : Fin 8) (d a : Reg)
  /-- VRECIP_F32 (R156). -/
  | vrecipF32 (x : SlvId) (p : Fin 8) (d a : Reg)
  /-- BLEAVE (R108). -/
  | bleave (x : SlvId)
  /-- VECTOR_LOAD (R157). -/
  | vectorLoad (x : SlvId) (p : Fin 8) (d a : Reg) (off : BitVec 13)
  /-- VECTOR_STORE (R157). -/
  | vectorStore (x : SlvId) (p : Fin 8) (d a : Reg) (off : BitVec 13)
  /-- VDW (R158). -/
  | vdw (x : SlvId) (fmt : BitVec 4) (n1 : Fin 16) (p : Fin 8) (d a b : Reg)
  /-- VGS (R159). -/
  | vgs (x : SlvId) (fmt : BitVec 4) (d a b : Reg)
  /-- WLOAD (R160). -/
  | wload (c : CellId) (d a : Reg) (cls : Fin 4) (h : Fin 2) (sp : Bool) (wfmt : BitVec 4)
  /-- MMA (R162). -/
  | mma (c : CellId) (d a : Reg) (w2 : BitVec 32)
  /-- DRAIN (R163). -/
  | drain (c : CellId) (d a : Reg) (w2 : BitVec 32)
  /-- ASEED (R165). -/
  | aseed (c : CellId) (a : Reg)
  /-- MOVE (R167). -/
  | move (e : Engine) (d a : Reg) (scope : Scope) (tok loft : Bool) (w2 : BitVec 32)
  /-- LDS (R171). -/
  | lds (e : Engine) (d a b : Reg)
  /-- STS (R171). -/
  | sts (e : Engine) (d a b : Reg)
  /-- CRD (R171). -/
  | crd (e : Engine) (d a : Reg)
  /-- CWR (R171). -/
  | cwr (e : Engine) (a b : Reg)
  /-- FENCE (R207). -/
  | fence (e : Engine) (a : Reg) (scope : Scope) (kind : Fin 4) (m : Bool)
  /-- IFENCE (R93). -/
  | ifence (e : Engine)
  /-- STAT (R133). -/
  | stat (e : Engine) (d : Reg)
  /-- LOFT_INV (R172). -/
  | loftInv (e : Engine) (a : Reg)
  /-- TPUT (R175). -/
  | tput (e : Engine) (a : Reg) (scope : Scope) (q : BitVec 15)
  /-- TGET (R176). -/
  | tget (e : Engine) (d : Reg) (scope : Scope) (q : BitVec 15)
  /-- NOP (R98). -/
  | nop (e : Engine)
  /-- HALT (R177). -/
  | halt (e : Engine)
  /-- BRK (R130). -/
  | brk (e : Engine)
  /-- JOIN (R108). -/
  | join (x : SlvId)
  /-- JALR (R177). -/
  | jalr (e : Engine) (d a : Reg)
  /-- SYSCALL (R124). -/
  | syscall (h : Fin 8)
  /-- RET (R125). -/
  | ret (h : Fin 8)
  /-- SRD (R126). -/
  | srd (h : Fin 8) (d a : Reg)
  /-- SWR (R126). -/
  | swr (h : Fin 8) (a b : Reg)
  /-- B (R178). -/
  | b (e : Engine) (imm : BitVec 16)
  /-- BEQZ (R178). -/
  | beqz (e : Engine) (a : Reg) (imm : BitVec 16)
  /-- BNEZ (R178). -/
  | bnez (e : Engine) (a : Reg) (imm : BitVec 16)
  /-- BLTZ (R178). -/
  | bltz (e : Engine) (a : Reg) (imm : BitVec 16)
  /-- BGEZ (R178). -/
  | bgez (e : Engine) (a : Reg) (imm : BitVec 16)
  /-- BL (R178). -/
  | bl (e : Engine) (imm : BitVec 16)
  /-- BCNZ (R178). -/
  | bcnz (c : CellId) (n : Fin 4) (imm : BitVec 16)
  /-- LOOP (R180). -/
  | loop (e : Engine) (n : Fin 4) (a : Reg) (imm : BitVec 16)
  /-- LOOP_END (R180). -/
  | loopEnd (e : Engine)
  /-- LI (R182). -/
  | li (e : Engine) (d : Reg) (imm : BitVec 32)
  /-- SWAIT (R253). -/
  | swait (e : Engine) (d a : Reg)
  /-- SREL (R254). -/
  | srel (e : Engine) (a : Reg)
  /-- SSTAT (R252). -/
  | sstat (e : Engine) (d a : Reg)
  /-- ATT_KV (R277). -/
  | attKv (c : CellId) (d a : Reg)
  /-- ATT_NORM (R292). -/
  | attNorm (c : CellId) (d a : Reg)
  /-- ATT_MERGE (R297). -/
  | attMerge (c : CellId) (d a : Reg)
  /-- ATT_SYNC (R290). -/
  | attSync (c : CellId)
  /-- PATH_PLAN (R365). -/
  | pathPlan (e : Engine) (d a : Reg)
  /-- PATH_COMMIT (R367). -/
  | pathCommit (e : Engine) (d a : Reg)
  /-- PATH_UPD (R349). -/
  | pathUpd (e : Engine) (d a : Reg)
  /-- PATH_ABORT (R370). -/
  | pathAbort (e : Engine) (d a : Reg)
  /-- PATH_GEN (R355). -/
  | pathGen (e : Engine) (d : Reg)
  /-- BUNDLE_ISSUE (R102). -/
  | bundleIssue (c : CellId) (idle : Nat)
  /-- BROADCAST_DELIVERY (R107). -/
  | broadcastDelivery (c : CellId)
  /-- VARIABLE_RESULT_WRITE (R115). -/
  | variableResultWrite (c : CellId) (i : Nat)
  /-- HOST_INTERRUPT (R124). -/
  | hostInterrupt (h : Fin 8) (num : BitVec 8) (toMonitor : Bool)
  /-- CELL_EXCEPTION_REPORT (R129). -/
  | cellExceptionReport (c : CellId)
  /-- LS_WRITEBACK (R40). -/
  | lsWriteback (c : CellId) (word : Nat)
  /-- MOVE_COMPLETE (R209). -/
  | moveComplete (c : CellId) (id : Nat)
  /-- WLOAD_DONE (R161). -/
  | wloadDone (c : CellId) (h : Fin 2)
  /-- MMA_DONE (R162). -/
  | mmaDone (c : CellId)
  /-- DRAIN_DONE (R164). -/
  | drainDone (c : CellId)
  /-- FENCE_COMPLETE (R221). -/
  | fenceComplete (e : Engine)
  /-- TOKEN_PUT_ACCEPT (R74). -/
  | tokenPutAccept (q : BitVec 15)
  /-- TOKEN_GET_TAKE (R74). -/
  | tokenGetTake (e : Engine)
  /-- TQ_TIMEOUT (R76). -/
  | tqTimeout (w : TqWaiter)
  /-- CLAIM_ARRIVAL (R250). -/
  | claimArrival (c : CellId) (id : Nat)
  /-- CLAIM_GRANT (R250). -/
  | claimGrant (c : CellId) (slot : Fin 128)
  /-- LINE_FILL_COMPLETE (R251). -/
  | lineFillComplete (c : CellId) (id : Nat)
  /-- SWAIT_TIMEOUT (R256). -/
  | swaitTimeout (e : Engine)
  /-- CLAIM_TIMEOUT (R256). -/
  | claimTimeout (c : CellId) (id : Nat)
  /-- PAIR_MISMATCH (R534). -/
  | pairMismatch (d : Fin 4) (k : Fin 8) (engine : BitVec 7) (point : BitVec 4)
  /-- SR_SEED_WRITE (R63). -/
  | srSeedWrite (c : CellId) (v : BitVec 32)
  /-- SHELF_CFG_WRITE (R263). -/
  | shelfCfgWrite (c : CellId) (sh : Fin 2) (v : BitVec 32)
  /-- REGISTER_WRITE (R8). -/
  | registerWrite (who : Agent) (pa : BitVec 40) (v : BitVec 32)
  /-- LOFT_FILL_RETURN (R218). -/
  | loftFillReturn (d : Fin 4) (i : Nat)
  /-- LOFT_SCAN_DONE (R217). -/
  | loftScanDone (d : Fin 4)
  /-- DRAM_SCRUB (R203). -/
  | dramScrub (w : Fin 5)
  /-- MMU_TLB_INV_GO (R228). -/
  | mmuTlbInvGo (m : Fin 5) (v : BitVec 32)
  /-- TLB_INV_DONE (R198). -/
  | tlbInvDone (m : Fin 5)
  /-- ATT_KV_COMPLETE (R278). -/
  | attKvComplete (c : CellId)
  /-- ATT_NORM_COMPLETE (R295). -/
  | attNormComplete (c : CellId)
  /-- ATT_MERGE_COMPLETE (R298). -/
  | attMergeComplete (c : CellId)
  /-- ATT_SYNC_GO (R304). -/
  | attSyncGo (c : CellId)
  /-- ATT_SYNC_RETURN (R290). -/
  | attSyncReturn (c : CellId)
  /-- PATH_OP_START (R358). -/
  | pathOpStart (d : Fin 4) (cands : Nat)
  /-- PATH_OP_COMPLETE (R357). -/
  | pathOpComplete (d : Fin 4) (elapsed : BitVec 32)
  /-- PATH_BUDGET_EXPIRY (R366). -/
  | pathBudgetExpiry (d : Fin 4) (samples : Nat)
  /-- PATH_ABORT_CAPTURE (R369). -/
  | pathAbortCapture (d : Fin 4) (late : Bool) (samples : Nat)
  /-- ACO_TICK (R377). -/
  | acoTick (mics : List (BitVec 64))
  /-- TDM_SLOT_RECEIVED (R392). -/
  | tdmSlotReceived (j : Fin 4) (slot : Fin 16) (word : BitVec 32)
  /-- BLOCK_BOUNDARY (R397). -/
  | blockBoundary
  /-- ADAPT_UPDATE (R393). -/
  | adaptUpdate
  /-- ACO_COMMIT_GO (R400). -/
  | acoCommitGo
  /-- ACO_COMMIT_APPLY (R400). -/
  | acoCommitApply
  /-- ACO_MEM_DATA_WRITE (R401). -/
  | acoMemDataWrite (v : BitVec 32)
  /-- ACO_MEM_DATA_READ (R409). -/
  | acoMemDataRead (h : Fin 8) (d : Reg)
  /-- ACO_ENABLE (R402). -/
  | acoEnable (v : BitVec 32)
  /-- ACO_DISABLE (R402). -/
  | acoDisable
  /-- ADJ_STEP (R307). -/
  | adjStep
  /-- TIME_SET (R306). -/
  | timeSet (v : BitVec 64)
  /-- TIME_ADJ (R306). -/
  | timeAdj (v : BitVec 32)
  /-- FSYNC_COMMIT (R312). -/
  | fsyncCommit
  /-- FSYNC_EDGE (R311). -/
  | fsyncEdge (n : Fin 16)
  /-- FSYNC_END (R311). -/
  | fsyncEnd (n : Fin 16)
  /-- PPS_EDGE (R309). -/
  | ppsEdge (i : Fin 2)
  /-- CUTOFF (R315). -/
  | cutoff
  /-- EPOCH_CAPTURE (R315). -/
  | epochCapture
  /-- FRAME_MARK (R542). -/
  | frameMark
  /-- IMU_READ_START (R313). -/
  | imuReadStart (k : Fin 4)
  /-- FRAME_START (R318). -/
  | frameStart (p : Fin 12) (fmt : CamFormat)
  /-- LINE_GROUP (R493). -/
  | lineGroup (p : Fin 12) (data : List (BitVec 8))
  /-- FRAME_COMPLETE (R316). -/
  | frameComplete (p : Fin 24) (truncated pktErr withCutoff : Bool)
  /-- LIDAR_PACKET (R320). -/
  | lidarPacket (m : Fin 6) (port : Fin 8) (time : BitVec 64) (sweep : BitVec 32) (last : Bool) (data : List (BitVec 8))
  /-- DESCRIPTOR_WRITE (R322). -/
  | descriptorWrite
  /-- CLOSE_ENTRY_PUT (R323). -/
  | closeEntryPut
  /-- ETH_RX_FRAME (R688). -/
  | ethRxFrame (m : Fin 6) (data : List (BitVec 8)) (crcErr : Bool)
  /-- CAN_RX_FRAME (R685). -/
  | canRxFrame (i : Fin 4) (kind : Fin 3) (ext : Bool) (ident : BitVec 29) (data : List (BitVec 8))
  /-- TSTAMP_POP (R688). -/
  | tstampPop (m : Fin 6)
  /-- WINDOW_READ (R684). -/
  | windowRead (w : Fin 70) (n : Nat)
  /-- WINDOW_WRITE (R684). -/
  | windowWrite (w : Fin 70) (data : List (BitVec 8))
  /-- PCIE_DEVICE_REQUEST (R689). -/
  | pcieDeviceRequest (i : Fin 2) (pa : BitVec 64) (len : Nat) (wdata : Option (List (BitVec 8)))
  /-- PERST_REL_WRITE (R689). -/
  | perstRelWrite (i : Fin 2)
  /-- OUTPUT_FRAME (R538). -/
  | outputFrame (port : OutPort) (data : List (BitVec 8))
  /-- HUB_FAULT_N_FALL (R551). -/
  | hubFaultNFall
  /-- PDMA_ARM (R496). -/
  | pdmaArm (e : Fin 2) (ch : Fin 16) (job : Bool)
  /-- PDMA_ARM_CHECK (R496). -/
  | pdmaArmCheck (e : Fin 2) (ch : Fin 16)
  /-- PDMA_ABORT (R504). -/
  | pdmaAbort (e : Fin 2) (ch : Fin 16) (withCompletion : Bool)
  /-- PDMA_KICK (R493). -/
  | pdmaKick (e : Fin 2) (ch : Fin 16)
  /-- PDMA_REQUEST (R494). -/
  | pdmaRequest (line : Fin 64)
  /-- PDMA_BURST (R498). -/
  | pdmaBurst (e : Fin 2)
  /-- PDMA_CHANNEL_COMPLETE (R501). -/
  | pdmaChannelComplete (e : Fin 2) (ch : Fin 16)
  /-- HANDOVER_ENTRY (R506). -/
  | handoverEntry (d : Fin 4)
  /-- HO_POP (R508). -/
  | hoPop (d : Fin 4)
  /-- REG_WINDOW (R510). -/
  | regWindow (blk : Fin 5) (port : Fin 22)
  /-- SIDEBAND_TRAINED (R438). -/
  | sidebandTrained (d : Fin 7) (m : Fin 10)
  /-- CAPABILITY_RECORD (R441). -/
  | capabilityRecord (d : Fin 7) (m : Fin 10) (w0 w1 : BitVec 32)
  /-- NEG_FAIL_TIMEOUT (R438). -/
  | negFailTimeout (d : Fin 7) (m : Fin 10)
  /-- MAINBAND_TRAINED (R438). -/
  | mainbandTrained (d : Fin 7) (m : Fin 10)
  /-- FLIT_RECEIVED (R451). -/
  | flitReceived (d : Fin 7) (m : Fin 10) (crcOk : Bool)
  /-- RETRAIN_DONE (R451). -/
  | retrainDone (d : Fin 7) (m : Fin 10) (ok : Bool)
  /-- SCORE_DECAY (R452). -/
  | scoreDecay (d : Fin 7)
  /-- MODULE_OUT_MESSAGE (R453). -/
  | moduleOutMessage (d : Fin 7) (m : Fin 10)
  /-- TAKE_OUT (R467). -/
  | takeOut (d : Fin 7) (m : Fin 10)
  /-- EDGE_FENCE_TIMEOUT (R456). -/
  | edgeFenceTimeout (e : Fin 4)
  /-- FENCE_SET (R458). -/
  | fenceSet (mask : BitVec 4)
  /-- UNFENCE (R459). -/
  | unfence (mask : BitVec 4)
  /-- WR_CRATE (R447). -/
  | wrCrate (n : Nat)
  /-- RD_CRATE (R445). -/
  | rdCrate (n : Nat)
  /-- RDATA_CRATE (R445). -/
  | rdataCrate (n : Nat)
  /-- TPUT_CRATE (R450). -/
  | tputCrate (n : Nat)
  /-- ACK_CRATE (R447). -/
  | ackCrate (n : Nat)
  /-- CRATE_FORWARD (R449). -/
  | crateForward (n : Nat)
  /-- CRATE_ACK_TIMEOUT (R454). -/
  | crateAckTimeout (n : Nat)
  /-- FAR_RESET_CAPTURE (R478). -/
  | farResetCapture (d : Fin 7) (dom : Fin 18)
  /-- FAR_READY_CAPTURE (R479). -/
  | farReadyCapture (d : Fin 7) (dom : Fin 18)
  /-- CLOCK_STALL (R484). -/
  | clockStall (d : Fin 7) (dom : Fin 18)
  /-- CLOCK_WINDOW (R486). -/
  | clockWindow (i : Isl) (counts : List Nat)
  /-- CLOCK_STOP_COUNT (R487). -/
  | clockStopCount (i : Isl) (dom : Fin 18)
  /-- XLINK_SEND (R522). -/
  | xlinkSend (i : Isl)
  /-- XLINK_FRAME (R522). -/
  | xlinkFrame (i : Isl) (f : BitVec 64)
  /-- PEER_LOST (R522). -/
  | peerLost (i : Isl)
  /-- SAFETY_POLL (R530). -/
  | safetyPoll (i : Isl)
  /-- HUB_SILENT (R530). -/
  | hubSilent (i : Isl)
  /-- OUTPUT_MISSING (R539). -/
  | outputMissing (i : Isl) (idx : Fin 32)
  /-- FAULT_REPORT (R531). -/
  | faultReport (i : Isl) (r : Report)
  /-- FAULT_N_LOW (R550). -/
  | faultNLow (i : Isl)
  /-- SAFE_ARM (R553). -/
  | safeArm (i : Isl)
  /-- FORCE_SAFE_WRITE (R553). -/
  | forceSafeWrite (i : Isl)
  /-- STATUS_FRAME (R552). -/
  | statusFrame (i : Isl)
  /-- PAIR_TRIGGER_CLEAR (R531). -/
  | pairTriggerClear (i : Isl) (d : Fin 4)
  /-- FUNC_READY_POLL (R612). -/
  | funcReadyPoll (i : Isl)
  /-- ADC_SAMPLE (R591). -/
  | adcSample (i : Isl) (v : List Int)
  /-- PWROK_FALL (R589). -/
  | pwrokFall
  /-- PWROK_RISE (R590). -/
  | pwrokRise
  /-- SUPERVISOR_RELEASE (R587). -/
  | supervisorRelease (i : Isl)
  /-- SLEEP_FRAME (R592). -/
  | sleepFrame (port : Fin 2) (data : List (BitVec 8))
  /-- SLEEP_READY (R592). -/
  | sleepReady (i : Isl)
  /-- POWER_ESTIMATE (R596). -/
  | powerEstimate (d : Fin 5) (p : Nat)
  /-- POWER_REPORT (R596). -/
  | powerReport (d : Fin 5) (temp : Int)
  /-- THERMAL_STEP (R596). -/
  | thermalStep
  /-- LADDER_APPLY (R600). -/
  | ladderApply (d : Fin 4)
  /-- LADDER_ACK_TIMEOUT (R600). -/
  | ladderAckTimeout (d : Fin 4)
  /-- FLOW_PULSE (R603). -/
  | flowPulse (i : Isl)
  /-- FLOW_TIMEOUT (R603). -/
  | flowTimeout
  /-- CLAMP_RELEASE (R605). -/
  | clampRelease
  /-- HOT_TRIP (R602). -/
  | hotTrip (d : Fin 7)
  /-- HEALTH_READ (R572). -/
  | healthRead
  /-- HOUR_BOUNDARY (R573). -/
  | hourBoundary (counts : List (Nat × Nat))
  /-- HEALTH_FRAME (R577). -/
  | healthFrame
  /-- READMIT_TIMEOUT (R582). -/
  | readmitTimeout (d : Fin 4)
  /-- SLICE_START (R543). -/
  | sliceStart (d : Fin 4) (unit : Fin 19)
  /-- SLICE_END (R547). -/
  | sliceEnd (d : Fin 4) (unit : Fin 19) (pass : Bool)
  /-- TEST_STARVED (R548). -/
  | testStarved (i : Isl) (d : Fin 5) (unit : Fin 19)
  /-- JOB_START (R416). -/
  | jobStart
  /-- JOB_SWITCH (R419). -/
  | jobSwitch (imm : Bool)
  /-- JOB_ABORT (R429). -/
  | jobAbort (withCompletion : Bool)
  /-- JOB_STOPPED (R420). -/
  | jobStopped
  /-- SWITCH_WAIT_EXPIRED (R419). -/
  | switchWaitExpired
  /-- JOB_RELEASE (R416). -/
  | jobRelease (swTime : BitVec 32)
  /-- RESTORE_COMPLETE (R569). -/
  | restoreComplete
  /-- JOB_COMPLETE (R429). -/
  | jobComplete
  /-- JOB_FAULT (R422). -/
  | jobFault
  /-- NO_JOB (R424). -/
  | noJob (i : Isl)
  /-- HATCH_CHAL (R647). -/
  | hatchChal (line : List (BitVec 8)) (m : MonId) (scope : BitVec 3)
  /-- HATCH_RESP (R647). -/
  | hatchResp (line : List (BitVec 8)) (m : MonId) (key sig : List (BitVec 8))
  /-- HATCH_READY (R644). -/
  | hatchReady (line : List (BitVec 8)) (m : MonId)
  /-- PEEK (R645). -/
  | peek (line : List (BitVec 8)) (m : MonId) (pa : Nat) (count : Nat)
  /-- POKE (R645). -/
  | poke (line : List (BitVec 8)) (pa : Nat) (v : BitVec 32)
  /-- HATCH_HEALTH (R644). -/
  | hatchHealth (line : List (BitVec 8)) (part : Option (Fin 128))
  /-- COUNTERS_READ (R644). -/
  | countersRead (line : List (BitVec 8)) (c : CellId)
  /-- COUNTERS_SET (R644). -/
  | countersSet (line : List (BitVec 8)) (c : CellId) (i : Fin 8) (event : BitVec 8) (edge : Bool)
  /-- COUNTERS_HUB (R644). -/
  | countersHub (line : List (BitVec 8))
  /-- HATCH_JOB_STATUS (R644). -/
  | hatchJobStatus (line : List (BitVec 8))
  /-- HATCH_JOB_START (R644). -/
  | hatchJobStart (line : List (BitVec 8)) (pa : BitVec 40)
  /-- HATCH_JOB_SWITCH (R644). -/
  | hatchJobSwitch (line : List (BitVec 8)) (pa : BitVec 40)
  /-- HATCH_JOB_ABORT (R644). -/
  | hatchJobAbort (line : List (BitVec 8))
  /-- DUMP_INFO (R644). -/
  | dumpInfo (line : List (BitVec 8)) (m : MonId) (slot : Nat)
  /-- DUMP_READ (R644). -/
  | dumpRead (line : List (BitVec 8)) (m : MonId) (slot off count : Nat)
  /-- DUMP_CLEAR (R664). -/
  | dumpClear (line : List (BitVec 8)) (slot : Nat)
  /-- CELL_STATE (R644). -/
  | cellState (line : List (BitVec 8)) (c : CellId)
  /-- HATCH_CELL_HALT (R649). -/
  | hatchCellHalt (line : List (BitVec 8)) (c : CellId)
  /-- HATCH_CELL_RESUME (R649). -/
  | hatchCellResume (line : List (BitVec 8)) (c : CellId)
  /-- HATCH_CELL_STEP (R649). -/
  | hatchCellStep (line : List (BitVec 8)) (c : CellId) (engine : BitVec 7)
  /-- CELL_REG_READ (R652). -/
  | cellRegRead (line : List (BitVec 8)) (c : CellId) (engine : BitVec 7) (file : BitVec 3) (index : BitVec 15)
  /-- CELL_REG_WRITE (R652). -/
  | cellRegWrite (line : List (BitVec 8)) (c : CellId) (engine : BitVec 7) (file : BitVec 3) (index : BitVec 15) (v : BitVec 32)
  /-- CELL_BKPT (R650). -/
  | cellBkpt (line : List (BitVec 8)) (c : CellId) (i : Fin 4) (engine : BitVec 7) (pc : BitVec 16)
  /-- CELL_BKPT_OFF (R650). -/
  | cellBkptOff (line : List (BitVec 8)) (c : CellId) (i : Fin 4)
  /-- LINE_ERROR (R642). -/
  | lineError (line : List (BitVec 8)) (m : MonId) (framing : Bool)
  /-- LINE_TIMEOUT (R642). -/
  | lineTimeout (m : MonId)
  /-- PROGRAM_KEY (R634). -/
  | programKey (line : List (BitVec 8)) (m : MonId) (slot : Fin 4) (hash : List (BitVec 8))
  /-- PROGRAM_DEBUG_KEY (R634). -/
  | programDebugKey (line : List (BitVec 8)) (m : MonId) (slot : Fin 2) (hash : List (BitVec 8))
  /-- SET_LIFECYCLE (R627). -/
  | setLifecycle (line : List (BitVec 8)) (m : MonId) (lc : Lifecycle)
  /-- READ_ID (R634). -/
  | readId (line : List (BitVec 8)) (m : MonId)
  /-- LOAD_IMAGE (R648). -/
  | loadImage (line : List (BitVec 8)) (len : Nat)
  /-- LOAD_IMAGE_DATA (R648). -/
  | loadImageData (line : List (BitVec 8)) (off : Nat) (data : List (BitVec 8))
  /-- LOAD_IMAGE_END (R648). -/
  | loadImageEnd (line : List (BitVec 8))
  /-- DBG_HALT (R649). -/
  | dbgHalt (c : CellId)
  /-- DBG_RESUME (R649). -/
  | dbgResume (c : CellId)
  /-- DBG_STEP (R649). -/
  | dbgStep (c : CellId)
  /-- DBG_DATA_ACCESS (R652). -/
  | dbgDataAccess (c : CellId) (wr : Option (BitVec 32))
  /-- PERF_CLEAR (R671). -/
  | perfClear (c : CellId)
  /-- PERF_COUNTER_WRITE (R667). -/
  | perfCounterWrite (c : CellId) (i : Fin 8) (hi : Bool) (v : BitVec 32)
  /-- LATCHED_READ (R668). -/
  | latchedRead (c : CellId) (r : LatchedReg)
  /-- PERF_WINDOW_CLOSE (R668). -/
  | perfWindowClose (c : CellId)
  /-- SAMPLE_RECORD (R669). -/
  | sampleRecord (c : CellId) (code : BitVec 8) (conflicts : Nat) (tlbMiss loftMiss : Bool)
  /-- SAMPLE_SEED_WRITE (R673). -/
  | sampleSeedWrite (c : CellId) (v : BitVec 32)
  /-- DUMP_CAPTURED (R660). -/
  | dumpCaptured
  /-- DUMP_SEALED (R660). -/
  | dumpSealed
  /-- REMOTE_READ_TIMEOUT (R661). -/
  | remoteReadTimeout (d : Fin 7) (entry : Nat)
  /-- OTP_REVOKE (R626). -/
  | otpRevoke (o : MonId) (slot : Fin 16)
  /-- OTP_REVOKE_DEBUG (R626). -/
  | otpRevokeDebug (o : MonId) (slot : Fin 16)
  /-- OTP_ADVANCE_SVN (R626). -/
  | otpAdvanceSvn (o : MonId) (typ : Fin 16)
  /-- OTP_SET_LIFECYCLE (R627). -/
  | otpSetLifecycle (o : MonId) (lc : Fin 16)
  /-- OTP_PROGRAM_DONE (R637). -/
  | otpProgramDone (o : MonId)
  /-- MEAS_GO (R631). -/
  | measGo (slot : Fin 16)
  /-- ATTEST_GO (R632). -/
  | attestGo
  /-- ATTEST_DONE (R632). -/
  | attestDone
  /-- CHALLENGE_EXPIRY (R635). -/
  | challengeExpiry (m : MonId)
  /-- READY_LIMIT (R628). -/
  | readyLimit (f : ReadyFn)
  /-- FLASH_READ_REQUEST (R622). -/
  | flashReadRequest (i : Isl) (typ : Nat)
  /-- HUB_FW_TIMEOUT (R622). -/
  | hubFwTimeout
  /-- FUNC_READY_WRITE (R636). -/
  | funcReadyWrite (v : BitVec 32)
  /-- JTAG_TRST (R692). -/
  | jtagTrst
  /-- TRAIN_FAIL (R438). -/
  | trainFail (d : Fin 7) (m : Fin 10)
  /-- DRAM_TRAINED (R611). -/
  | dramTrained (w : Fin 5) (gib : Nat)
  /-- DIE_RESET (R581). -/
  | dieReset (d : Fin 4)
  /-- PCIE_HOT_RESET (R477). -/
  | pcieHotReset (i : Fin 2)
  /-- PCIE_LINK_UP (R689). -/
  | pcieLinkUp (i : Fin 2) (width speed : BitVec 3)
  /-- USB_BUS_RESET (R477). -/
  | usbBusReset
  /-- IMU_SAMPLE_READY (R493). -/
  | imuSampleReady (k : Fin 4) (data : List (BitVec 8))
  /-- ETH_TX_FRAME (R688). -/
  | ethTxFrame (m : Fin 6)
  /-- SUPERVISOR_RESET (R587). -/
  | supervisorReset (i : Isl)
  /-- TCK_EDGE (R692). -/
  | tckEdge (tms tdi : Bool)
  deriving DecidableEq, Repr

end Sys2Proof
end

