-- ==== Sys2Proof/Decode.lean ====
section
/-! DEFINITION. The encodings of Xizal (R94 to R101 and the instruction tables): the decoder that a bundle's slots, a sliver core's
stream and a broadcast entry go through, the encoder, and decodeTableWord over the rows of the opcode table that give bits (none do). -/

namespace Sys2Proof

/-- What decoding a word answers: the instruction, or the exception that decoding it raises (R99, R46). -/
inductive Dec where
  | ok (i : Instr)
  | illegalInstr
  | illegalOperand
  deriving DecidableEq, Repr

/-- The fields of a word (R94): major, d, a, b, function and immediate. -/
def wMaj (w : W32) : Nat := w.toNat / 67108864
def wD (w : W32) : Reg := Fin.ofNat 32 (w.toNat / 2097152)
def wA (w : W32) : Reg := Fin.ofNat 32 (w.toNat / 65536)
def wB (w : W32) : Reg := Fin.ofNat 32 (w.toNat / 2048)
def wF (w : W32) : Nat := w.toNat % 2048
def wImm (w : W32) : BitVec 16 := BitVec.ofNat 16 w.toNat

/-- An R-form word and an I-form word. -/
def encR (maj : Nat) (d a b : Reg) (f : Nat) : W32 := BitVec.ofNat 32 (maj * 67108864 + d * 2097152 + a * 65536 + b * 2048 + f)
def encI (maj : Nat) (d a : Reg) (imm : BitVec 16) : W32 := BitVec.ofNat 32 (maj * 67108864 + d * 2097152 + a * 65536 + imm.toNat)

/-- A decoded instruction, under the condition that its reserved fields are 0 (R99). -/
def okIf (c : Bool) (i : Instr) : Dec := if c then .ok i else .illegalInstr

/-- The sequencer, the sliver core or the host core that an instruction of one kind of engine needs (R101, R140). -/
def onSeq (e : Engine) (k : CellId → Dec) : Dec := match e with | .seq c => k c | _ => .illegalInstr
def onHost (e : Engine) (k : Fin 8 → Dec) : Dec := match e with | .host h => k h | _ => .illegalInstr
def onSlv (e : Engine) (k : SlvId → Dec) : Dec := match e with | .slv x => k x | _ => .illegalInstr
/-- A vector instruction decodes on a sliver core, and in slot V of a bundle for every core (R107), where the core is not yet known. -/
def onVec (e : Engine) (k : SlvId → Dec) : Dec := match e with | .slv x => k x | .seq c => k ⟨c, 0⟩ | .host _ => .illegalInstr

/-- Scope codes (R172). -/
def scopeOf (n : Nat) : Scope := match n % 4 with | 0 => .cell | 1 => .die | 2 => .pkg | _ => .sys
def scopeCode : Scope → Nat | .cell => 0 | .die => 1 | .pkg => 2 | .sys => 3

/-- The lane format of a major 0x10 to 0x15 (R150). -/
def laneOfMaj (m : Nat) : LaneFmt := match m with | 0x10 => .i8 | 0x11 => .i16 | 0x12 => .i32 | 0x13 => .bf16 | 0x14 => .f16 | _ => .f32
def majOfLane : LaneFmt → Nat | .i8 => 0x10 | .i16 => 0x11 | .i32 => 0x12 | .bf16 => 0x13 | .f16 => 0x14 | .f32 => 0x15

/-- The integer lane formats. -/
def LaneFmt.isInt : LaneFmt → Bool
  | .i8 => true
  | .i16 => true
  | .i32 => true
  | _ => false

/-- The format code of R46 of a lane format, and the lane format of a code the vector unit accepts. -/
def codeOfLane : LaneFmt → Nat | .i8 => 0 | .i16 => 7 | .i32 => 8 | .bf16 => 4 | .f16 => 5 | .f32 => 6
def laneOfCode (c : Nat) : Option LaneFmt :=
  match c with | 0 => some .i8 | 7 => some .i16 | 8 => some .i32 | 4 => some .bf16 | 5 => some .f16 | 6 => some .f32 | _ => none


/-- Scalar R-forms, majors 0x01 to 0x07 (R143); bit 10 of the function is W (R100). -/
def decScalar (e : Engine) (w : W32) : Dec :=
  let d := wD w; let a := wA w; let b := wB w; let f := wF w % 1024; let x := decide (1024 ≤ wF w)
  match wMaj w, f with
  | 1, 0 => .ok (.add e x d a b)
  | 1, 1 => .ok (.sub e x d a b)
  | 1, 2 => .ok (.mul e x d a b)
  | 1, 3 => .ok (.mulh e x d a b)
  | 1, 4 => .ok (.mulhu e x d a b)
  | 1, 5 => .ok (.div e x d a b)
  | 1, 6 => .ok (.divu e x d a b)
  | 1, 7 => .ok (.rem e x d a b)
  | 1, 8 => .ok (.remu e x d a b)
  | 2, 0 => .ok (.and e x d a b)
  | 2, 1 => .ok (.or e x d a b)
  | 2, 2 => .ok (.xor e x d a b)
  | 2, 3 => .ok (.andn e x d a b)
  | 3, 0 => .ok (.sll e x d a b)
  | 3, 1 => .ok (.srl e x d a b)
  | 3, 2 => .ok (.sra e x d a b)
  | 4, 0 => .ok (.slt e x d a b)
  | 4, 1 => .ok (.sltu e x d a b)
  | 4, 2 => .ok (.seq e x d a b)
  | 4, 3 => .ok (.sne e x d a b)
  | 4, 4 => .ok (.min e x d a b)
  | 4, 5 => .ok (.max e x d a b)
  | 4, 6 => .ok (.minu e x d a b)
  | 4, 7 => .ok (.maxu e x d a b)
  | 3, 16 => .ok (.slli e x false d a b)
  | 3, 24 => .ok (.slli e x true d a b)
  | 3, 17 => .ok (.srli e x false d a b)
  | 3, 25 => .ok (.srli e x true d a b)
  | 3, 18 => .ok (.srai e x false d a b)
  | 3, 26 => .ok (.srai e x true d a b)
  | 5, 0 => okIf (b == 0) (.clz e x d a)
  | 5, 1 => okIf (b == 0) (.ctz e x d a)
  | 5, 2 => okIf (b == 0) (.popc e x d a)
  | 7, 0 => onHost e (fun h => .ok (.cas h x d a b))
  | _, _ => .illegalInstr

/-- Scalar I-forms, loads and stores (R146, R147), and address registers (R148). -/
def decImm (e : Engine) (w : W32) : Dec :=
  let d := wD w; let a := wA w; let b := wB w; let f := wF w; let i := wImm w
  match wMaj w with
  | 0x08 => .ok (.addi e d a i)
  | 0x09 => .ok (.andi e d a i)
  | 0x0A => .ok (.ori e d a i)
  | 0x0B => okIf (a == 0) (.lui e d i)
  | 0x0C => .ok (.scalarLoad e d a (Fin.ofNat 4 (i.toNat / 16384)) (i.getLsbD 13) (BitVec.ofNat 13 i.toNat))
  | 0x0D => okIf (!i.getLsbD 13) (.scalarStore e d a (Fin.ofNat 4 (i.toNat / 16384)) (BitVec.ofNat 13 i.toNat))
  | 0x0E => onSeq e (fun c =>
    match f with
    | 0 => .ok (.aadd c d a b)
    | 1 => .ok (.asub c d a b)
    | 2 => okIf (b == 0) (.amov c d a)
    | 3 => okIf (b == 0) (.ahi c d a)
    | 4 => okIf (b == 0) (.ard c d a)
    | 5 => okIf (b == 0) (.ardh c d a)
    | _ => .illegalInstr)
  | 0x0F => onSeq e (fun c => .ok (.aaddi c d a i))
  | _ => .illegalInstr

/-- Vector arithmetic by format, majors 0x10 to 0x15 (R150); bits [10:8] name the predicate. -/
def decVecArith (x : SlvId) (w : W32) : Dec :=
  let d := wD w; let a := wA w; let b := wB w; let p : Fin 8 := Fin.ofNat 8 (wF w / 256); let g := laneOfMaj (wMaj w)
  match wF w % 256 with
  | 0 => .ok (.vadd x g p d a b)
  | 1 => .ok (.vsub x g p d a b)
  | 2 => .ok (.vmul x g p d a b)
  | 3 => okIf (!g.isInt) (.vmac x g p d a b)
  | 4 => .ok (.vmin x g p d a b)
  | 5 => .ok (.vmax x g p d a b)
  | 6 => okIf (b == 0) (.vabs x g p d a)
  | 7 => okIf (b == 0) (.vneg x g p d a)
  | 8 => okIf g.isInt (.vadds x g p d a b)
  | 9 => okIf g.isInt (.vsubs x g p d a b)
  | 10 => okIf g.isInt (.vsll x g p d a b)
  | 11 => okIf g.isInt (.vsrl x g p d a b)
  | 12 => okIf g.isInt (.vsra x g p d a b)
  | _ => .illegalInstr

/-- Vector instructions of majors 0x16 to 0x1B (R152 to R156). A comparison with format code 0xF and a function that is no predicate operation is an
undefined function, ILLEGAL_INSTR, and not an unaccepted format (R46; DESIGN CHOICE, log entry 112). -/
def decVecOther (x : SlvId) (w : W32) : Dec :=
  let d := wD w; let a := wA w; let b := wB w; let p : Fin 8 := Fin.ofNat 8 (wF w / 256); let f := wF w % 256
  match wMaj w with
  | 0x16 =>
    match f with
    | 0 => .ok (.vdot4I8 x p d a b)
    | 1 => .ok (.vdot4sI8 x p d a b)
    | 2 => .ok (.vdot2I16 x p d a b)
    | 3 => .ok (.vdot2sI16 x p d a b)
    | 4 => .ok (.vdot2Bf16 x p d a b)
    | 5 => .ok (.vdot2F16 x p d a b)
    | _ => .illegalInstr
  | 0x17 => okIf (decide (b.val < 4)) (.vectorConvert x p (BitVec.ofNat 4 (f / 16)) (BitVec.ofNat 4 f) (Fin.ofNat 4 b) d a)
  | 0x18 =>
    match f with
    | 0 => .ok (.vand x p d a b)
    | 1 => .ok (.vor x p d a b)
    | 2 => .ok (.vxor x p d a b)
    | 3 => .ok (.vandn x p d a b)
    | 4 => .ok (.vsel x p d a b)
    | _ => .illegalInstr
  | 0x19 =>
    match f with
    | 0x00 => okIf (b == 0) (.vsplatB x p d a)
    | 0x01 => okIf (b == 0) (.vsplatH x p d a)
    | 0x02 => okIf (b == 0) (.vsplatW x p d a)
    | 0x08 => okIf (p == 0) (.vextw x d a b)
    | 0x09 => .ok (.vinsw x p d a b)
    | 0x10 => okIf (b == 0) (.vrsumI32 x p d a)
    | 0x11 => okIf (b == 0) (.vrsumF32 x p d a)
    | 0x12 => okIf (b == 0) (.vrmaxF32 x p d a)
    | _ => .illegalInstr
  | 0x1A =>
    match f with
    | 0xF0 => okIf (p == 0) (.pand x d a b)
    | 0xF1 => okIf (p == 0) (.por x d a b)
    | 0xF2 => okIf (p == 0) (.pxor x d a b)
    | 0xF3 => okIf (p == 0) (.pandn x d a b)
    | _ =>
      if 5 < f % 16 ∨ 0xF0 ≤ f then .illegalInstr
      else match laneOfCode (f / 16) with
      | none => .illegalOperand
      | some g =>
        match f % 16 with
        | 0 => .ok (.vcmpEq x g p d a b)
        | 1 => .ok (.vcmpNe x g p d a b)
        | 2 => .ok (.vcmpLt x g p d a b)
        | 3 => .ok (.vcmpLe x g p d a b)
        | 4 => okIf g.isInt (.vcmpLtu x g p d a b)
        | _ => okIf g.isInt (.vcmpLeu x g p d a b)
  | 0x1B =>
    match f with
    | 0x00 => okIf (b == 0) (.vexpF32 x p d a)
    | 0x01 => okIf (b == 0) (.vrecipF32 x p d a)
    | 0x10 => okIf (d == 0 && a == 0 && b == 0 && p == 0) (.bleave x)
    | _ => .illegalInstr
  | 0x1C => .ok (.vdw x (BitVec.ofNat 4 (f / 16)) (Fin.ofNat 16 f) p d a b)
  | 0x1D => okIf (p == 0 && f % 16 == 0) (.vgs x (BitVec.ofNat 4 (f / 16)) d a b)
  | 0x1E => .ok (.vectorLoad x (Fin.ofNat 8 (w.toNat / 8192)) d a (BitVec.ofNat 13 w.toNat))
  | 0x1F => .ok (.vectorStore x (Fin.ofNat 8 (w.toNat / 8192)) d a (BitVec.ofNat 13 w.toNat))
  | _ => .illegalInstr

/-- Array, move, Shelf, attention and path instructions, majors 0x20 to 0x37. -/
def decUnits (e : Engine) (w : W32) : Dec :=
  let d := wD w; let a := wA w; let b := wB w; let f := wF w
  match wMaj w with
  | 0x20 => onSeq e (fun c => okIf (b == 0 && decide (f < 256))
      (.wload c d a (Fin.ofNat 4 (f / 64)) (Fin.ofNat 2 (f / 32)) (decide (f / 16 % 2 = 1)) (BitVec.ofNat 4 f)))
  | 0x23 => onSeq e (fun c => okIf (d == 0 && b == 0 && f == 0) (.aseed c a))
  | 0x29 =>
    match f with
    | 0 => .ok (.lds e d a b)
    | 1 => .ok (.sts e d a b)
    | 2 => okIf (b == 0) (.crd e d a)
    | 3 => okIf (d == 0) (.cwr e a b)
    | _ => .illegalInstr
  | 0x2A =>
    match f with
    | 0 => okIf (b == 0) (.swait e d a)
    | 1 => okIf (d == 0 && b == 0) (.srel e a)
    | 2 => okIf (b == 0) (.sstat e d a)
    | _ => .illegalInstr
  | 0x30 => onSeq e (fun c => okIf (b == 0 && f == 0) (.attKv c d a))
  | 0x31 => onSeq e (fun c => okIf (b == 0 && f == 0) (.attNorm c d a))
  | 0x32 => onSeq e (fun c => okIf (b == 0 && f == 0) (.attMerge c d a))
  | 0x33 => onSeq e (fun c => okIf (d == 0 && a == 0 && b == 0 && f == 0) (.attSync c))
  | 0x34 => okIf (b == 0 && f == 0) (.pathPlan e d a)
  | 0x35 => okIf (b == 0 && f == 0) (.pathCommit e d a)
  | 0x36 => okIf (b == 0 && f == 0) (.pathUpd e d a)
  | 0x37 =>
    match f with
    | 0 => okIf (b == 0) (.pathAbort e d a)
    | 1 => okIf (a == 0 && b == 0) (.pathGen e d)
    | _ => .illegalInstr
  | _ => .illegalInstr

/-- Fences, tokens, control, branches and loops, majors 0x38 to 0x3E (R172 to R180). -/
def decControl (e : Engine) (w : W32) : Dec :=
  let d := wD w; let a := wA w; let b := wB w; let f := wF w; let i := wImm w
  match wMaj w with
  | 0x38 =>
    match f % 8 with
    | 0 => okIf (d == 0 && b == 0 && decide (f < 256) && (decide (128 ≤ f) || a == 0))
        (.fence e a (scopeOf (f / 8)) (Fin.ofNat 4 (f / 32)) (decide (128 ≤ f)))
    | 1 => okIf (d == 0 && a == 0 && b == 0 && f == 1) (.ifence e)
    | 2 => okIf (a == 0 && b == 0 && f == 2) (.stat e d)
    | 3 => okIf (d == 0 && b == 0 && f == 3) (.loftInv e a)
    | _ => .illegalInstr
  | 0x3A => okIf (decide (d.val < 4) && !i.getLsbD 15) (.tput e a (scopeOf d) (BitVec.ofNat 15 i.toNat))
  | 0x3B => okIf (decide (a.val < 4) && !i.getLsbD 15) (.tget e d (scopeOf a) (BitVec.ofNat 15 i.toNat))
  | 0x3C =>
    match f with
    | 0x000 => okIf (d == 0 && a == 0 && b == 0) (.nop e)
    | 0x001 => okIf (d == 0 && a == 0 && b == 0) (.halt e)
    | 0x002 => okIf (d == 0 && a == 0 && b == 0) (.brk e)
    | 0x003 => onSlv e (fun x => okIf (d == 0 && a == 0 && b == 0) (.join x))
    | 0x004 => okIf (b == 0) (.jalr e d a)
    | 0x008 => onHost e (fun h => okIf (d == 0 && a == 0 && b == 0) (.syscall h))
    | 0x009 => onHost e (fun h => okIf (d == 0 && a == 0 && b == 0) (.ret h))
    | 0x010 => onHost e (fun h => okIf (b == 0) (.srd h d a))
    | 0x011 => onHost e (fun h => okIf (d == 0) (.swr h a b))
    | _ => .illegalInstr
  | 0x3D =>
    match d.val with
    | 0 => okIf (a == 0) (.b e i)
    | 1 => .ok (.beqz e a i)
    | 2 => .ok (.bnez e a i)
    | 3 => .ok (.bltz e a i)
    | 4 => .ok (.bgez e a i)
    | 5 => okIf (a == 0) (.bl e i)
    | 6 => onSeq e (fun c => okIf (decide (a.val < 4)) (.bcnz c (Fin.ofNat 4 a) i))
    | _ => .illegalInstr
  | 0x3E => okIf (decide (d.val < 4)) (.loop e (Fin.ofNat 4 d) a i)
  | _ => .illegalInstr

/-- Extended forms (R95, R182). -/
def decExt (e : Engine) (w w2 : W32) : Dec :=
  let d := wD w; let a := wA w; let f := w.toNat % 1024
  match w.toNat / 1024 % 64 with
  | 0x08 => okIf (a == 0 && f == 0) (.li e d w2)
  | 0x21 => onSeq e (fun c => okIf (f == 0) (.mma c d a w2))
  | 0x22 => onSeq e (fun c => okIf (f == 0) (.drain c d a w2))
  | 0x28 => okIf (decide (f < 16)) (.move e d a (scopeOf f) (decide (f / 4 % 2 = 1)) (decide (f / 8 % 2 = 1)) w2)
  | _ => .illegalInstr

/-- The instruction that a word stands for on an engine; `w2` is the second word that an extended instruction reads (R94 to R101). -/
def decodeWord (e : Engine) (w w2 : W32) : Dec :=
  let m := wMaj w
  if m = 0 then .illegalInstr
  else if m < 0x08 then decScalar e w
  else if m < 0x10 then decImm e w
  else if m < 0x16 then onVec e (fun x => decVecArith x w)
  else if m < 0x20 then onVec e (fun x => decVecOther x w)
  else if m < 0x38 then decUnits e w
  else if m < 0x3F then decControl e w
  else decExt e w w2

/-- The word of an instruction, and the second word of an extended one; none for a command that is no instruction. -/
def encode : Instr → Option (W32 × Option W32)
  | .add _ x d a b => some (encR 1 d a b (0 + x.toNat * 1024), none)
  | .sub _ x d a b => some (encR 1 d a b (1 + x.toNat * 1024), none)
  | .mul _ x d a b => some (encR 1 d a b (2 + x.toNat * 1024), none)
  | .mulh _ x d a b => some (encR 1 d a b (3 + x.toNat * 1024), none)
  | .mulhu _ x d a b => some (encR 1 d a b (4 + x.toNat * 1024), none)
  | .div _ x d a b => some (encR 1 d a b (5 + x.toNat * 1024), none)
  | .divu _ x d a b => some (encR 1 d a b (6 + x.toNat * 1024), none)
  | .rem _ x d a b => some (encR 1 d a b (7 + x.toNat * 1024), none)
  | .remu _ x d a b => some (encR 1 d a b (8 + x.toNat * 1024), none)
  | .and _ x d a b => some (encR 2 d a b (0 + x.toNat * 1024), none)
  | .or _ x d a b => some (encR 2 d a b (1 + x.toNat * 1024), none)
  | .xor _ x d a b => some (encR 2 d a b (2 + x.toNat * 1024), none)
  | .andn _ x d a b => some (encR 2 d a b (3 + x.toNat * 1024), none)
  | .sll _ x d a b => some (encR 3 d a b (0 + x.toNat * 1024), none)
  | .srl _ x d a b => some (encR 3 d a b (1 + x.toNat * 1024), none)
  | .sra _ x d a b => some (encR 3 d a b (2 + x.toNat * 1024), none)
  | .slt _ x d a b => some (encR 4 d a b (0 + x.toNat * 1024), none)
  | .sltu _ x d a b => some (encR 4 d a b (1 + x.toNat * 1024), none)
  | .seq _ x d a b => some (encR 4 d a b (2 + x.toNat * 1024), none)
  | .sne _ x d a b => some (encR 4 d a b (3 + x.toNat * 1024), none)
  | .min _ x d a b => some (encR 4 d a b (4 + x.toNat * 1024), none)
  | .max _ x d a b => some (encR 4 d a b (5 + x.toNat * 1024), none)
  | .minu _ x d a b => some (encR 4 d a b (6 + x.toNat * 1024), none)
  | .maxu _ x d a b => some (encR 4 d a b (7 + x.toNat * 1024), none)
  | .slli _ x hi d a b => some (encR 3 d a b (16 + hi.toNat * 8 + x.toNat * 1024), none)
  | .srli _ x hi d a b => some (encR 3 d a b (17 + hi.toNat * 8 + x.toNat * 1024), none)
  | .srai _ x hi d a b => some (encR 3 d a b (18 + hi.toNat * 8 + x.toNat * 1024), none)
  | .clz _ x d a => some (encR 5 d a 0 (0 + x.toNat * 1024), none)
  | .ctz _ x d a => some (encR 5 d a 0 (1 + x.toNat * 1024), none)
  | .popc _ x d a => some (encR 5 d a 0 (2 + x.toNat * 1024), none)
  | .cas _ x d a b => some (encR 7 d a b (x.toNat * 1024), none)
  | .addi _ d a i => some (encI 8 d a i, none)
  | .andi _ d a i => some (encI 9 d a i, none)
  | .ori _ d a i => some (encI 10 d a i, none)
  | .lui _ d i => some (encI 0x0B d 0 i, none)
  | .scalarLoad _ d a z u o => some (encI 0x0C d a (BitVec.ofNat 16 (z * 16384 + u.toNat * 8192 + o.toNat)), none)
  | .scalarStore _ d a z o => some (encI 0x0D d a (BitVec.ofNat 16 (z * 16384 + o.toNat)), none)
  | .aadd _ d a b => some (encR 0x0E d a b (0), none)
  | .asub _ d a b => some (encR 0x0E d a b (1), none)
  | .amov _ d a => some (encR 0x0E d a 0 (2), none)
  | .ahi _ d a => some (encR 0x0E d a 0 (3), none)
  | .ard _ d a => some (encR 0x0E d a 0 (4), none)
  | .ardh _ d a => some (encR 0x0E d a 0 (5), none)
  | .aaddi _ d a i => some (encI 0x0F d a i, none)
  | .vadd _ g p d a b => some (encR (majOfLane g) d a b (0 + p * 256), none)
  | .vsub _ g p d a b => some (encR (majOfLane g) d a b (1 + p * 256), none)
  | .vmul _ g p d a b => some (encR (majOfLane g) d a b (2 + p * 256), none)
  | .vmac _ g p d a b => some (encR (majOfLane g) d a b (3 + p * 256), none)
  | .vmin _ g p d a b => some (encR (majOfLane g) d a b (4 + p * 256), none)
  | .vmax _ g p d a b => some (encR (majOfLane g) d a b (5 + p * 256), none)
  | .vabs _ g p d a => some (encR (majOfLane g) d a 0 (6 + p * 256), none)
  | .vneg _ g p d a => some (encR (majOfLane g) d a 0 (7 + p * 256), none)
  | .vadds _ g p d a b => some (encR (majOfLane g) d a b (8 + p * 256), none)
  | .vsubs _ g p d a b => some (encR (majOfLane g) d a b (9 + p * 256), none)
  | .vsll _ g p d a b => some (encR (majOfLane g) d a b (10 + p * 256), none)
  | .vsrl _ g p d a b => some (encR (majOfLane g) d a b (11 + p * 256), none)
  | .vsra _ g p d a b => some (encR (majOfLane g) d a b (12 + p * 256), none)
  | .vdot4I8 _ p d a b => some (encR 0x16 d a b (0 + p * 256), none)
  | .vdot4sI8 _ p d a b => some (encR 0x16 d a b (1 + p * 256), none)
  | .vdot2I16 _ p d a b => some (encR 0x16 d a b (2 + p * 256), none)
  | .vdot2sI16 _ p d a b => some (encR 0x16 d a b (3 + p * 256), none)
  | .vdot2Bf16 _ p d a b => some (encR 0x16 d a b (4 + p * 256), none)
  | .vdot2F16 _ p d a b => some (encR 0x16 d a b (5 + p * 256), none)
  | .vectorConvert _ p t s q d a => some (encR 0x17 d a (q.castLE (by omega)) (t.toNat * 16 + s.toNat + p * 256), none)
  | .vand _ p d a b => some (encR 0x18 d a b (0 + p * 256), none)
  | .vor _ p d a b => some (encR 0x18 d a b (1 + p * 256), none)
  | .vxor _ p d a b => some (encR 0x18 d a b (2 + p * 256), none)
  | .vandn _ p d a b => some (encR 0x18 d a b (3 + p * 256), none)
  | .vsel _ p d a b => some (encR 0x18 d a b (4 + p * 256), none)
  | .vsplatB _ p d a => some (encR 0x19 d a 0 (0 + p * 256), none)
  | .vsplatH _ p d a => some (encR 0x19 d a 0 (1 + p * 256), none)
  | .vsplatW _ p d a => some (encR 0x19 d a 0 (2 + p * 256), none)
  | .vrsumI32 _ p d a => some (encR 0x19 d a 0 (16 + p * 256), none)
  | .vrsumF32 _ p d a => some (encR 0x19 d a 0 (17 + p * 256), none)
  | .vrmaxF32 _ p d a => some (encR 0x19 d a 0 (18 + p * 256), none)
  | .vextw _ d a b => some (encR 0x19 d a b (8), none)
  | .vinsw _ p d a b => some (encR 0x19 d a b (9 + p * 256), none)
  | .vcmpEq _ g p d a b => some (encR 0x1A d a b (0 + codeOfLane g * 16 + p * 256), none)
  | .vcmpNe _ g p d a b => some (encR 0x1A d a b (1 + codeOfLane g * 16 + p * 256), none)
  | .vcmpLt _ g p d a b => some (encR 0x1A d a b (2 + codeOfLane g * 16 + p * 256), none)
  | .vcmpLe _ g p d a b => some (encR 0x1A d a b (3 + codeOfLane g * 16 + p * 256), none)
  | .vcmpLtu _ g p d a b => some (encR 0x1A d a b (4 + codeOfLane g * 16 + p * 256), none)
  | .vcmpLeu _ g p d a b => some (encR 0x1A d a b (5 + codeOfLane g * 16 + p * 256), none)
  | .pand _ d a b => some (encR 0x1A d a b (240), none)
  | .por _ d a b => some (encR 0x1A d a b (241), none)
  | .pxor _ d a b => some (encR 0x1A d a b (242), none)
  | .pandn _ d a b => some (encR 0x1A d a b (243), none)
  | .vexpF32 _ p d a => some (encR 0x1B d a 0 (0 + p * 256), none)
  | .vrecipF32 _ p d a => some (encR 0x1B d a 0 (1 + p * 256), none)
  | .bleave _ => some (encR 0x1B 0 0 0 0x10, none)
  | .vectorLoad _ p d a o => some (encI 0x1E d a (BitVec.ofNat 16 (p * 8192 + o.toNat)), none)
  | .vectorStore _ p d a o => some (encI 0x1F d a (BitVec.ofNat 16 (p * 8192 + o.toNat)), none)
  | .vdw _ f n p d a b => some (encR 0x1C d a b (f.toNat * 16 + n + p * 256), none)
  | .vgs _ f d a b => some (encR 0x1D d a b (f.toNat * 16), none)
  | .wload _ d a c h s f => some (encR 0x20 d a 0 (c * 64 + h * 32 + s.toNat * 16 + f.toNat), none)
  | .mma _ d a w2 => some (encR 0x3F d a 0 (0x21 * 1024), some w2)
  | .drain _ d a w2 => some (encR 0x3F d a 0 (0x22 * 1024), some w2)
  | .aseed _ a => some (encR 0x23 0 a 0 0, none)
  | .move _ d a sc t l w2 => some (encR 0x3F d a 0 (0x28 * 1024 + scopeCode sc + t.toNat * 4 + l.toNat * 8), some w2)
  | .lds _ d a b => some (encR 0x29 d a b (0), none)
  | .sts _ d a b => some (encR 0x29 d a b (1), none)
  | .crd _ d a => some (encR 0x29 d a 0 (2), none)
  | .cwr _ a b => some (encR 0x29 0 a b (3), none)
  | .fence _ a sc k m => some (encR 0x38 0 a 0 (scopeCode sc * 8 + k * 32 + m.toNat * 128), none)
  | .ifence _ => some (encR 0x38 0 0 0 1, none)
  | .stat _ d => some (encR 0x38 d 0 0 2, none)
  | .loftInv _ a => some (encR 0x38 0 a 0 3, none)
  | .tput _ a sc q => some (encI 0x3A (Fin.ofNat 32 (scopeCode sc)) a (q.setWidth 16), none)
  | .tget _ d sc q => some (encI 0x3B d (Fin.ofNat 32 (scopeCode sc)) (q.setWidth 16), none)
  | .nop _ => some (encR 0x3C 0 0 0 0, none)
  | .halt _ => some (encR 0x3C 0 0 0 1, none)
  | .brk _ => some (encR 0x3C 0 0 0 2, none)
  | .join _ => some (encR 0x3C 0 0 0 3, none)
  | .syscall _ => some (encR 0x3C 0 0 0 8, none)
  | .ret _ => some (encR 0x3C 0 0 0 9, none)
  | .jalr _ d a => some (encR 0x3C d a 0 4, none)
  | .srd _ d a => some (encR 0x3C d a 0 0x10, none)
  | .swr _ a b => some (encR 0x3C 0 a b 0x11, none)
  | .b _ i => some (encI 0x3D 0 0 i, none)
  | .beqz _ a i => some (encI 0x3D 1 a i, none)
  | .bnez _ a i => some (encI 0x3D 2 a i, none)
  | .bltz _ a i => some (encI 0x3D 3 a i, none)
  | .bgez _ a i => some (encI 0x3D 4 a i, none)
  | .bl _ i => some (encI 0x3D 5 0 i, none)
  | .bcnz _ n i => some (encI 0x3D 6 (n.castLE (by omega)) i, none)
  | .loop _ n a i => some (encI 0x3E (n.castLE (by omega)) a i, none)
  | .li _ d w2 => some (encR 0x3F d 0 0 (0x08 * 1024), some w2)
  | .swait _ d a => some (encR 0x2A d a 0 0, none)
  | .srel _ a => some (encR 0x2A 0 a 0 1, none)
  | .sstat _ d a => some (encR 0x2A d a 0 2, none)
  | .attKv _ d a => some (encR 48 d a 0 0, none)
  | .attNorm _ d a => some (encR 49 d a 0 0, none)
  | .attMerge _ d a => some (encR 50 d a 0 0, none)
  | .attSync _ => some (encR 0x33 0 0 0 0, none)
  | .pathPlan _ d a => some (encR 52 d a 0 0, none)
  | .pathCommit _ d a => some (encR 53 d a 0 0, none)
  | .pathUpd _ d a => some (encR 54 d a 0 0, none)
  | .pathAbort _ d a => some (encR 55 d a 0 0, none)
  | .pathGen _ d => some (encR 0x37 d 0 0 1, none)
  | _ => none

/-- The first word of an instruction, as CELL_EXC_INSTR records it (R136). -/
def wordOf (i : Instr) : W32 := match encode i with | some (w, _) => w | none => 0

/-- The command that a word spells by the bits of spec/opcode_table.json: no row gives bits, so no word spells one. -/
def decodeTableWord (_nbits _w : Nat) : Option Instr := none

end Sys2Proof
end

