-- ==== Sys2Proof/Config.lean ====
section
/-! DEFINITION. What an implementation fixes and the spec leaves open: constants without a body. No proof can see a value of one
of them, so a theorem that mentions one holds whatever it is. The entry of the assumption log that declares each is named with it. -/

namespace Sys2Proof.Config

/-- A free value of `w` bits, the `k`-th one drawn (log entry 4). -/
opaque freeVal (w k : Nat) : BitVec w

/-- A free natural number, the `k`-th one drawn (log entry 4). -/
opaque freeNat (k : Nat) : Nat

/-- A free choice, the `k`-th one drawn (log entry 4). -/
opaque freeBool (k : Nat) : Bool

/-- The contents of accumulator tile `t` at element `i` where they are undefined, drawn as the `k`-th (R112, R120; log entry 4). -/
opaque freeTile (k i : Nat) : BitVec 32

/-- The candidate bits of exp(x) of a stepping, held to the bound of R69 (log entry 7). -/
opaque expCand (x : BitVec 32) : BitVec 32

/-- The candidate bits of recip(x) of a stepping, held to the bound of R69 (log entry 7). -/
opaque recipCand (x : BitVec 32) : BitVec 32

/-- The leaf order of a stepping's summation tree over `n` products (R56; log entry 8). -/
opaque treeLeaf (n i : Nat) : Nat

/-- The candidate bits that the normaliser of a cell gives for value `k` of a row with the given data: a fixed function, since a cell gives the same
bits for the same data every time (R72, R79, R294, R298; log entry 9). -/
opaque normCand (cell : Nat) (data : List (BitVec 32)) (k : Nat) : BitVec 32

/-- Bytes of DRAM fitted on a compute die, and on the hub: the board's choice (R21, R22; log entry 12). -/
opaque cdDramBytes : Nat

/-- Bytes of DRAM fitted on the hub (R21; log entry 12). -/
opaque hubDramBytes : Nat

/-- The channel of a DRAM controller that holds an address, 0 to 7 (log entry 12). -/
opaque dramChannel (pa : Nat) : Fin 8

/-- The bytes that record window `w` holds when it is full (R684; log entry 40). -/
opaque windowBytes (w : Nat) : Nat

/-- The 32 coefficients of the FIR compensator, in units of 2^-23 (R380; log entry 30). -/
opaque firCoeff (k : Nat) : Int

/-- A step of the one-bit modulator of order `q` of a stepping, from its integrators and the held sample: the integrators, the bit, and whether
the step overloads it (R388; log entry 30). -/
opaque pdmStep (q : Nat) (integrators : List Int) (sample : Int) : List Int × Bool × Bool

/-- The bound that a stepping keeps on every integrator of a modulator (R388; log entry 30). -/
opaque pdmBound : Nat

/-- The number at a host core of a hub interrupt: 0 PDMA_EVENT, 1 HO_EVENT, 2 SAFE_EVENT, 3 ACO_EVENT (R124, R403, R508, R515, R551; log entry 114). -/
opaque irqNum (q : Nat) : BitVec 8

/-- The DATA_IDs of the signed configuration: each island's status frame, SIB's health frame, SIA's sleep frame (R552, R577, R592; log
entry 50). -/
opaque statusId (i : Nat) : BitVec 16
opaque healthId : BitVec 16
opaque sleepId : BitVec 16

/-- An entry of the self-test schedule in a job's parameter section, whose place there the spec does not give (R542; log entry 51). -/
opaque testEntry (job die k : Nat) : BitVec 64

/-- Whether SIB's health frame carries its pulse count in the bytes that R577 reserves (R603; log entry 133). -/
opaque pulsesSent : Bool

/-- The WARN and LIMIT thresholds of a class in SIB's signed configuration (R574; log entry 117). -/
opaque healthThresholds (c : Nat) : BitVec 32 × BitVec 32

/-- SIA's thermal model in its signed configuration (R595; log entry 55): the heat capacity of node `k` in µJ/K, the conductance between nodes `j` and
`k`, that of the plate to the coolant at 6 L/min, and the heat that the coolant carries per kelvin at 6 L/min, all three in µW/K. -/
opaque thermalCap (k : Nat) : Nat
opaque thermalCond (j k : Nat) : Nat
opaque thermalRef : Nat
opaque coolantHeat : Nat

/-- The part of a die's power that enters its hot spot, the rest entering its bulk, in 2^-16; the power of an island in 0.1 W; and how a quotient of the
integration is rounded (log entry 55). -/
opaque hotShare (d : Nat) : Nat
opaque islandPower (i : Nat) : Nat
opaque thermalRound (num : Int) (den : Nat) : Bool

/-- A die's peak rail power in 0.1 W (R596; log entry 55). -/
opaque peakPower (d : Nat) : Nat

/-- The model's outlet minus inlet, in 1/64 of a degree, for a power and a flow (R603; log entry 55). -/
opaque outletDiff (power flow : Nat) : Int

/-- The boot directory of an island's NOR flash as it stands at the `k`-th reading: TYPE and the bytes of each image, in directory order (R622; log
entry 56). -/
opaque flashDir (i k : Nat) : List (Nat × List Byte)

/-- Where hub firmware keeps the verified compute microcode in hub DRAM (R623; log entry 134). -/
opaque ucodeAt : Nat

/-- The code of the IDCODE instruction (R692; log entry 58). -/
opaque idcodeOp : BitVec 6

/-- The images that hub firmware has loaded into hub DRAM when it sets IMAGES, by header address; it verifies each (R412, R611, R621; log entry 59). -/
opaque loadedImages (k : Nat) : List Nat

/-- Where hub firmware keeps the resident copy of section `i` of an image, in its die's usable DRAM (R412; log entry 59). -/
opaque residentAt (img i : Nat) : Nat

/-- The sections of a job image whose contents the spec names without a layout, by header address (R411, R562; log entry 62): register values
that the start loads, the words CELL_SHELF_CFG0 and 1 of a cell, the pair mask of a die, moves of the load list, save regions, switch points of an engine (cell, ENGINE field), holders of
the shards and staging regions, RESTORE_AGE where it is given (R567), cells and offsets of restore records, and moves that unpack a restored record. -/
opaque jobRegs (img : Nat) : List (Nat × BitVec 32)
opaque shelfCfg (img cell k : Nat) : BitVec 32
opaque jobPairs (img d : Nat) : BitVec 8
opaque jobLoads (img d : Nat) : List (Nat × Nat × Nat)
opaque jobSaves (img d : Nat) : List (Nat × Nat)
opaque switchPoints (img cell engine : Nat) : List Nat
opaque shardRegion (img i : Nat) : Nat
opaque restoreAge (img : Nat) : Option Nat
opaque restoreCells (img d : Nat) : List (Nat × Nat)
opaque unpackList (img d : Nat) : List (Nat × Nat × Nat)

/-- The capture list of SIA's signed configuration: register offsets of each die, and memory ranges; none where it keeps the default (R660; log
entry 60). -/
opaque captureRegs (d : Nat) : Option (List Nat)
opaque captureMem : Option (List (Nat × Nat))

/-- Where hub firmware lies in hub DRAM: address and bytes of each range (R645; log entry 70). -/
opaque hubFirmware : List (Nat × Nat)

/-- The payload of a dump's LOG record, drawn as the `k`-th (R659; log entry 72). -/
opaque firmwareLog (k : Nat) : List Byte

/-- The unique device secret of HD, SIA and SIB (R625; log entry 33). -/
opaque uds (o : Nat) : BitVec 256

/-- The stepping of a die, by strap (R440). -/
opaque stepping (d : Nat) : BitVec 16

/-- The bytes of the hub ROM, whose hash is measurement 0 (R631; log entry 66). -/
opaque hubRom : List Byte

end Sys2Proof.Config
end

