-- ==== Sys2Proof/Machine/Float.lean ====
section
/-! DEFINITION. The number formats of R46 to R48 and exact arithmetic on their values, with the roundings of R61, R68 and R69. -/

namespace Sys2Proof.Machine

/-- How a format spends its top codes (R47): infinities and NaNs as IEEE 754, one NaN code only, or neither. -/
inductive Special where
  | ieee | fn | none
  deriving DecidableEq, Repr

/-- A binary floating-point format (R47). -/
structure FFmt where
  eb : Nat
  mb : Nat
  bias : Int
  sp : Special
  deriving DecidableEq, Repr

def fF32 : FFmt := ⟨8, 23, 127, .ieee⟩
def fBf16 : FFmt := ⟨8, 7, 127, .ieee⟩
def fF16 : FFmt := ⟨5, 10, 15, .ieee⟩
def fE5m2 : FFmt := ⟨5, 2, 15, .ieee⟩
def fE4m3 : FFmt := ⟨4, 3, 7, .fn⟩
def fE3m2 : FFmt := ⟨3, 2, 3, .none⟩
def fE2m3 : FFmt := ⟨2, 3, 1, .none⟩
def fE2m1 : FFmt := ⟨2, 1, 1, .none⟩

/-- A value: NaN, a signed infinity, or the exact number ± m × 2^e. -/
inductive FV where
  | nan
  | inf (neg : Bool)
  | fin (neg : Bool) (m : Nat) (e : Int)
  deriving DecidableEq, Repr

/-- The value of a code of a format (R47, subnormals honoured: R52). -/
def FFmt.decode (f : FFmt) (x : Nat) : FV :=
  let s := (x >>> (f.eb + f.mb)) % 2 == 1
  let ex := (x >>> f.mb) % 2 ^ f.eb
  let m := x % 2 ^ f.mb
  if f.sp = .ieee ∧ ex = 2 ^ f.eb - 1 then (if m = 0 then .inf s else .nan)
  else if f.sp = .fn ∧ ex = 2 ^ f.eb - 1 ∧ m = 2 ^ f.mb - 1 then .nan
  else if ex = 0 then .fin s m (1 - f.bias - f.mb)
  else .fin s (2 ^ f.mb + m) ((ex : Int) - f.bias - f.mb)

/-- The code of the largest finite magnitude. -/
def FFmt.maxMag (f : FFmt) : Nat :=
  match f.sp with
  | .ieee => (2 ^ f.eb - 1) * 2 ^ f.mb - 1
  | .fn => 2 ^ (f.eb + f.mb) - 2
  | .none => 2 ^ (f.eb + f.mb) - 1

/-- The sign bit of a format, placed. -/
def FFmt.signBit (f : FFmt) (neg : Bool) : Nat := if neg then 2 ^ (f.eb + f.mb) else 0

/-- The magnitude code of infinity of an IEEE format. -/
def FFmt.infMag (f : FFmt) : Nat := (2 ^ f.eb - 1) * 2 ^ f.mb

/-- The exponent of the spacing of a format's grid at a nonzero magnitude m × 2^e (R62). -/
def FFmt.grid (f : FFmt) (m : Nat) (e : Int) : Int := max ((Nat.log2 m : Int) + e - f.mb) (1 - f.bias - f.mb)

/-- m × 2^e as a multiple of 2^g, rounded toward zero: the quotient and what was discarded in units of 2^e (0 when e ≥ g). -/
def truncTo (m : Nat) (e g : Int) : Nat × Nat :=
  if g ≤ e then (m <<< (e - g).toNat, 0) else (m >>> (g - e).toNat, m % 2 ^ (g - e).toNat)

/-- m × 2^e rounded to a multiple of 2^g, to nearest with ties to even (R61). -/
def rneTo (m : Nat) (e g : Int) : Nat :=
  let (q, r) := truncTo m e g
  if g ≤ e then q
  else
    let half := 2 ^ ((g - e).toNat - 1)
    if r > half ∨ (r = half ∧ q % 2 = 1) then q + 1 else q

/-- The magnitude code of q × 2^g, where 2^g is the grid spacing: it may lie beyond the largest finite code. -/
def FFmt.code (f : FFmt) (q : Nat) (g : Int) : Nat :=
  if q < 2 ^ f.mb then q else (g + f.bias + f.mb).toNat * 2 ^ f.mb + (q - 2 ^ f.mb)

/-- The magnitude code of m × 2^e rounded to nearest even, possibly beyond the largest finite code. -/
def FFmt.rneMag (f : FFmt) (m : Nat) (e : Int) : Nat :=
  if m = 0 then 0 else let g := f.grid m e; f.code (rneTo m e g) g

/-- The magnitude code of m × 2^e rounded toward zero. -/
def FFmt.rtzMag (f : FFmt) (m : Nat) (e : Int) : Nat :=
  if m = 0 then 0 else let g := f.grid m e; f.code (truncTo m e g).1 g

/-- The canonical NaN of an IEEE format: 0x7FC0_0000, 0x7FC0, 0x7E00 and 0x7E of R65. -/
def FFmt.qnan (f : FFmt) : Nat := f.infMag + 2 ^ (f.mb - 1)

/-- A value rounded to an IEEE format, to nearest even, an overflow giving an infinity (R68, R153). -/
def FFmt.round (f : FFmt) : FV → Nat
  | .nan => f.qnan
  | .inf s => f.signBit s + f.infMag
  | .fin s m e => f.signBit s + min (f.rneMag m e) f.infMag

/-- Whether rounding a finite value to an IEEE format overflows. -/
def FFmt.overflows (f : FFmt) : FV → Bool
  | .fin _ m e => decide (f.maxMag < f.rneMag m e)
  | _ => false

/-- Exact product (R57: 0 × ∞ is NaN). -/
def FV.mul : FV → FV → FV
  | .nan, _ => .nan
  | _, .nan => .nan
  | .inf s, .inf t => .inf (s != t)
  | .inf s, .fin t m _ => if m = 0 then .nan else .inf (s != t)
  | .fin s m _, .inf t => if m = 0 then .nan else .inf (s != t)
  | .fin s m e, .fin t n k => .fin (s != t) (m * n) (e + k)

/-- ± m × 2^e in units of 2^g, for g ≤ e. -/
def fixInt (neg : Bool) (m : Nat) (e g : Int) : Int :=
  let v : Int := (m <<< (e - g).toNat : Nat)
  if neg then -v else v

/-- Exact sum; a zero sum is −0 only when both terms are −0 (IEEE 754 for round to nearest). -/
def FV.add : FV → FV → FV
  | .nan, _ => .nan
  | _, .nan => .nan
  | .inf s, .inf t => if s = t then .inf s else .nan
  | .inf s, _ => .inf s
  | _, .inf t => .inf t
  | .fin s m e, .fin t n k =>
    let g := min e k
    let v := fixInt s m e g + fixInt t n k g
    if v = 0 then .fin (s && t && decide (m = 0) && decide (n = 0)) 0 g
    else .fin (decide (v < 0)) v.natAbs g

/-- Sign change. -/
def FV.neg : FV → FV
  | .nan => .nan
  | .inf s => .inf (!s)
  | .fin s m e => .fin (!s) m e

/-- Magnitude. -/
def FV.abs : FV → FV
  | .nan => .nan
  | .inf _ => .inf false
  | .fin _ m e => .fin false m e

def FV.isNan : FV → Bool
  | .nan => true
  | _ => false

def FV.isInf : FV → Bool
  | .inf _ => true
  | _ => false

def FV.isFin : FV → Bool
  | .fin _ _ _ => true
  | _ => false

/-- The sign as written (true for −0). -/
def FV.sign : FV → Bool
  | .nan => false
  | .inf s => s
  | .fin s _ _ => s

/-- Order of numbers, −0 equal to +0; false when either is NaN. -/
def FV.lt : FV → FV → Bool
  | .nan, _ => false
  | _, .nan => false
  | .inf s, .inf t => s && !t
  | .inf s, .fin _ _ _ => s
  | .fin _ _ _, .inf t => !t
  | .fin s m e, .fin t n k =>
    let g := min e k
    decide (fixInt s m e g < fixInt t n k g)

/-- Equality of numbers, −0 equal to +0; false when either is NaN. -/
def FV.eqv : FV → FV → Bool
  | .nan, _ => false
  | _, .nan => false
  | a, b => !(a.lt b) && !(b.lt a)

/-- R151: minimum with −0 below +0, NaN if either operand is NaN. -/
def FV.minv (a b : FV) : FV :=
  if a.isNan || b.isNan then .nan
  else if a.lt b then a else if b.lt a then b else if a.sign then a else b

/-- R151: maximum with −0 below +0, NaN if either operand is NaN. -/
def FV.maxv (a b : FV) : FV :=
  if a.isNan || b.isNan then .nan
  else if a.lt b then b else if b.lt a then a else if a.sign then b else a

/-- An integer as a value. -/
def FV.ofInt (i : Int) : FV := .fin (decide (i < 0)) i.natAbs 0

/-- The value of FP32 bits. -/
def f32 (x : W32) : FV := fF32.decode x.toNat
/-- The value of FP16 bits. -/
def f16 (x : BitVec 16) : FV := fF16.decode x.toNat
/-- The value of BF16 bits. -/
def bf16 (x : BitVec 16) : FV := fBf16.decode x.toNat
/-- FP32 bits of a value, to nearest even. -/
def toF32 (v : FV) : W32 := BitVec.ofNat 32 (fF32.round v)
/-- FP16 bits of a value, to nearest even. -/
def toF16 (v : FV) : BitVec 16 := BitVec.ofNat 16 (fF16.round v)
/-- BF16 bits of a value that was computed in FP32, each rounding to nearest even (R68). -/
def toBf16 (v : FV) : BitVec 16 := BitVec.ofNat 16 (fBf16.round (f32 (toF32 v)))

/-- FP32 addition with one rounding. -/
def f32Add (a b : W32) : W32 := toF32 ((f32 a).add (f32 b))
/-- FP32 subtraction with one rounding. -/
def f32Sub (a b : W32) : W32 := toF32 ((f32 a).add (f32 b).neg)
/-- FP32 multiplication with one rounding. -/
def f32Mul (a b : W32) : W32 := toF32 ((f32 a).mul (f32 b))
/-- FP32 fused multiply-add a × b + c, with one rounding (R68). -/
def f32Fma (a b c : FV) : W32 := toF32 ((a.mul b).add c)

/-- A finite value rounded down to an integer. -/
def FV.floor : FV → Option Int
  | .fin s m e =>
    if 0 ≤ e then some (fixInt s m e 0)
    else
      let d := 2 ^ (-e).toNat
      some ((if s then -(m : Int) else (m : Int)) / (d : Int))
  | _ => none

/-- A value rounded to an integer, ties to even, and saturated to [lo, hi]; NaN gives 0 (R153). -/
def FV.toIntSat (v : FV) (lo hi : Int) : Int :=
  match v with
  | .nan => 0
  | .inf s => if s then lo else hi
  | .fin s m e =>
    let q : Int := rneTo m e 0
    let i := if s then -q else q
    if i < lo then lo else if hi < i then hi else i

/-- Comparison of a finite value with the rational num / den, for den > 0: value < num / den. -/
def FV.ltRat (v : FV) (num : Int) (den : Nat) : Bool :=
  match v with
  | .nan => false
  | .inf s => s
  | .fin s m e =>
    let g := min e 0
    decide (fixInt s m e g * den < num * (2 ^ (-g).toNat : Nat))

/-- Value > num / den. -/
def FV.gtRat (v : FV) (num : Int) (den : Nat) : Bool := v.neg.ltRat (-num) den

/-- A fixed-point number of `expFrac` fraction bits approximates the exponential to far below an ulp of FP32. -/
def expFrac : Nat := 320

/-- e^y for 0 ≤ y < 1 in `expFrac`-bit fixed point, by `n` terms of the series: the term and the sum are carried. -/
def expSeries (y : Nat) : Nat → Nat → Nat → Nat → Nat
  | 0, _, _, acc => acc
  | n + 1, k, term, acc =>
    let t := (term * y / 2 ^ expFrac) / k
    expSeries y n (k + 1) t (acc + t)

/-- `n` squarings in fixed point. -/
def expSquare : Nat → Nat → Nat
  | 0, v => v
  | n + 1, v => expSquare n (v * v / 2 ^ expFrac)

/-- e^|x| in `expFrac`-bit fixed point, for |x| < 128: the argument over 2^8, then eight squarings. -/
def expMag (m : Nat) (e : Int) : Nat :=
  let y := (m * 2 ^ (expFrac + e - 8).toNat)
  expSquare 8 (expSeries y 48 1 (2 ^ expFrac) (2 ^ expFrac))

/-- e^x for a finite x of magnitude below 128, as a value close enough to the exact one to judge an ulp of FP32. -/
def expApprox : FV → FV
  | .fin s m e =>
    let p := expMag m e
    if s then .fin false (2 ^ (2 * expFrac) / p) (-expFrac) else .fin false p (-expFrac)
  | v => v

/-- |v − w| ≤ n ulp, one ulp being the spacing of FP32 at w. -/
def withinUlp (n : Nat) (v w : FV) : Bool :=
  match v, w with
  | .fin _ _ _, .fin _ m e =>
    let d := (v.add w.neg).abs
    let g := if m = 0 then (-149 : Int) else fF32.grid m e
    !((FV.fin false n g).lt d)
  | _, _ => false

/-- R69: exp within 2 ulp in its range, a correctly rounded result below it and +∞ above it. -/
def expF32 (x : W32) : W32 :=
  match f32 x with
  | .nan => 0x7FC00000#32
  | .inf true => 0#32
  | .inf false => 0x7F800000#32
  | v =>
    if v.gtRat 887 10 then 0x7F800000#32
    else if v.ltRat (-1280) 10 then 0#32
    else
      let a := expApprox v
      if v.ltRat (-873) 10 then toF32 a
      else if withinUlp 2 (f32 (Config.expCand x)) a then Config.expCand x else toF32 a

/-- 1 / v for a finite nonzero v, to 2^-200 of relative error. -/
def recipApprox : FV → FV
  | .fin s m e =>
    let k := Nat.log2 m + 200
    .fin s (2 ^ k / m) (-(k : Int) - e)
  | v => v

/-- R69: recip within 1 ulp, with its special cases. -/
def recipF32 (x : W32) : W32 :=
  match f32 x with
  | .nan => 0x7FC00000#32
  | .inf s => if s then 0x80000000#32 else 0#32
  | .fin s m e =>
    if m = 0 then (if s then 0xFF800000#32 else 0x7F800000#32)
    else
      let a := recipApprox (.fin s m e)
      if fF32.overflows a then toF32 a
      else if withinUlp 1 (f32 (Config.recipCand x)) a then Config.recipCand x else toF32 a

end Sys2Proof.Machine
end

