-- ==== Sys2Proof/Machine/State.lean ====
section
/-! DEFINITION. The machine state: every piece of state the spec gives the part, as plain data, and the state after reset. -/

namespace Sys2Proof.Machine

/-- Why the machine stops with a fault. No command of this model ends so: each has the effect the spec gives it. -/
inductive Fault where
  /-- A command meets hardware that the part does not have. Raised by nobody in this model; safe. -/
  | absentUnit
  deriving DecidableEq, Repr

/-- Why a command is refused. -/
inductive Refusal where
  /-- The command with this mnemonic has no meaning in the model. Raised by its arm of `exec`; safe: nothing is proved of it. -/
  | notModelled (mnemonic : String)
  deriving DecidableEq, Repr

/-- The state of one ECC granule: a 64-bit word on chip (R40), a 64-byte granule of DRAM (R200). -/
inductive Ecc where
  /-- No error. -/
  | clean
  /-- A single-bit error that no read has met. -/
  | single
  /-- A single-bit error that a read has corrected and counted, its write-back outstanding (R40). -/
  | corrected
  /-- A double-bit error that no read has met. -/
  | double
  /-- Marked uncorrectable, or poisoned (R40, R202). -/
  | marked
  deriving DecidableEq, Repr

/-- Privilege levels (R121). -/
inductive Level where
  | user | supervisor | monitor
  deriving DecidableEq, Repr

/-- An active hardware loop: its counter, and the offsets of the first and the last bundle or instruction of its body (R180). -/
structure Loop where
  n : Fin 4
  first : W32
  last : W32
  deriving DecidableEq, Repr

/-- The operations of a path unit (R355). -/
inductive PathKind where
  | plan | commit | upd
  deriving DecidableEq, Repr

/-- What holds an engine's issue after an instruction of it has issued. -/
inductive Hold where
  /-- Nothing. -/
  | none
  /-- A FENCE (R173, R207), with the scan it waits for. -/
  | fence (scope : Scope) (kind : Fin 4) (scan : Option Nat)
  /-- LOFT.INV and its scan (R173). -/
  | loftInv (scan : Nat)
  /-- A TPUT that releases at its scope (R175). -/
  | put (q : BitVec 15) (scope : Scope) (val : W32)
  /-- A TPUT that waits at a queue of its own die (R74). -/
  | putWait (q : BitVec 15)
  /-- A TPUT whose crate is not acknowledged (R175). -/
  | putAck (crate : Nat)
  /-- A TGET on a queue of its own cell (R176). -/
  | get (q : Fin 512) (d : Reg) (sc : Scope)
  /-- An SWAIT: the slot, the expected fills and the destination (R253). -/
  | swait (slot : Fin 128) (fills : BitVec 4) (d : Reg)
  /-- An SREL acting first as FENCE REL at CELL scope (R254). -/
  | srel (slot : Fin 128)
  /-- A path-unit submission acting first as FENCE REL at DIE scope (R356), with its program counter and its word. -/
  | path (k : PathKind) (desc : W32) (d : Reg) (pc : Nat) (word : W32)
  /-- ATT.SYNC (R290). -/
  | attSync
  /-- A PATH.ABORT of a sliver core whose result is pending in `d` (R117, R355). -/
  | abort (d : Reg)
  /-- A load of a host core from another die's DRAM, held for the data of its crate: the register, the bytes, whether they are zero-extended,
  and the address that the program gave (R147, R445). -/
  | hostRead (crate : Nat) (d : Reg) (n : Fin 9) (u : Bool) (ea : W64)
  deriving DecidableEq, Repr

/-- A register of a sequencer whose writes take effect at a later cycle (R113). -/
inductive SReg where
  | s (r : Reg)
  | a (r : Fin 16)
  /-- Bits [39:32] of a[r], which AHI alone writes (R148). -/
  | aHi (r : Fin 16)
  | c (r : Fin 4)
  deriving DecidableEq, Repr

/-- A fixed-latency result of a sequencer: the cycle at whose end it is written, its order among writes of one cycle (R105). -/
structure PendW where
  due : Nat
  key : Nat
  reg : SReg
  val : BitVec 40
  deriving DecidableEq, Repr

/-- A variable-latency result of a sequencer, with its value once the unit has it (R113, R115). -/
structure PendV where
  reg : Reg
  val : Option W32
  /-- The order key of the instruction that gives it, among writes that take effect in one cycle (R105). -/
  key : Nat
  /-- An LDS whose read of the local store is not yet performed: the offset, and the program counter and word of the instruction (R205). -/
  read : Option (Nat × Nat × W32)
  /-- The result is being written in the current cycle; the hold ends with that cycle (R115). -/
  wr : Bool
  deriving DecidableEq, Repr

/-- The run state of a sequencer (R138). -/
inductive SeqRun where
  | idle | running | halted | excHalted
  deriving DecidableEq, Repr

/-- The run state of a sliver core. -/
inductive SlvRun where
  | running | halted | excHalted
  deriving DecidableEq, Repr

/-- The debug state of a cell engine (R649): running, halted, or halted with one issue to come. -/
inductive Dbg where
  | run | halted | step
  deriving DecidableEq, Repr

/-- A cell sequencer (R109, R138). -/
structure Seq where
  s : Vector W32 32
  a : Vector (BitVec 40) 16
  c : Vector (BitVec 24) 4
  /-- The byte offset of the next bundle; a value outside the buffer stands until its fetch raises FETCH_FAULT (R91, R179). -/
  pc : W32
  st : W32
  /-- ST bits of statuses that complete beside the engine's issue, and the ARR cycle in which the last of them completed (R133). -/
  stNew : W32
  stAt : Nat
  loops : List Loop
  hold : Hold
  /-- Operations of the same bundle that were issued after the one that holds, in their order (R174). -/
  later : List Hold
  run : SeqRun
  /-- CELL_RUN.STOP. -/
  stop : BitVec 2
  pendW : List PendW
  pendV : List PendV
  dbg : Dbg
  /-- Breakpoint comparators are ignored for the next issue (R650). -/
  skip : Bool
  /-- The ARR cycles for which its next issue has been held (R673). -/
  waited : Nat
  deriving DecidableEq, Repr

/-- A sliver core (R109). -/
structure Sliver where
  s : Vector W32 32
  v : Vector W256 32
  p : Vector W32 8
  c : Vector (BitVec 24) 4
  pc : W32
  st : W32
  /-- As in a sequencer. -/
  stNew : W32
  stAt : Nat
  loops : List Loop
  hold : Hold
  run : SlvRun
  /-- Broadcast mode (R108). -/
  bcast : Bool
  /-- The broadcast queue, oldest entry first (R107). -/
  bq : List W32
  dbg : Dbg
  skip : Bool
  /-- The ARR cycle from which it waits, and those that it waited before for its next issue (R673). -/
  waitFrom : Option Nat
  waited : Nat
  deriving DecidableEq, Repr

/-- A host core (R109, R121 to R126). -/
structure HostCore where
  h : Vector W64 32
  pc : BitVec 48
  st : W32
  level : Level
  /-- System registers 0x010 to 0x016 of R126, in that order. -/
  sup : Vector W64 7
  /-- System registers 0x020 to 0x026. -/
  mon : Vector W64 7
  /-- Interrupts raised and not yet taken: number and whether routed to Monitor (R124). -/
  irq : List (BitVec 8 × Bool)
  /-- HALT executed: the core waits for an interrupt (R177). -/
  waiting : Bool
  hold : Hold
  deriving DecidableEq, Repr

/-- An accumulator tile (R45, R109). Elements without an entry read 0 when `undef` is none, and are undefined otherwise (R112, R120). -/
structure Tile where
  undef : Option Nat
  isInt : Bool
  /-- The elements whose parity is wrong (R41). -/
  par : List Nat
  elems : List (Nat × W32)
  deriving DecidableEq, Repr

/-- A weight-buffer half (R43, R112, R160, R161). -/
structure Half where
  loaded : Bool
  /-- The contents are undefined, drawn as the given free value (R120). -/
  undef : Option Nat
  cls : Fin 4
  sp : Bool
  wfmt : BitVec 4
  vals : List Byte
  idxs : List Byte
  scales : List Byte
  /-- The 32-bit words whose parity is wrong (R41): word `i` of the values is `i`, of the indices 2048 + `i`, of the scales 4096 + `i`. -/
  par : List Nat
  deriving DecidableEq, Repr

/-- Who puts a token: an engine by TPUT, the move unit for a move of an engine, a TPUT crate, or another unit (R75). -/
inductive Putter where
  | eng (e : Engine)
  | mv (e : Engine)
  | crate (n : Nat)
  | unit
  deriving DecidableEq, Repr

/-- A put that waits at a full queue or for its release. -/
structure Put where
  who : Putter
  val : W32
  /-- The ARR cycle of the queue's cell in which the put arrived (R75). -/
  at_ : Nat
  deriving DecidableEq, Repr

/-- A token queue: its entries, oldest first, and the puts that wait (R73 to R75). -/
structure Queue where
  entries : List W32
  waiting : List Put
  /-- The ARR cycles of the cell in which the queue last accepted a put and performed a get (R75). -/
  lastPut : Option Nat
  lastGet : Option Nat
  deriving DecidableEq, Repr

/-- The spaces of a move descriptor (R167). -/
inductive Space where
  | ls | shelf | va
  deriving DecidableEq, Repr

/-- A translated page: its virtual and physical bases, its size, its Loft group and its leaf (R189, R195, R215). -/
structure Page where
  va : Nat
  pa : Nat
  size : Nat
  grp : Fin 16
  leaf : BitVec 64
  deriving DecidableEq, Repr

/-- Part of a line of a move, between page boundaries: line, package addresses of source and destination, bytes, Loft group of the source. -/
structure Piece where
  line : Nat
  src : Nat
  dst : Nat
  n : Nat
  grp : Fin 16
  deriving DecidableEq, Repr

/-- One end of a move: its space, the address of line 0 and the stride. -/
structure MoveEnd where
  sp : Nat
  base : Nat
  str : Int
  deriving DecidableEq, Repr

/-- The lines of a move whose pages are not yet translated: both ends, the bytes of a line, the next line and the number of lines, with the
program counter and the word of the MOVE (R169, R195). -/
structure MoveRest where
  src : MoveEnd
  dst : MoveEnd
  len : Nat
  next : Nat
  total : Nat
  pc : Nat
  word : W32
  deriving DecidableEq, Repr

/-- A move between issue and completion (R166 to R170), with the progress of its lines and claims (R250, R708). -/
structure Move where
  id : Nat
  owner : Engine
  scope : Scope
  tok : Option (BitVec 15 × BitVec 16)
  loft : Bool
  count : Nat
  cons : BitVec 2
  pieces : List Piece
  rest : Option MoveRest
  /-- The consumer cell of a move into a tracked Shelf, and the slot of each line. -/
  shelf : Option (CellId × List (Fin 128))
  /-- Claims that have arrived at their slots, and the lines whose claim is granted. -/
  arrived : Nat
  granted : List Nat
  /-- The number of lines whose remote reads have been sent, and the lines performed in their slots (R251). -/
  requested : Nat
  filled : List Nat
  /-- Source and destination overlap (R168). -/
  overlap : Bool
  /-- The pages it has translated (R195, R198). -/
  pages : List Page
  /-- A crate of the move was declared lost (R454). -/
  lost : Bool
  /-- A draining invalidation waits for the move (R198). -/
  drains : Bool
  deriving DecidableEq, Repr

/-- A claim waiting at a Shelf slot (R250). -/
structure Claim where
  cell : CellId
  id : Nat
  line : Nat
  /-- The ARR cycle of the slot's cell in which it arrived (R75, R250). -/
  at_ : Nat
  deriving DecidableEq, Repr

/-- The states of a Shelf slot (R250). -/
inductive SlotSt where
  | free | filling | ready
  deriving DecidableEq, Repr

/-- A Shelf slot (R250, R267). -/
structure Slot where
  st : SlotSt
  fills : BitVec 4
  count : BitVec 2
  waiting : List Claim
  /-- The ARR cycles of its cell in which it was last taken, last became FREE, and was last released (R250, R255). -/
  takenAt : Option Nat
  freeAt : Option Nat
  relAt : Option Nat
  deriving DecidableEq, Repr

/-- An ATT.KV between issue and completion, with the translations it holds (R269, R277). -/
structure KvOp where
  d : Reg
  store : Bool
  transpose : Bool
  ew : Nat
  rb : Nat
  /-- The virtual address of the first row. -/
  va : Nat
  count : Nat
  ls : Nat
  lss : Nat
  pages : List Page
  dropped : Option (Nat × W32)
  seqn : BitVec 8
  drains : Bool
  deriving DecidableEq, Repr

/-- An ATT.NORM or ATT.MERGE whose status is not yet written (R295, R298). -/
structure NormOp where
  d : Reg
  detail : BitVec 16
  merge : Bool
  /-- The bytes it names as its destination, and a breach of R119 that leaves its results undefined. -/
  dst : List (Nat × Nat)
  spoilt : Bool
  deriving DecidableEq, Repr

/-- An exception of a cell engine, as R134 to R137 record it. -/
structure ExcRec where
  engine : BitVec 7
  slot : BitVec 2
  level : Level
  cause : BitVec 8
  pc : BitVec 16
  word : W32
  addr : Option Nat
  /-- The ARR cycle of the fault (R129). -/
  cycle : Nat
  deriving DecidableEq, Repr

/-- What a cell has issued and held in its current ARR cycle (R666). -/
structure PerfEv where
  issued : Nat
  held : Nat
  heldVar : Nat
  heldArr : Nat
  heldBc : Nat
  /-- Issues of the sliver cores in the current ARR/2 cycle. -/
  slv : Nat
  /-- A CLEAR was captured (R667). -/
  cleared : Bool
  deriving DecidableEq, Repr

/-- What a cell's units have done and its counters have not yet passed, at the largest count of each event in a cycle (R666): 64-byte units of
moves and of the Larder engine, Loft hits and misses, and micro-TLB misses. -/
structure PerfDue where
  moves : Nat
  larder : Nat
  hits : Nat
  misses : Nat
  tlb : Nat
  deriving DecidableEq, Repr

/-- A tag in flight (R669, R673): word 0 of its record without the code, PERF_CYCLE at the issue, and the ARR cycles held before it. -/
structure Tag where
  word : W32
  issue : Nat
  held : Nat
  deriving DecidableEq, Repr

/-- The counter block of a cell (R665 to R673). PERF_CYCLE is the cell's cycle count. -/
structure Perf where
  cnt : Vector (BitVec 48) 8
  snap : Vector (BitVec 48) 8
  /-- The count of each counter's event in the cycle before, for EDGE mode. -/
  prev : Vector Nat 8
  /-- How much of a unit that the cells of its die share each counter has counted (R666). -/
  seen : Vector Nat 8
  ev : PerfEv
  due : PerfDue
  /-- The cycle in which EN last became 1, and the end of the last window (R668). -/
  enAt : Option Nat
  closed : Nat
  winSeq : W32
  /-- HI words and PERF_WIN_SEQ as latched by a read of a LO word (R668). -/
  seqLatch : W32
  hiCycle : W32
  hiCnt : Vector W32 8
  hiSnap : Vector W32 8
  /-- The sampling LFSR, and the tag in flight (R669). -/
  lfsr : W32
  tagged : Option Tag
  deriving DecidableEq, Repr

/-- A drain between issue and its last row: the tile it reads, and the rows and block scales that it writes (R163, R164). -/
structure DrainRun where
  tile : Fin 4
  dst : Nat
  stride : Nat
  rowBytes : Nat
  scales : Option Nat
  deriving DecidableEq, Repr

/-- A cell (R36). -/
structure Cell where
  level : Level
  seq : Seq
  slv : Vector Sliver 64
  tiles : Vector Tile 4
  halves : Vector Half 2
  /-- The half that the weight loader fills. -/
  loading : Option (Fin 2)
  /-- The halves and tiles of the passes in flight, oldest first. -/
  passes : List (Fin 2 × Fin 4)
  /-- The drain that runs. -/
  draining : Option DrainRun
  /-- The cycles at which the grid, the weight loader, the drain unit and the attention unit end the occupancy of their last
  instruction (R119, R161 to R165, R295, R298). -/
  gridFree : Nat
  loadFree : Nat
  drainFree : Nat
  attFree : Nat
  lfsr : Vector W32 64
  queues : List (Nat × Queue)
  moves : List Move
  moveNext : Nat
  slots : Vector Slot 128
  kv : List KvOp
  /-- ATT.KV that the register form of ATT.SYNC still covers (R290). -/
  syncCover : Option Nat
  norm : List NormOp
  /-- Vector words issued for broadcast and not yet delivered (R107). -/
  bcastOut : List W32
  excQ : List ExcRec
  /-- ARR cycles since reset. -/
  cycle : Nat
  perf : Perf
  /-- The inputs that the checker of a pair receives late are not kept: the cell's index of its pair is its own (R533). -/
  pairStopped : Bool
  deriving DecidableEq, Repr

/-- A line of a Loft: its 128-byte line number, its group and its bytes (R213, R215). -/
structure LoftLine where
  line : Nat
  group : Fin 16
  data : List Byte
  /-- The 64-bit words of the line with an error, by number (R219); a marked word holds data that a write brought marked (R168, R214). -/
  ecc : List (Nat × Ecc)
  deriving DecidableEq, Repr

/-- A fill on its way: its number, the line and its group, the bytes read and their mark once they are back, whether a later scan covers it
(R218), and the move that waits for it with the part of the line that it wants: offset, bytes and destination. -/
structure LoftFill where
  num : Nat
  line : Nat
  group : Fin 16
  data : Option (List Byte × Bool)
  dead : Bool
  cell : CellId
  move : Nat
  off : Nat
  n : Nat
  dst : Nat
  deriving DecidableEq, Repr

/-- Who makes a direct store: an engine, a PDMA channel in its own die's memory, or another unit of the hub. -/
inductive StoreBy where
  | eng (e : Engine)
  | pdma (e : Fin 2) (ch : Fin 16)
  | unit
  deriving DecidableEq, Repr

/-- A direct store between its issue and the moment when it is performed (R205, R206): its issuer, the address of its first byte, its bytes
(none: a byte that a later write has overtaken), the parts of it that carry a mark (R168), and whether it is performed. A performed store stays while
its issuer must still read its bytes there: an earlier store of the issuer to the same bytes was not performed before it. -/
structure PStore where
  who : StoreBy
  pa : Nat
  data : List (Option Byte)
  parts : List (Nat × Nat)
  done : Bool
  /-- A draining invalidation waits for it (R198). -/
  drains : Bool
  deriving DecidableEq, Repr

/-- A Loft with its invalidation scans, the running one first (R213 to R218). -/
structure Loft where
  lines : List LoftLine
  fills : List LoftFill
  scans : List (Nat × W32)
  scanNext : Nat
  fillNext : Nat
  deriving DecidableEq, Repr

/-- An entry of a translation cache: the level, the virtual address bits above that level's index, and the entry read (R196). -/
structure TlbEntry where
  level : Nat
  tag : Nat
  pte : BitVec 64
  deriving DecidableEq, Repr

/-- The translation caches of an MMU and the invalidation that runs (R196, R228). -/
structure Tlb where
  entries : List TlbEntry
  /-- Entries that walks have read from memory since reset. -/
  reads : Nat
  /-- The invalidation that runs: DRAIN, and the number of the next crate when it started. -/
  inv : Option (Bool × Nat)
  deriving DecidableEq, Repr

/-- An operation submitted to a path unit (R356, R361, R362). -/
structure PathOp where
  ticket : Option (BitVec 16)
  kind : PathKind
  cell : Fin 16
  level : Level
  desc : Nat
  cand : Nat
  res : Nat
  ncand : Nat
  nrank : Nat
  budget : Nat
  basegen : BitVec 16
  cq : BitVec 15
  batch : Nat
  clear : Bool
  newgen : BitVec 16
  deriving DecidableEq, Repr

/-- A candidate's record (R363), and whether at least one sample resolved free (R365). -/
structure CandRec where
  outcome : BitVec 2
  poison : Bool
  newer : Bool
  range : Bool
  idx : Nat
  arc : W32
  key : BitVec 64
  part : Bool
  deriving DecidableEq, Repr

/-- The operation a path unit runs, with the results so far (R357, R363). -/
structure PathRun where
  op : PathOp
  next : Nat
  recs : List CandRec
  rank : List Nat
  startGen : BitVec 16
  probes : Nat
  pages : List Page
  /-- The final code once the operation has ended. -/
  fin : Option (BitVec 8)
  drains : Bool
  expired : Bool
  late : Bool
  deriving DecidableEq, Repr

/-- A path unit (R341, R355 to R358, R369). -/
structure PathUnit where
  gen : BitVec 16
  ticketNext : BitVec 16
  queue : List PathOp
  run : Option PathRun
  /-- An update that runs at a candidate boundary of a plan (R358). -/
  inter : Option PathRun
  /-- Operations aborted while queued, whose completion is outstanding (R370). -/
  ended : List PathRun
  /-- Aborts sent and not yet captured: engine, destination and ticket (R355). -/
  aborts : List (Engine × Reg × BitVec 16)
  /-- Probes started since reset (R666). -/
  probes : Nat
  deriving DecidableEq, Repr

/-- The kinds of crate (R445). -/
inductive CrateKind where
  | wr | rd | rdata | tput | ack
  deriving DecidableEq, Repr

/-- Who made a crate. -/
inductive CrateBy where
  | move (c : CellId) (id : Nat)
  | moveTok (e : Engine)
  | eng (e : Engine)
  | loft (d : Fin 4) (fill : Nat)
  /-- A burst of an armed channel, by its number (R497). -/
  | pdma (e : Fin 2) (ch : Fin 16) (burst : Nat)
  /-- A burst of a channel that has ended, and the request line it was bound to (R503). -/
  | pdmaOld (e : Fin 2) (ch : Fin 16) (line : Fin 64)
  /-- A direct load or store of a host core. -/
  | host (h : Fin 8)
  | unit
  deriving DecidableEq, Repr

/-- A crate in flight (R445): its number, issuing die, the die it is at, and the dies of its route still to visit, the destination
last. Dies are numbered by strap (R2). -/
structure Crate where
  num : Nat
  /-- What it is now, and the request that it answers or is. -/
  kind : CrateKind
  req : CrateKind
  who : CrateBy
  src : Fin 7
  cur : Fin 7
  route : List (Fin 7)
  /-- The route of the request, for its answer (R449). -/
  back : List (Fin 7)
  pa : Nat
  len : Nat
  data : List Byte
  mark : Bool
  /-- Where the bytes of an RDATA go: a byte address of the issuer, in the issuer's package map. -/
  dest : Nat
  q : BitVec 15
  val : W32
  scope : Scope
  /-- TQ_TIMEOUT in an ACK (R450). -/
  timedOut : Bool
  /-- The module of its issuing die on which it is or was sent (R448, R452, R453). -/
  modl : Option (Fin 10)
  /-- Every die of its route, from the issuing one to its destination (R454). -/
  path : List (Fin 7)
  /-- The bytes of a store of a host core that a later one of that core has overtaken: address and length (R205). -/
  passed : List (Nat × Nat)
  deriving DecidableEq, Repr

/-! #### The islands, the links and the hub -/

/-- Hub interrupts that the spec names (R403, R508, R515, R551). -/
inductive Irq where
  | pdma | handover | safe | aco
  deriving DecidableEq, Repr

/-- What the part sends to the outside: frames of the islands and of the hub, lines of a monitor. -/
inductive OutMsg where
  | islCan (i : Fin 2) (port : Fin 2) (data : List Byte)
  | eth (m : Fin 6) (data : List Byte)
  | can (i : Fin 4) (data : List Byte)
  | line (m : MonId) (data : List Byte)
  /-- Bytes that a read hands to its reader outside the part, or at a window. -/
  | read (data : List Byte)
  /-- A memory request to the device behind PCIe port `i`, a configuration request to a function's register, and the refusal of its own request (R689). -/
  | pcie (i : Fin 2) (addr : Nat) (data : List Byte)
  | pcieCfg (i : Fin 2) (func reg : Nat) (data : List Byte)
  | unsupported (i : Fin 2)
  /-- A bulk IN transfer. -/
  | usb (data : List Byte)
  deriving DecidableEq, Repr

/-- An active trigger: its identity, instance and demanded level (R526). -/
structure Trig where
  id : Nat
  inst : Nat
  level : Nat
  /-- When it was raised, in ns of the island (R659). -/
  since : Nat
  deriving DecidableEq, Repr

/-- The last record of a data ID that an island has checked (R539): counter, timestamp, transmission, and whether the next is exempt. -/
structure OutRec where
  id : Nat
  ctr : Nat
  ts : Nat
  tx : Nat
  exempt : Bool
  deriving DecidableEq, Repr

/-- A safety island (R521 to R531, R539, R540, R547 to R553). -/
structure Island where
  trigs : List Trig
  /-- Triggers cleared in the poll that also raised them: they end with the next poll (R340, R530). -/
  clears : List (Nat × Nat)
  /-- VALID as driven, and kept low until reset after it has fallen (R523). -/
  valid : Bool
  dropped : Bool
  /-- The island pulls FAULT_N low (R550). -/
  pull : Bool
  sl4 : Bool
  /-- The peer as its last good frame gives it, and whether a good frame is fresh (R521 to R523). -/
  peer : Nat
  peerArm : Bool
  fresh : Bool
  frameCtr : W32
  sentFrame : BitVec 64
  /-- Read indices of the mailbox, the ledger and the descriptor ring, and the last HUB_BEAT (R530, R539, R540). -/
  mbRead : W32
  beat : W32
  ledRead : W32
  inRead : W32
  outRecs : List OutRec
  /-- Consecutive good and on-time records by table index, consecutive good descriptors by port, the last counter of a port. -/
  good : List (Nat × Nat)
  onTime : List (Nat × Nat)
  inGood : List (Nat × Nat)
  inPrev : List (Nat × Nat × Bool)
  /-- The last raise of a pair or parity trigger of a die, in ns of the island, and the triggers (ID, die) that have met a JOB_KIND of SL3, with the
  time of the first (R531). -/
  pairAt : List (Nat × Nat)
  pairSeen : List (Nat × Nat × Nat)
  /-- Completions of self-test units: die, unit, time; and the starvations in a row (R547, R548). -/
  tested : List (Nat × Nat × Nat)
  starved : List (Nat × Nat)
  /-- Domains whose clock-stop line the island asserts (R458). -/
  clkStop : List (Fin 18)
  /-- Domains that a reset has touched and one good window must follow, and those of them for which a whole window runs (R488). -/
  clkReset : List (Fin 18)
  clkWin : List (Fin 18)
  time : BitVec 64
  /-- The counter of its status frames (R552). -/
  statusCtr : W32
  /-- Released by its supervisor, so that its ROM or its firmware runs; and with its firmware running (R587, R611, R622). -/
  rel : Bool
  up : Bool
  /-- The hub's BOOT_FUNC_READY as last read (R612), and whether a good frame has ever come (R521, R614). -/
  func : W32
  /-- JOB_CUR_ID as last read (R658). -/
  jobId : W32
  gotFrame : Bool
  /-- The domains judged in the window that runs, and those that a ladder step leaves out of it (R486, R613). -/
  judge : List (Fin 18)
  skipWin : List (Fin 18)
  /-- A JOB_KIND request has been applied (R539, R615). -/
  kindSeen : Bool
  /-- Samples in a row outside the tolerance, by ADC channel (R591), and the last coolant readings, inlet first, none when invalid. -/
  railBad : Vector Nat 8
  /-- The last sample of each rail channel, in 0.1 mV (R591, R696). -/
  rail : Vector Int 8
  coolant : Vector (Option Int) 2
  /-- Flow pulses in the current 100 ms (R603, R608). -/
  pulses : Nat
  /-- SIB's window of 100 ms, by its number, and the pulses of the last whole one (R603). -/
  pulseAt : Nat
  pulsesLast : Nat
  /-- A falling PWROK has been captured, and the reset of its rise waits for a dump (R590). -/
  pwrLow : Bool
  resetDue : Bool
  /-- A sleep-ready frame is owed (R592). -/
  sleep : Bool
  /-- The time of each die's fence (R579). -/
  fenceAt : List (Nat × Nat)
  /-- The last 16 good frames of the peer, newest first, and the level before SL4 (R658, R659). -/
  frames : List (BitVec 64)
  before : Nat
  /-- The island's own SRAM of 2 MiB, by offset, and the words of it with an error (R21). No command reaches it: it is island-internal. -/
  sram : List Host.Cell
  sramEcc : List (Nat × Ecc)
  deriving DecidableEq, Repr

/-- SIA's governor (R595 to R605): node temperatures in 2^-32 of a degree, the last power (0.1 W) and reading of each die with the age of its
report in ms, the estimates since, step commands on their way, power caps in W, and the times in ms that the ladder and the clamp need. -/
structure Therm where
  node : Vector Int 16
  power : Vector Nat 5
  reading : Vector Int 5
  age : Vector Nat 5
  est : Vector (Nat × Nat) 5
  cmd : Vector (Option (Fin 4)) 4
  cap : Vector (Option Nat) 4
  since : Vector Nat 4
  below : Vector Nat 4
  /-- Samples for which both coolant readings must still be valid (R597). -/
  sensorHold : Nat
  outlet : Nat
  window : Nat
  host : Option (Fin 4)
  /-- SIA's samples of the last 1,000 ms for a dump, newest first: the time and the 32 bytes of each (R659). -/
  log : List (Nat × List Byte)
  deriving DecidableEq, Repr

/-- An aging monitor (R697): die, number, the baseline counts, and the last degradations, newest first, as fractions. -/
structure AgeMon where
  die : Nat
  mon : Nat
  base : Nat × Nat
  vals : List (Nat × Nat)
  deriving DecidableEq, Repr

/-- What SIB writes to its flash (R573, R697, R705): buckets, hours, monitors, and the hash of the identity key. -/
structure HealthFlash where
  buckets : List (List (Nat × Nat))
  hours : W32
  ages : List AgeMon
  ident : List Byte
  deriving DecidableEq, Repr

/-- SIB's health record (R571 to R583, R695 to R697): the current bucket first, the last reading of each counter, the monitors, the flash
copy; dies fenced by a failed slice, dies whose readmission has reached its switch, and the frame counter. -/
structure Health where
  buckets : List (List (Nat × Nat))
  last : List (Nat × Nat)
  /-- Parts whose counter was read at its holding value. -/
  held : List Nat
  ages : List AgeMon
  flash : Option HealthFlash
  sliceFenced : List (Fin 4)
  step7 : List (Fin 4)
  /-- Dies that have been reset in the readmission that runs (R581). -/
  resetDone : List (Fin 4)
  ctr : W32
  deriving DecidableEq, Repr

/-- A self-test slice that runs on a die: its unit (R541) and its start in ns. -/
structure SliceRun where
  unit : Fin 19
  logic : Bool
  start : Nat
  deriving DecidableEq, Repr

/-- A die's self-test controller (R541 to R545): slices that run, the next slice of each unit, the last frame mark, and the units that have completed
their sequence since the die's reset (R581). -/
structure DieTest where
  slices : List SliceRun
  pos : List (Nat × Nat)
  mark : Option Nat
  done : List Nat
  deriving DecidableEq, Repr

/-- One end of a module (R437, R438, R451, R453): consecutive bad flits, retraining, the cause on its way from the peer, and the Capability Record
that this end has sent and its peer has not yet received. -/
structure Link where
  bad : Nat
  retrain : Bool
  msg : Option (Fin 8)
  sent : Option (W32 × W32)
  deriving DecidableEq, Repr

/-- Whether a crossing of a die toward a domain is held in the far side's reset, or is stalled (R478, R479, R484). -/
structure Crossing where
  die : Fin 7
  dom : Fin 18
  reset : Bool
  stalled : Bool
  deriving DecidableEq, Repr

/-- The values of an FSYNC output (R310). -/
structure FsCfg where
  en : Bool
  pol : Bool
  period : Nat
  phase : Nat
  width : Nat
  deriving DecidableEq, Repr

/-- An FSYNC output (R310 to R312, R318): the values in force, the next edge, those that a commit at a NOW applies from the first edge due after it,
the end of the pulse, and the last edge with whether a frame has taken it. -/
structure Fsync where
  cur : FsCfg
  next : Nat
  pend : Option FsCfg
  at_ : Nat
  active : Bool
  endAt : Nat
  lastDue : Option Nat
  used : Bool
  deriving DecidableEq, Repr

/-- The time base (R305 to R315). -/
structure TimeBase where
  now : BitVec 64
  frac : W32
  /-- TBS cycles since reset, and those since the last nanosecond of ADJ was absorbed. -/
  up : Nat
  adjCnt : Nat
  adjLeft : W32
  setLo : W32
  nowHi : W32
  fs : Vector Fsync 16
  /-- The last instant whose cutoff was signalled, and the signals on their way to ingest. -/
  lastCut : Option Nat
  cuts : List Nat
  pps : Vector (BitVec 64) 2
  ppsHi : Vector W32 2
  deriving DecidableEq, Repr

/-- A sensor frame from its start to its descriptor (R318 to R322). -/
structure Frame where
  port : Fin 24
  ts : BitVec 64
  flags : Nat
  counter : W32
  k : Int
  edone : Nat
  late : Nat
  /-- Bytes of later frames of the port that have entered its window since this one completed. -/
  after : Nat
  nowLow : W32
  /-- The payload so far, and the bytes of the current unit that wait for a whole 256. -/
  crc : W32
  rest : List Byte
  sweep : W32
  /-- The bytes of its payload so far, and those of its unit that have entered its window, none once some have not; a packet of it had an error. -/
  len : Nat
  sent : Option Nat
  err : Bool
  deriving DecidableEq, Repr

/-- Sensor ingest (R315 to R323). -/
structure Ingest where
  epoch : Nat
  /-- The epoch before the last cutoff was captured. -/
  was : Nat
  open_ : List Frame
  done : List Frame
  counters : Vector W32 24
  /-- Close entries owed: the instant and the ring index after its last descriptor. -/
  closes : List (Nat × Nat)
  /-- The last sweep of each lidar port that was discarded whole (R617). -/
  lidDrop : List (Nat × W32)
  /-- IMU reads in progress: the grid time of each (R313). -/
  imu : Vector (Option Nat) 4
  deriving DecidableEq, Repr

/-- A PDMA channel descriptor (R495). -/
structure ChDesc where
  src : Nat
  slen : Nat
  scount : Nat
  sstr : Int
  dst : Nat
  dlen : Nat
  dcount : Nat
  dstr : Int
  line : Fin 64
  burst : Nat
  pend : Nat
  tok : Bool
  irq : Bool
  cq : BitVec 15
  tval : BitVec 16
  deriving DecidableEq, Repr

/-- The states of a channel (R496, R517): `checking` is an arm captured whose descriptor is not yet read. -/
inductive ChSt where
  | idle | checking | armed | faulted
  deriving DecidableEq, Repr

/-- A PDMA channel (R494 to R504, R517). -/
structure Chan where
  st : ChSt
  cause : Nat
  pend : Nat
  late : Bool
  code : Byte
  left : Nat
  moved : Nat
  job : Bool
  desc : Option ChDesc
  deriving DecidableEq, Repr

/-- A PDMA engine: its channels and the order of service (R498). -/
structure Pdma where
  ch : Vector Chan 16
  order : List (Fin 16)
  deriving DecidableEq, Repr

/-- A handover port's FIFO (R506, R508): entries, the entry of the last POP, and whether a first word of a record awaits its second. -/
structure Handover where
  fifo : List W32
  data : W32
  valid : Bool
  pair : Bool
  deriving DecidableEq, Repr

/-- The hub's peripherals. -/
structure Hub where
  tb : TimeBase
  ing : Ingest
  dma : Vector Pdma 2
  /-- Requests raised on the lines of R493 and not yet captured. -/
  raised : Vector Nat 64
  /-- SOFT requests raised and not yet captured, oldest first: the channel that each names (R494). -/
  soft : List (Fin 2 × Fin 16)
  ho : Vector Handover 4
  /-- Bytes in the record windows, by number (R684). -/
  win : List (Nat × List Byte)
  /-- UNDERFLOW and OVERFLOW of the windows whose controller maps no word for them, by window (R684). -/
  winErr : List (Nat × W32)
  /-- The statistics of the MACs: received frames dropped (R617). -/
  macDrop : Vector Nat 6
  /-- Stamp FIFOs of the MACs (R688). -/
  stamps : Vector (List (BitVec 64)) 6
  /-- Interrupts raised (R403, R508, R515, R551). -/
  irqs : List Irq
  /-- Output checkers write INVALID = 1 since FAULT_N fell (R551). -/
  invalid : Bool
  deriving DecidableEq, Repr

/-- A regulated port (R510): units granted in its window and since reset, the CFG and BUDGET words in force, and its held requests in order: how many
of each number of units (R511). -/
structure RegPort where
  count : Nat
  total : Nat
  cfg : W32
  budget : W32
  owed : List (Nat × Nat)
  deriving DecidableEq, Repr

/-- Why a running job is being stopped (R419, R422, R429). -/
inductive JobStop where
  | switch | abort | fault
  deriving DecidableEq, Repr

/-- The JOB_ block beside its registers (R412 to R429): the running header, the image of a start or switch in progress, the stop in
progress, the images that hub firmware has marked eligible and the job key list of that firmware (R621), and whether the first DRIVE job has
started. -/
structure JobSt where
  /-- The header of the running job; it stays when the job has ended. -/
  cur : Nat
  next : Option Nat
  stop : Option JobStop
  imm : Bool
  eligible : List Nat
  keys : List (List Byte)
  driven : Bool
  /-- The restores of a start that are not yet reported: whether one of them ends EMPTY (R569). -/
  restore : Option Bool
  /-- Hatch owes the answer to a job command, sent when the command ends (R644). -/
  owed : Bool
  deriving DecidableEq, Repr

/-- One-time-programmable memory (R625): key-hash slots and debug slots with their programmed and revoke bits, the blown bits of each
image type's thermometer, and the lifecycle. -/
structure Otp where
  keys : Vector (List Byte) 4
  prog : BitVec 4
  rev : BitVec 4
  dbg : Vector (List Byte) 2
  dprog : BitVec 2
  drev : BitVec 2
  svn : Vector Nat 5
  lc : Lifecycle
  deriving DecidableEq, Repr

/-- Boot state of HD, SIA or SIB beside its registers (R620 to R635): the challenge that lives with the scope asked for, the grants and the
scope in force, the slot that verified the firmware that runs and the security versions of the images that run, by type. -/
structure BootSt where
  otp : Otp
  chal : Option (List Byte × BitVec 3)
  grants : Nat
  slot : Option (Fin 4)
  svn : Vector Nat 5
  /-- A recovery transfer: its length and the bytes received (R648). -/
  load : Option (Nat × List (Nat × Byte))
  /-- The hub ROM asks SIB for hub firmware; hub firmware has retried the start of a job (R622, R628). -/
  asksSib : Bool
  retried : Bool
  /-- The nonce and the address of the report that is being built (R632). -/
  report : Option (List Byte × Nat)
  /-- Of an island: the entry offset of its running firmware, and the SHA-512 of that firmware and of its configuration (R619, R631, R639); of the hub,
  the entry offset. -/
  entry : Nat
  hash : Vector (List Byte) 2
  /-- The hub has stopped (R628); hub firmware has verified the compute microcode and keeps it (R623). -/
  stopped : Bool
  ucode : Bool
  deriving DecidableEq, Repr

/-- SIA's dump (R657 to R664): the slot that is being written and the time of detection, whether one was begun since reset, the reads that
timed out by die, and the dumps since the Attic was cleared. -/
structure Dump where
  run : Option (Fin 2 × Nat)
  done : Bool
  /-- The entries of each die's list whose read has failed (R661). -/
  fails : Vector (List Nat) 7
  seq : W32
  deriving DecidableEq, Repr

/-- What the line of a request asks of a monitor (R644, R648), or that it brings no request (R642). -/
inductive Req where
  | chal (m : MonId) (scope : BitVec 3)
  | resp (m : MonId) (key sig : List (BitVec 8))
  | ready (m : MonId)
  | peek (m : MonId) (pa : Nat) (count : Nat)
  | poke (pa : Nat) (v : BitVec 32)
  | health (part : Option (Fin 128))
  | countersRead (c : CellId)
  | countersSet (c : CellId) (i : Fin 8) (event : BitVec 8) (edge : Bool)
  | countersHub
  | jobStatus
  | jobStart (pa : BitVec 40)
  | jobSwitch (pa : BitVec 40)
  | jobAbort
  | dumpInfo (m : MonId) (slot : Nat)
  | dumpRead (m : MonId) (slot off count : Nat)
  | dumpClear (slot : Nat)
  | cellState (c : CellId)
  | cellHalt (c : CellId)
  | cellResume (c : CellId)
  | cellStep (c : CellId) (engine : BitVec 7)
  | cellRegRead (c : CellId) (engine : BitVec 7) (file : BitVec 3) (index : BitVec 15)
  | cellRegWrite (c : CellId) (engine : BitVec 7) (file : BitVec 3) (index : BitVec 15) (v : BitVec 32)
  | cellBkpt (c : CellId) (i : Fin 4) (engine : BitVec 7) (pc : BitVec 16)
  | cellBkptOff (c : CellId) (i : Fin 4)
  | programKey (m : MonId) (slot : Fin 4) (hash : List (BitVec 8))
  | programDebugKey (m : MonId) (slot : Fin 2) (hash : List (BitVec 8))
  | setLifecycle (m : MonId) (lc : Lifecycle)
  | readId (m : MonId)
  | loadImage (len : Nat)
  | loadImageData (off : Nat) (data : List (BitVec 8))
  | loadImageEnd
  | broken (m : MonId) (framing : Bool)
  deriving DecidableEq, Repr

/-- A monitor: the tag of the request that it serves, and the lines that have come while a request runs, oldest first, with what each asks (R641,
R642). -/
structure Uart where
  tag : Byte
  wait : List (List Byte × Req)
  deriving DecidableEq, Repr

/-- The states of a test access port (R692). -/
inductive TapSt where
  | reset | idle | selDr | capDr | shiftDr | exit1Dr | pauseDr | exit2Dr | updDr
  | selIr | capIr | shiftIr | exit1Ir | pauseIr | exit2Ir | updIr
  deriving DecidableEq, Repr

/-- The JTAG chain of R692, in chain order SIA, SIB, HD, CD0 to CD3: the common state of the TAPs, their instructions, their instruction
and data shift registers, and TDO, none while it is high-impedance. -/
structure Jtag where
  st : TapSt
  ir : Vector (BitVec 6) 7
  irSh : Vector (BitVec 6) 7
  dr : Vector W32 7
  tdo : Option Bool
  deriving DecidableEq, Repr


/-- An adaptation update on its way (R393, R394): the tick at whose end it takes effect, the new taps by memory offset, and the outputs that it
freezes. -/
structure AcoUpd where
  due : Nat
  taps : List (Nat × W32)
  frozen : Nat
  deriving DecidableEq, Repr

/-- The acoustic engine beside its registers (R376 to R403). -/
structure Aco where
  /-- The shadowed registers in force, by offset / 4. -/
  act : Vector W32 64
  /-- The coming tick, and the coming block boundary. -/
  tick : Nat
  blk : Nat
  /-- PARAM, SPATH and WEIGHTS by their offset in the layout of R396, and the indirect writes that wait for the tick. -/
  mem : List (Nat × W32)
  memW : List (Nat × W32)
  upd : Option AcoUpd
  /-- By microphone, newest first: the PDM bits of a sample period, and the CIC output in units of 2^(-K log2 M). -/
  pdmIn : Vector (List (BitVec 64)) 32
  cic : Vector (List Int) 32
  /-- The last decimated sample of each microphone, and the last sample and word of each TDM input slot. -/
  mic : Vector Int 32
  slot : Vector Int 64
  raw : Vector W32 64
  /-- Raw captured bytes that wait for a whole 256 (R685). -/
  rest : Vector (List Byte) 4
  /-- Sample histories of the references, newest first. -/
  hist : Vector (List Int) 16
  err : Vector Int 8
  /-- Playback samples of the block in play, the last ones played, and the ticks since a miss. -/
  play : Vector (List Int) 4
  last : Vector Int 4
  ramp : Option Nat
  /-- What the PDM pins carry, as samples and as the bits of their streams, with the integrators of their modulators (R388), and the words of the
  TDM output slots, their bits from bit 31 down (R389). -/
  pdm : Vector Int 16
  tdm : Vector W32 64
  stream : Vector (BitVec 64) 16
  mod : Vector (List Int) 16
  /-- The slot number whose last bits have been captured in the cycle that runs, and the input ports that gave it (R384). -/
  slotNow : Option (Fin 16)
  ports : List (Fin 4)
  /-- Bytes that have arrived in each inbound buffer since it was opened. -/
  got : Vector Nat 2
  deriving DecidableEq, Repr
/-- The state of the whole part. -/
structure State where
  /-- The commands that wait, first in, first out. -/
  pending : List Instr
  /-- The model's own counter of free values drawn. -/
  free : Nat
  /-- Every byte that an address of R183 and R186 names: DRAM, local stores, buffers, Shelves, island memories. -/
  mem : List Host.Cell
  /-- Granules with an error or a mark (R40, R200). -/
  ecc : List (Nat × Ecc)
  /-- Direct stores that are not yet performed, in the order of their issue (R24, R205, R206). -/
  stores : List PStore
  /-- Registers that differ from their reset value, by package address. -/
  regs : List (Nat × W32)
  cells : Vector Cell 64
  hosts : Vector HostCore 8
  lofts : Vector Loft 4
  tlbs : Vector Tlb 5
  paths : Vector PathUnit 4
  crates : List Crate
  crateNext : Nat
  /-- Job faults reported to the JOB_ block and not yet acted on: die, cell and cause (R129, R422). -/
  jobFaults : List (Fin 4 × Fin 16 × BitVec 8)
  /-- Fault reports on their way to each island (R531). -/
  inbox : Vector (List Report) 2
  isl : Vector Island 2
  /-- FAULT_N is held low from outside the part. The spec gives no release of it, and no command of the part ends it: it stands for good (DESIGN CHOICE,
  log entry 118). -/
  faultExt : Bool
  /-- The level of the input PWROK (R588, R589). -/
  pwrok : Bool
  links : Vector (Vector Link 10) 7
  crossings : List Crossing
  hub : Hub
  /-- Regulated ports that differ from reset, by block × 32 + port, and the blocks in HOLD mode (R509 to R511). -/
  regPorts : List (Nat × RegPort)
  regHold : Vector Bool 5
  therm : Therm
  hlth : Health
  tests : Vector DieTest 4
  /-- The trained DRAM capacity of each die in GiB (R22, R611). -/
  dramGib : Vector (Option Nat) 5
  job : JobSt
  aco : Aco
  boots : Vector BootSt 3
  uart : Vector Uart 3
  dump : Dump
  jtag : Jtag
  out : List OutMsg
  deriving DecidableEq, Repr

def Seq.reset : Seq :=
  { s := Vector.replicate 32 0, a := Vector.replicate 16 0, c := Vector.replicate 4 0, pc := 0, st := 0, stNew := 0, stAt := 0, loops := [], hold := .none,
    later := [], run := .idle, stop := 0, pendW := [], pendV := [], dbg := .run, skip := false, waited := 0 }

def Sliver.reset : Sliver :=
  { s := Vector.replicate 32 0, v := Vector.replicate 32 0, p := (Vector.replicate 8 0).set 0 0xFFFFFFFF#32, c := Vector.replicate 4 0,
    pc := 0, st := 0, stNew := 0, stAt := 0, loops := [], hold := .none, run := .running, bcast := false, bq := [], dbg := .run, skip := false,
    waitFrom := none, waited := 0 }

def HostCore.reset : HostCore :=
  { h := Vector.replicate 32 0, pc := 0, st := 0, level := .monitor, sup := Vector.replicate 7 0, mon := Vector.replicate 7 0, irq := [],
    waiting := false, hold := .none }

def Tile.reset : Tile := { undef := none, isInt := false, par := [], elems := [] }

def Half.reset : Half :=
  { loaded := false, undef := none, cls := 0, sp := false, wfmt := 0, vals := [], idxs := [], scales := [], par := [] }

def Slot.reset : Slot := { st := .free, fills := 0, count := 0, waiting := [], takenAt := none, freeAt := none, relAt := none }

def PerfEv.none : PerfEv := { issued := 0, held := 0, heldVar := 0, heldArr := 0, heldBc := 0, slv := 0, cleared := false }
def PerfDue.none : PerfDue := { moves := 0, larder := 0, hits := 0, misses := 0, tlb := 0 }

def Perf.reset : Perf :=
  { cnt := Vector.replicate 8 0, snap := Vector.replicate 8 0, prev := Vector.replicate 8 0, seen := Vector.replicate 8 0, ev := PerfEv.none,
    due := PerfDue.none, enAt := none, closed := 0, winSeq := 0, seqLatch := 0,
    hiCycle := 0, hiCnt := Vector.replicate 8 0, hiSnap := Vector.replicate 8 0, lfsr := 1, tagged := none }

/-- The seed of column `c`'s LFSR (R63). -/
def seedOf (seed : W32) (c : Nat) : W32 :=
  let v := seed ^^^ BitVec.ofNat 32 (c * 0x9E3779B9)
  if v = 0 then 1 else v

def Cell.reset : Cell :=
  { level := .supervisor, seq := Seq.reset, slv := Vector.replicate 64 Sliver.reset, tiles := Vector.replicate 4 Tile.reset,
    halves := Vector.replicate 2 Half.reset, loading := none, passes := [], draining := none, gridFree := 0, loadFree := 0, drainFree := 0, attFree := 0,
    lfsr := Vector.ofFn (fun c => seedOf 1 c.val), queues := [], moves := [], moveNext := 0, slots := Vector.replicate 128 Slot.reset,
    kv := [], syncCover := none, norm := [], bcastOut := [], excQ := [], cycle := 0, perf := Perf.reset, pairStopped := false }

def Loft.reset : Loft := { lines := [], fills := [], scans := [], scanNext := 0, fillNext := 0 }
def Tlb.reset : Tlb := { entries := [], reads := 0, inv := none }
def PathUnit.reset : PathUnit :=
  { gen := 0, ticketNext := 0, queue := [], run := none, inter := none, ended := [], aborts := [], probes := 0 }

def Island.reset : Island :=
  { trigs := [], clears := [], valid := false, dropped := false, pull := false, sl4 := false, peer := 0, peerArm := false, fresh := false,
    frameCtr := 0, sentFrame := 0, mbRead := 0, beat := 0, ledRead := 0, inRead := 0, outRecs := [], good := [], onTime := [], inGood := [],
    inPrev := [], pairAt := [], pairSeen := [], tested := [], starved := [], clkStop := [], clkReset := [], clkWin := [], time := 0, statusCtr := 0,
    rel := true, up := false, func := 0, jobId := 0, gotFrame := false, judge := [], skipWin := [], kindSeen := false, railBad := Vector.replicate 8 0,
    rail := Vector.replicate 8 0, coolant := Vector.replicate 2 none, pulses := 0, pulseAt := 0, pulsesLast := 0, pwrLow := false, resetDue := false, sleep := false, fenceAt := [],
    frames := [], before := 0, sram := [], sramEcc := [] }
def Therm.reset : Therm :=
  { node := Vector.replicate 16 0, power := Vector.replicate 5 0, reading := Vector.replicate 5 0, age := Vector.replicate 5 0,
    est := Vector.replicate 5 (0, 0), cmd := Vector.replicate 4 none, cap := Vector.replicate 4 none, since := Vector.replicate 4 20,
    below := Vector.replicate 4 0, sensorHold := 0, outlet := 0, window := 0, host := none, log := [] }
def Health.reset : Health :=
  { buckets := [], last := [], held := [], ages := [], flash := none, sliceFenced := [], step7 := [], resetDone := [], ctr := 0 }
def DieTest.reset : DieTest := { slices := [], pos := [], mark := none, done := [] }
def Link.reset : Link := { bad := 0, retrain := false, msg := none, sent := none }
def FsCfg.reset : FsCfg := { en := false, pol := false, period := 0, phase := 0, width := 0 }
def Fsync.reset : Fsync := { cur := FsCfg.reset, next := 0, pend := none, at_ := 0, active := false, endAt := 0, lastDue := none, used := false }
def TimeBase.reset : TimeBase :=
  { now := 0, frac := 0, up := 0, adjCnt := 0, adjLeft := 0, setLo := 0, nowHi := 0, fs := Vector.replicate 16 Fsync.reset, lastCut := none,
    cuts := [], pps := Vector.replicate 2 0, ppsHi := Vector.replicate 2 0 }
def Ingest.reset : Ingest :=
  { epoch := 0, was := 0, open_ := [], done := [], counters := Vector.replicate 24 0, closes := [], lidDrop := [], imu := Vector.replicate 4 none }
def Chan.reset : Chan := { st := .idle, cause := 0, pend := 0, late := false, code := 0, left := 0, moved := 0, job := false, desc := none }
def Pdma.reset : Pdma := { ch := Vector.replicate 16 Chan.reset, order := [] }
def Handover.reset : Handover := { fifo := [], data := 0, valid := false, pair := false }
def Hub.reset : Hub :=
  { tb := TimeBase.reset, ing := Ingest.reset, dma := Vector.replicate 2 Pdma.reset, raised := Vector.replicate 64 0, soft := [],
    ho := Vector.replicate 4 Handover.reset, win := [], winErr := [], macDrop := Vector.replicate 6 0, stamps := Vector.replicate 6 [], irqs := [], invalid := false }
def JobSt.reset : JobSt := { cur := 0, next := none, stop := none, imm := false, eligible := [], keys := [], driven := false, restore := none, owed := false }
def Otp.reset : Otp :=
  { keys := Vector.replicate 4 [], prog := 0, rev := 0, dbg := Vector.replicate 2 [], dprog := 0, drev := 0, svn := Vector.replicate 5 0,
    lc := .open }
def BootSt.reset : BootSt :=
  { otp := Otp.reset, chal := none, grants := 0, slot := none, svn := Vector.replicate 5 0, load := none, asksSib := false, retried := false,
    report := none, entry := 0, hash := Vector.replicate 2 [], stopped := false, ucode := false }
def Uart.reset : Uart := { tag := 0, wait := [] }
def Dump.reset : Dump := { run := none, done := false, fails := Vector.replicate 7 [], seq := 0 }
/-- IDCODE of the die at each place of the chain (R692), and the instruction of a TAP in Test-Logic-Reset. -/
def tapStrap (i : Nat) : Nat := if i = 0 then 5 else if i = 1 then 6 else if i = 2 then 4 else i - 3
def idcode (i : Nat) : W32 := BitVec.ofNat 32 (0x174006F3 + tapStrap i * 4096)
def Jtag.reset : Jtag :=
  { st := .reset, ir := Vector.replicate 7 Config.idcodeOp, irSh := Vector.replicate 7 Config.idcodeOp, dr := Vector.ofFn (fun (i : Fin 7) => idcode i), tdo := none }

def Aco.reset : Aco :=
  { act := Vector.replicate 64 0, tick := 0, blk := 0, mem := [], memW := [], upd := none, pdmIn := Vector.replicate 32 [], cic := Vector.replicate 32 [],
    mic := Vector.replicate 32 0, slot := Vector.replicate 64 0, raw := Vector.replicate 64 0, rest := Vector.replicate 4 [],
    hist := Vector.replicate 16 [], err := Vector.replicate 8 0, play := Vector.replicate 4 [], last := Vector.replicate 4 0, ramp := some 64,
    pdm := Vector.replicate 16 0, tdm := Vector.replicate 64 0, stream := Vector.replicate 16 0, mod := Vector.replicate 16 (List.replicate 4 0), slotNow := none, ports := [], got := Vector.replicate 2 0 }
/-- The machine right after reset. -/
def State.reset : State :=
  { pending := [], free := 0, mem := [], ecc := [], stores := [], regs := [], cells := Vector.replicate 64 Cell.reset,
    hosts := Vector.replicate 8 HostCore.reset, lofts := Vector.replicate 4 Loft.reset, tlbs := Vector.replicate 5 Tlb.reset,
    paths := Vector.replicate 4 PathUnit.reset, crates := [], crateNext := 0, jobFaults := [], inbox := Vector.replicate 2 []
    , isl := Vector.replicate 2 Island.reset, faultExt := false, pwrok := true, links := Vector.replicate 7 (Vector.replicate 10 Link.reset),
    crossings := [], hub := Hub.reset, regPorts := [], regHold := Vector.replicate 5 false, therm := Therm.reset, hlth := Health.reset,
    tests := Vector.replicate 4 DieTest.reset, dramGib := Vector.replicate 5 none, job := JobSt.reset, aco := Aco.reset,
    boots := Vector.replicate 3 BootSt.reset, uart := Vector.replicate 3 Uart.reset, dump := Dump.reset, jtag := Jtag.reset, out := []
  }

end Sys2Proof.Machine
end

