-- ==== Sys2Proof/Machine/Regs.lean ====
section
/-! DEFINITION. The register map (R186, R683 and the register tables of every chapter): the blocks, their bases, the access type of
every bit (R8) and every reset value; a read and a write of a register by hardware. -/

namespace Sys2Proof.Machine

/-- Consecutive registers of one layout: first offset, count, stride, the RW, W1C and W1S bits, and the reset value. -/
structure RegRow where
  off : Nat
  count : Nat
  stride : Nat
  rw : W32
  w1c : W32
  w1s : W32
  rst : W32
  deriving DecidableEq, Repr

/-- The register blocks of R186 and R683. A compute die, an MMU, a die and an island are numbered by strap order. -/
inductive Blk where
  | cell (c : Fin 64) | perf (c : Fin 64) | att (c : Fin 64)
  | loft (d : Fin 4) | mmu (m : Fin 5) | path (d : Fin 4) | reg (b : Fin 5) | d2d (d : Fin 7) | cdc (d : Fin 7)
  | job | boot (o : Fin 3) | pdma (e : Fin 2) | aco
  | safe (i : Fin 2) | therm | hlth
  | tbase | ingest | mac (m : Fin 6) | pcie (i : Fin 2) | usb | can (i : Fin 4) | spi | uart
  deriving DecidableEq, Repr

/-- The on-chip window of compute die `d` (R186). -/
def dieBase (d : Nat) : Nat := 0xF000000000 + d * 0x100000000

/-- The base of cell `c`, numbered die × 16 + cell (R186). -/
def cellBase (c : Nat) : Nat := dieBase (c / 16) + (c % 16) * 0x1000000

/-- The window of the hub, and of an island (R183). -/
def hubBase : Nat := 0xF400000000
def islBase (i : Nat) : Nat := 0xF500000000 + i * 0x100000000
/-- The peripheral region (R683). -/
def perBase : Nat := 0xF401000000

/-- The window of a die that holds its D2D_ and CDC_ blocks, by strap. -/
def winBase (d : Nat) : Nat := if d < 4 then dieBase d else if d = 4 then hubBase else islBase (d - 5)

/-- The base of a block (R186, R683). -/
def Blk.base : Blk → Nat
  | .cell c => cellBase c + 0xC00000
  | .perf c => cellBase c + 0xC10000
  | .att c => cellBase c + 0xC20000
  | .loft d => dieBase d + 0x10000000
  | .mmu m => if m.val < 4 then dieBase m + 0x10010000 else hubBase + 0x80000
  | .path d => dieBase d + 0x10020000
  | .reg b => if b.val < 4 then dieBase b + 0x10030000 else hubBase + 0x50000
  | .d2d d => winBase d + (if d.val < 4 then 0x10040000 else if d.val = 4 then 0x60000 else 0x50000)
  | .cdc d => winBase d + (if d.val < 4 then 0x10050000 else if d.val = 4 then 0x70000 else 0x30000)
  | .job => hubBase
  | .boot o => if o.val = 0 then hubBase + 0x10000 else islBase (o.val - 1) + 0x40000
  | .pdma e => hubBase + 0x20000 + e * 0x10000
  | .aco => hubBase + 0x40000
  | .safe i => islBase i
  | .therm => islBase 0 + 0x10000
  | .hlth => islBase 1 + 0x20000
  | .tbase => perBase
  | .ingest => perBase + 0x10000
  | .mac m => perBase + 0x20000 + m * 0x10000
  | .pcie i => perBase + 0x80000 + i * 0x10000
  | .usb => perBase + 0xA0000
  | .can i => perBase + 0xB0000 + i * 0x10000
  | .spi => perBase + 0xF0000
  | .uart => perBase + 0x100000

/-- The block and the offset in it that an address names, or none. -/
def blkOf (pa : Nat) : Option (Blk × Nat) :=
  let off := pa % 0x10000
  let blk := fun (b : Blk) => some (b, off)
  if 0xF000000000 ≤ pa ∧ pa < 0xF400000000 then
    let d : Fin 4 := Fin.ofNat 4 ((pa / 0x100000000) % 4)
    let o := pa % 0x100000000
    if o < 0x10000000 then
      let c : Fin 64 := Fin.ofNat 64 (d * 16 + o / 0x1000000)
      match (o % 0x1000000) / 0x10000 with
      | 0xC0 => blk (.cell c)
      | 0xC1 => blk (.perf c)
      | 0xC2 => blk (.att c)
      | _ => none
    else match o / 0x10000 with
      | 0x1000 => blk (.loft d)
      | 0x1001 => blk (.mmu (d.castLE (by omega)))
      | 0x1002 => blk (.path d)
      | 0x1003 => blk (.reg (d.castLE (by omega)))
      | 0x1004 => blk (.d2d (d.castLE (by omega)))
      | 0x1005 => blk (.cdc (d.castLE (by omega)))
      | _ => none
  else if 0xF400000000 ≤ pa ∧ pa < 0xF500000000 then
    match (pa % 0x100000000) / 0x10000 with
    | 0x0 => blk .job
    | 0x1 => blk (.boot 0)
    | 0x2 => blk (.pdma 0)
    | 0x3 => blk (.pdma 1)
    | 0x4 => blk .aco
    | 0x5 => blk (.reg 4)
    | 0x6 => blk (.d2d 4)
    | 0x7 => blk (.cdc 4)
    | 0x8 => blk (.mmu 4)
    | 0x100 => blk .tbase
    | 0x101 => blk .ingest
    | 0x10A => blk .usb
    | 0x10F => blk .spi
    | 0x110 => blk .uart
    | n =>
      if 0x102 ≤ n ∧ n < 0x108 then blk (.mac (Fin.ofNat 6 (n - 0x102)))
      else if 0x108 ≤ n ∧ n < 0x10A then blk (.pcie (Fin.ofNat 2 (n - 0x108)))
      else if 0x10B ≤ n ∧ n < 0x10F then blk (.can (Fin.ofNat 4 (n - 0x10B)))
      else none
  else if 0xF500000000 ≤ pa ∧ pa < 0xF700000000 then
    let i : Fin 2 := Fin.ofNat 2 ((pa / 0x100000000) - 0xF5)
    match (pa % 0x100000000) / 0x10000 with
    | 0x0 => blk (.safe i)
    | 0x1 => if i = 0 then blk .therm else none
    | 0x2 => if i = 1 then blk .hlth else none
    | 0x3 => blk (.cdc (Fin.ofNat 7 (5 + i)))
    | 0x4 => blk (.boot (Fin.ofNat 3 (1 + i)))
    | 0x5 => blk (.d2d (Fin.ofNat 7 (5 + i)))
    | _ => none
  else none

/-- The registers of the CELL_ block: offset, count, stride, and the masks of RW, W1C and W1S bits, then the reset value. -/
def cellRows : List RegRow := [
  ⟨0x000, 1, 4, 0x00000000#32, 0x00000000#32, 0x00000000#32, 0x00000000#32⟩, /- CELL_ID (R81) -/
  ⟨0x004, 1, 4, 0x00000007#32, 0x00000000#32, 0x00000000#32, 0x00000000#32⟩, /- CELL_CTRL (R82) -/
  ⟨0x008, 1, 4, 0xFFFFFFFF#32, 0x00000000#32, 0x00000000#32, 0x00000001#32⟩, /- CELL_SR_SEED (R83) -/
  ⟨0x00C, 1, 4, 0x00000000#32, 0x0000007F#32, 0x00000000#32, 0x00000000#32⟩, /- CELL_ARITH_FLAGS (R84) -/
  ⟨0x010, 1, 4, 0x00000000#32, 0x0000001F#32, 0x00000000#32, 0x00000000#32⟩, /- CELL_ERR (R85) -/
  ⟨0x014, 1, 4, 0x00000000#32, 0x00000000#32, 0x00000000#32, 0x00000000#32⟩, /- CELL_LS_CE_COUNT (R86) -/
  ⟨0x018, 1, 4, 0x00000000#32, 0x00000000#32, 0x00000000#32, 0x00000000#32⟩, /- CELL_LS_UE_ADDR (R87) -/
  ⟨0x01C, 1, 4, 0x0000FFFF#32, 0x00000000#32, 0x00000000#32, 0x00001000#32⟩, /- CELL_TQ_WAIT_LIMIT (R88) -/
  ⟨0x020, 1, 4, 0x00000000#32, 0x00000000#32, 0x00000000#32, 0x00000000#32⟩, /- CELL_TQ_TIMEOUT_Q (R89) -/
  ⟨0x100, 1, 4, 0x00000000#32, 0xC0000000#32, 0x00000000#32, 0x00000000#32⟩, /- CELL_EXC_CAUSE (R134) -/
  ⟨0x104, 1, 4, 0x00000000#32, 0x00000000#32, 0x00000000#32, 0x00000000#32⟩, /- CELL_EXC_PC (R135) -/
  ⟨0x108, 1, 4, 0x00000000#32, 0x00000000#32, 0x00000000#32, 0x00000000#32⟩, /- CELL_EXC_INSTR (R136) -/
  ⟨0x10C, 1, 4, 0x00000000#32, 0x00000000#32, 0x00000000#32, 0x00000000#32⟩, /- CELL_EXC_ADDR_LO (R137) -/
  ⟨0x110, 1, 4, 0x00000000#32, 0x00000000#32, 0x00000000#32, 0x00000000#32⟩, /- CELL_EXC_ADDR_HI (R137) -/
  ⟨0x114, 1, 4, 0x00000000#32, 0x00000000#32, 0x00000000#32, 0x00000004#32⟩, /- CELL_RUN (R138) -/
  ⟨0x118, 1, 4, 0x00000000#32, 0x00000000#32, 0x00000000#32, 0x00000000#32⟩, /- CELL_SLV_EXC_LO (R139) -/
  ⟨0x11C, 1, 4, 0x00000000#32, 0x00000000#32, 0x00000000#32, 0x00000000#32⟩, /- CELL_SLV_EXC_HI (R139) -/
  ⟨0x200, 1, 4, 0x07FF007F#32, 0x00000000#32, 0x00000000#32, 0x00000000#32⟩, /- CELL_SHELF_CFG0 (R263) -/
  ⟨0x204, 1, 4, 0x07FF007F#32, 0x00000000#32, 0x00000000#32, 0x00000000#32⟩, /- CELL_SHELF_CFG1 (R263) -/
  ⟨0x208, 1, 4, 0x00000000#32, 0x0000000F#32, 0x00000000#32, 0x00000000#32⟩, /- CELL_SHELF_ERR (R264) -/
  ⟨0x20C, 1, 4, 0x00000000#32, 0x00000000#32, 0x00000000#32, 0x00000000#32⟩, /- CELL_SHELF_ERR_SLOT (R265) -/
  ⟨0x210, 1, 4, 0x00000000#32, 0x00000000#32, 0x00000000#32, 0x00000000#32⟩, /- CELL_SHELF_WAIT_CYC (R266) -/
  ⟨0x214, 1, 4, 0x00000000#32, 0x00000000#32, 0x00000000#32, 0x00000000#32⟩, /- CELL_SHELF_CLAIM_CYC (R266) -/
  ⟨0x300, 128, 4, 0x00000000#32, 0x00000000#32, 0x00000000#32, 0x00000000#32⟩, /- CELL_SHELF_SLOT_n (R267) -/
  ⟨0x500, 1, 4, 0x00000001#32, 0x00000000#32, 0x00000000#32, 0x00000000#32⟩, /- CELL_PAIR_CTRL (R558) -/
  ⟨0x504, 1, 4, 0x00000000#32, 0x80000000#32, 0x00000000#32, 0x00000000#32⟩ /- CELL_PAIR_STATUS (R558) -/
]

/-- The registers of the PERF_ block: offset, count, stride, and the masks of RW, W1C and W1S bits, then the reset value. -/
def perfRows : List RegRow := [
  ⟨0x000, 1, 4, 0x00000003#32, 0x00000008#32, 0x00000000#32, 0x00000000#32⟩, /- PERF_CTRL (R671) -/
  ⟨0x004, 1, 4, 0x00000000#32, 0x000000FF#32, 0x00000000#32, 0x00000000#32⟩, /- PERF_OVF (R671) -/
  ⟨0x010, 1, 4, 0x00FFFFFF#32, 0x00000000#32, 0x00000000#32, 0x00000000#32⟩, /- PERF_WIN (R671) -/
  ⟨0x040, 8, 16, 0xC00000FF#32, 0x00000000#32, 0x00000000#32, 0x00000000#32⟩, /- PERF_EVSEL_i (R672) -/
  ⟨0x100, 1, 4, 0x801F7F00#32, 0x00000000#32, 0x00000000#32, 0x000A4000#32⟩, /- PERF_SAMPLE_CTRL (R673) -/
  ⟨0x104, 1, 4, 0xFFFFFFFF#32, 0x00000000#32, 0x00000000#32, 0x00000001#32⟩, /- PERF_SAMPLE_SEED (R673) -/
  ⟨0x108, 1, 4, 0x00000000#32, 0x00000000#32, 0x00000000#32, 0x00000000#32⟩, /- PERF_SAMPLE_STAT (R673) -/
  ⟨0x200, 64, 4, 0x00000000#32, 0x00000000#32, 0x00000000#32, 0x00000000#32⟩, /- PERF_SREC_j_w (R673) -/
  ⟨0x400, 1, 4, 0x00000000#32, 0x00000000#32, 0x00000000#32, 0x00000000#32⟩, /- PERF_DBG_CTRL (R674) -/
  ⟨0x404, 1, 4, 0x00000000#32, 0x00000006#32, 0x00000000#32, 0x00000000#32⟩, /- PERF_DBG_STATUS (R674) -/
  ⟨0x408, 1, 4, 0x01FFFFFF#32, 0x00000000#32, 0x00000000#32, 0x00000000#32⟩, /- PERF_DBG_SEL (R674) -/
  ⟨0x40C, 1, 4, 0xFFFFFFFF#32, 0x00000000#32, 0x00000000#32, 0x00000000#32⟩, /- PERF_DBG_DATA (R674) -/
  ⟨0x410, 4, 4, 0x807FFFFF#32, 0x00000000#32, 0x00000000#32, 0x00000000#32⟩ /- PERF_DBG_BKPT_i (R674) -/
]

/-- The registers of the ATT_ block: offset, count, stride, and the masks of RW, W1C and W1S bits, then the reset value. -/
def attRows : List RegRow := [
  ⟨0x000, 1, 4, 0x00000000#32, 0x00000007#32, 0x00000000#32, 0x00000000#32⟩, /- ATT_FLAGS (R301) -/
  ⟨0x004, 1, 4, 0x00000000#32, 0x00000000#32, 0x00000000#32, 0x00000000#32⟩, /- ATT_EMPTY_ROWS (R302) -/
  ⟨0x008, 1, 4, 0x00000000#32, 0x00000000#32, 0x00000000#32, 0x00000000#32⟩, /- ATT_DROP_COUNT (R303) -/
  ⟨0x00C, 1, 4, 0x00000000#32, 0x00000000#32, 0x00000000#32, 0x00000000#32⟩, /- ATT_DROP_LAST (R303) -/
  ⟨0x010, 1, 4, 0x00000000#32, 0x00000000#32, 0x00000000#32, 0x00000000#32⟩, /- ATT_DROP_SEQ (R303) -/
  ⟨0x014, 1, 4, 0x00000000#32, 0x40000000#32, 0x00000000#32, 0x00000000#32⟩ /- ATT_SYNC (R304) -/
]

/-- The registers of the LOFT_ block: offset, count, stride, and the masks of RW, W1C and W1S bits, then the reset value. -/
def loftRows : List RegRow := [
  ⟨0x000, 1, 4, 0x00000001#32, 0x00000000#32, 0x00000000#32, 0x00000000#32⟩, /- LOFT_CTRL (R223) -/
  ⟨0x004, 1, 4, 0x00000000#32, 0x00000000#32, 0x00000000#32, 0x00000000#32⟩, /- LOFT_STATUS (R224) -/
  ⟨0x008, 1, 4, 0x00000000#32, 0x00000000#32, 0x00000000#32, 0x00000000#32⟩ /- LOFT_ECC_COUNT (R224) -/
]

/-- The registers of the MMU_ block: offset, count, stride, and the masks of RW, W1C and W1S bits, then the reset value. -/
def mmuRows : List RegRow := [
  ⟨0x000, 1, 4, 0x00000001#32, 0x00000000#32, 0x00000000#32, 0x00000000#32⟩, /- MMU_CTRL (R225) -/
  ⟨0x004, 1, 4, 0xFFFFF000#32, 0x00000000#32, 0x00000000#32, 0x00000000#32⟩, /- MMU_ROOT_LO (R226) -/
  ⟨0x008, 1, 4, 0x000000FF#32, 0x00000000#32, 0x00000000#32, 0x00000000#32⟩, /- MMU_ROOT_HI (R226) -/
  ⟨0x00C, 1, 4, 0xFFFFF000#32, 0x00000000#32, 0x00000000#32, 0x00000000#32⟩, /- MMU_TLB_INV_VA_LO (R227) -/
  ⟨0x010, 1, 4, 0x0000FFFF#32, 0x00000000#32, 0x00000000#32, 0x00000000#32⟩, /- MMU_TLB_INV_VA_HI (R227) -/
  ⟨0x014, 1, 4, 0x0000000F#32, 0x40000000#32, 0x00000000#32, 0x00000000#32⟩, /- MMU_TLB_INV (R228) -/
  ⟨0x018, 1, 4, 0x00000000#32, 0xC0000000#32, 0x00000000#32, 0x00000000#32⟩, /- MMU_FAULT_INFO (R229) -/
  ⟨0x01C, 1, 4, 0x00000000#32, 0x00000000#32, 0x00000000#32, 0x00000000#32⟩, /- MMU_FAULT_VA_LO (R229) -/
  ⟨0x020, 1, 4, 0x00000000#32, 0x00000000#32, 0x00000000#32, 0x00000000#32⟩ /- MMU_FAULT_VA_HI (R229) -/
]

/-- The registers of the PATH_ block: offset, count, stride, and the masks of RW, W1C and W1S bits, then the reset value. -/
def pathRows : List RegRow := [
  ⟨0x000, 1, 4, 0x00000001#32, 0x00000000#32, 0x00000000#32, 0x00000000#32⟩, /- PATH_CTRL (R372) -/
  ⟨0x004, 1, 4, 0x0000FFFF#32, 0x00000000#32, 0x00000000#32, 0x000003E8#32⟩, /- PATH_BUDGET (R372) -/
  ⟨0x008, 1, 4, 0x0000FFFF#32, 0x00000000#32, 0x00000000#32, 0x00000000#32⟩, /- PATH_AGE (R372) -/
  ⟨0x00C, 1, 4, 0xFFE00000#32, 0x00000000#32, 0x00000000#32, 0x00000000#32⟩, /- PATH_TABLE_BASE_LO (R373) -/
  ⟨0x010, 1, 4, 0x0000FFFF#32, 0x00000000#32, 0x00000000#32, 0x00000000#32⟩, /- PATH_TABLE_BASE_HI (R373) -/
  ⟨0x014, 1, 4, 0xFFFFF000#32, 0x00000000#32, 0x00000000#32, 0x00000000#32⟩, /- PATH_PRIM_BASE_LO (R373) -/
  ⟨0x018, 1, 4, 0x0000FFFF#32, 0x00000000#32, 0x00000000#32, 0x00000000#32⟩, /- PATH_PRIM_BASE_HI (R373) -/
  ⟨0x01C, 1, 4, 0x00001FFF#32, 0x00000000#32, 0x00000000#32, 0x00000000#32⟩, /- PATH_PRIM_COUNT (R373) -/
  ⟨0x020, 1, 4, 0x00000000#32, 0x00000000#32, 0x00000000#32, 0x00000000#32⟩, /- PATH_GEN (R374) -/
  ⟨0x024, 1, 4, 0x00000000#32, 0x00000000#32, 0x00000000#32, 0x00000000#32⟩, /- PATH_STATUS (R374) -/
  ⟨0x028, 1, 4, 0x00000000#32, 0x00000000#32, 0x00000000#32, 0x00000514#32⟩, /- PATH_TICK (R374) -/
  ⟨0x02C, 1, 4, 0x00000000#32, 0x00000000#32, 0x00000000#32, 0x00000000#32⟩, /- PATH_SAT_COUNT (R375) -/
  ⟨0x030, 1, 4, 0x00000000#32, 0x00000007#32, 0x00000000#32, 0x00000000#32⟩ /- PATH_ERR (R375) -/
]

/-- The registers of the REG_ block: offset, count, stride, and the masks of RW, W1C and W1S bits, then the reset value. -/
def regRowsOf (ports : Nat) : List RegRow := [
  ⟨0x000, 1, 4, 0x00000100#32, 0x00000000#32, 0x00000000#32, 0x00000000#32⟩, /- REG_MODE (R518) -/
  ⟨0x004, 1, 4, 0x00000000#32, 0x00000000#32, 0x00000000#32, 0x0000001A#32⟩, /- REG_TICK (R518) -/
  ⟨0x020, 8, 4, 0x0000FFFF#32, 0x00000000#32, 0x00000000#32, 0x00000000#32⟩, /- REG_CLS_TARGET_k (R519) -/
  ⟨0x040, 8, 4, 0x00000000#32, 0x00000000#32, 0x00000000#32, 0x00000000#32⟩, /- REG_CLS_BYTES_k (R519) -/
  ⟨0x060, 8, 4, 0x00000000#32, 0x00000000#32, 0x00000000#32, 0x00000000#32⟩, /- REG_CLS_HELD_k (R519) -/
  ⟨0x100, ports, 8, 0x03FF0007#32, 0x00000000#32, 0x00000000#32, 0x00010000#32⟩, /- REG_PORT_CFG_p (R520) -/
  ⟨0x104, ports, 8, 0x00FFFFFF#32, 0x00000000#32, 0x00000000#32, 0x00FFFFFF#32⟩ /- REG_PORT_BUDGET_p (R520) -/
]

/-- The registers of the D2D_ block: offset, count, stride, and the masks of RW, W1C and W1S bits, then the reset value. -/
def d2dRows : List RegRow := [
  ⟨0x000, 1, 4, 0x00000000#32, 0x00000000#32, 0x00000000#32, 0x00000000#32⟩, /- D2D_CAP_LOCAL (R463) -/
  ⟨0x004, 1, 4, 0x00000000#32, 0x00000000#32, 0x00000000#32, 0x00000000#32⟩, /- D2D_CAP_NEG (R463) -/
  ⟨0x008, 1, 4, 0x0000FFFF#32, 0x00000000#32, 0x00000000#32, 0x00001000#32⟩, /- D2D_SCORE_LIMIT (R464) -/
  ⟨0x00C, 1, 4, 0x0000FFFF#32, 0x00000000#32, 0x00000000#32, 0x00000064#32⟩, /- D2D_ACK_LIMIT (R464) -/
  ⟨0x010, 1, 4, 0x00000003#32, 0x00000000#32, 0x00000000#32, 0x00000000#32⟩, /- D2D_ROUTE (R464) -/
  ⟨0x014, 1, 4, 0x00000000#32, 0x0000001F#32, 0x00000000#32, 0x00000000#32⟩, /- D2D_ERR (R465) -/
  ⟨0x018, 1, 4, 0x00000000#32, 0x00000000#32, 0x00000000#32, 0x00000000#32⟩, /- D2D_LOST_COUNT (R465) -/
  ⟨0x01C, 1, 4, 0x00000000#32, 0x00000000#32, 0x00000000#32, 0x00000000#32⟩, /- D2D_FWD_COUNT (R465) -/
  ⟨0x020, 1, 4, 0x00000000#32, 0x01000000#32, 0x00000000#32, 0x00000000#32⟩, /- D2D_FENCE (R466) -/
  ⟨0x100, 10, 4, 0x00000000#32, 0x00000000#32, 0x00000000#32, 0x00000000#32⟩, /- D2D_MOD_STATE_m (R467) -/
  ⟨0x140, 10, 4, 0x00000000#32, 0x00000000#32, 0x00000000#32, 0x00000000#32⟩, /- D2D_MOD_SCORE_m (R467) -/
  ⟨0x180, 10, 4, 0x00000000#32, 0x00000000#32, 0x00000000#32, 0x00000000#32⟩, /- D2D_MOD_REPLAY_m (R467) -/
  ⟨0x1C0, 10, 4, 0x00000000#32, 0x00000000#32, 0x00000000#32, 0x00000000#32⟩ /- D2D_MOD_PEER_m (R467) -/
]

/-- The registers of the CDC_ block: offset, count, stride, and the masks of RW, W1C and W1S bits, then the reset value. -/
def cdcRows : List RegRow := [
  ⟨0x000, 1, 4, 0xFFFFFFFF#32, 0x00000000#32, 0x00000000#32, 0x88888888#32⟩, /- CDC_TIMEOUT (R489) -/
  ⟨0x004, 1, 4, 0x00000000#32, 0x0003FFFF#32, 0x00000000#32, 0x00000000#32⟩, /- CDC_STALL_SRC (R490) -/
  ⟨0x008, 1, 4, 0x00000000#32, 0x0003FFFF#32, 0x00000000#32, 0x00000000#32⟩, /- CDC_FLUSH_SRC (R490) -/
  ⟨0x00C, 1, 4, 0x00000000#32, 0x00000000#32, 0x00000000#32, 0x00000000#32⟩, /- CDC_FLUSH_COUNT (R490) -/
  ⟨0x100, 1, 4, 0x0000003F#32, 0x00000000#32, 0x00000000#32, 0x00000011#32⟩, /- CDC_MON_CTRL (R491) -/
  ⟨0x104, 1, 4, 0x00000000#32, 0x0003FFFF#32, 0x00000000#32, 0x00000000#32⟩, /- CDC_MON_FREQ_ERR (R491) -/
  ⟨0x108, 1, 4, 0x00000000#32, 0x0003FFFF#32, 0x00000000#32, 0x00000000#32⟩, /- CDC_MON_STOP (R491) -/
  ⟨0x180, 18, 4, 0x00000000#32, 0x00000000#32, 0x00000000#32, 0x00000000#32⟩ /- CDC_MON_COUNT_i (R491) -/
]

/-- The registers of the JOB_ block: offset, count, stride, and the masks of RW, W1C and W1S bits, then the reset value. -/
def jobRows : List RegRow := [
  ⟨0x000, 1, 4, 0x00000008#32, 0x40000000#32, 0x00000000#32, 0x00000000#32⟩, /- JOB_CTRL (R431) -/
  ⟨0x004, 1, 4, 0x00000000#32, 0x00000030#32, 0x00000000#32, 0x00000000#32⟩, /- JOB_STATUS (R432) -/
  ⟨0x008, 1, 4, 0x00000000#32, 0x00000000#32, 0x00000000#32, 0x00000000#32⟩, /- JOB_RESULT (R432) -/
  ⟨0x00C, 1, 4, 0xFFFFFE00#32, 0x00000000#32, 0x00000000#32, 0x00000000#32⟩, /- JOB_IMAGE_LO (R433) -/
  ⟨0x010, 1, 4, 0x000000FF#32, 0x00000000#32, 0x00000000#32, 0x00000000#32⟩, /- JOB_IMAGE_HI (R433) -/
  ⟨0x014, 1, 4, 0x00000000#32, 0x00000000#32, 0x00000000#32, 0x00000000#32⟩, /- JOB_CUR_ID (R433) -/
  ⟨0x018, 1, 4, 0x00000000#32, 0xC0000000#32, 0x00000000#32, 0x00000000#32⟩, /- JOB_FAULT_SRC (R434) -/
  ⟨0x01C, 1, 4, 0x00000000#32, 0x00000000#32, 0x00000000#32, 0x00000000#32⟩, /- JOB_SW_TIME (R434) -/
  ⟨0x020, 4, 4, 0x00000000#32, 0x00000000#32, 0x00000000#32, 0x00000000#32⟩ /- JOB_LIVE_d (R434) -/
]

/-- The registers of the BOOT_ block: offset, count, stride, and the masks of RW, W1C and W1S bits, then the reset value. -/
def bootRows : List RegRow := [
  ⟨0x000, 1, 4, 0x00000000#32, 0x00000000#32, 0x00000000#32, 0x00000000#32⟩, /- BOOT_STATUS (R636) -/
  ⟨0x004, 1, 4, 0x002FDE00#32, 0x00000000#32, 0x00000000#32, 0x00000000#32⟩, /- BOOT_FUNC_READY (R636) -/
  ⟨0x008, 1, 4, 0x00000000#32, 0x00000000#32, 0x00000000#32, 0x00000000#32⟩, /- BOOT_OTP_SLOT (R637) -/
  ⟨0x00C, 1, 4, 0x00000000#32, 0x00000000#32, 0x00000000#32, 0x00000000#32⟩, /- BOOT_OTP_SVN (R637) -/
  ⟨0x010, 1, 4, 0x00000000#32, 0x60000000#32, 0x00000000#32, 0x00000000#32⟩, /- BOOT_OTP_CMD (R637) -/
  ⟨0x014, 1, 4, 0x00000000#32, 0x00000000#32, 0x00000000#32, 0x00000000#32⟩, /- BOOT_EARLY_DROP (R638) -/
  ⟨0x040, 8, 4, 0x00000000#32, 0x00000000#32, 0x00000000#32, 0x00000000#32⟩, /- BOOT_ID_PUB_i (R638) -/
  ⟨0x0A0, 1, 4, 0x00000000#32, 0x00000000#32, 0x00000000#32, 0x00000000#32⟩, /- BOOT_DBG_CTRL (R638) -/
  ⟨0x080, 1, 4, 0x000F0000#32, 0x80000000#32, 0x00000000#32, 0x00000000#32⟩, /- BOOT_MEAS_CTRL (R639) -/
  ⟨0x084, 1, 4, 0x00000000#32, 0x40000000#32, 0x00000000#32, 0x00000000#32⟩, /- BOOT_ATT_CTRL (R639) -/
  ⟨0x088, 1, 4, 0xFFFFFFC0#32, 0x00000000#32, 0x00000000#32, 0x00000000#32⟩, /- BOOT_ATT_ADDR_LO (R639) -/
  ⟨0x08C, 1, 4, 0x000000FF#32, 0x00000000#32, 0x00000000#32, 0x00000000#32⟩, /- BOOT_ATT_ADDR_HI (R639) -/
  ⟨0x100, 32, 4, 0xFFFFFFFF#32, 0x00000000#32, 0x00000000#32, 0x00000000#32⟩, /- BOOT_BUF_i (R639) -/
  ⟨0x200, 256, 4, 0x00000000#32, 0x00000000#32, 0x00000000#32, 0x00000000#32⟩ /- BOOT_MEAS_s_i (R639) -/
]

/-- The registers of the PDMA_ block: offset, count, stride, and the masks of RW, W1C and W1S bits, then the reset value. -/
def pdmaRows : List RegRow := [
  ⟨0x000, 1, 4, 0x00000000#32, 0x00000000#32, 0x00000000#32, 0x00000000#32⟩, /- PDMA_STATUS (R515) -/
  ⟨0x004, 1, 4, 0x00000000#32, 0x0000000F#32, 0x00000000#32, 0x00000000#32⟩, /- PDMA_ERR (R515) -/
  ⟨0x008, 1, 4, 0x00000000#32, 0x00000000#32, 0x00000000#32, 0x00000000#32⟩, /- PDMA_UNBOUND_COUNT (R515) -/
  ⟨0x00C, 1, 4, 0x00000000#32, 0x00000000#32, 0x00000000#32, 0x00000000#32⟩, /- PDMA_KICK_DROP_COUNT (R515) -/
  ⟨0x040, 4, 16, 0x80007FFF#32, 0x00000000#32, 0x00000000#32, 0x00000000#32⟩, /- PDMA_HO_CFG_d (R516) -/
  ⟨0x044, 4, 16, 0x00000000#32, 0x00000000#32, 0x00000000#32, 0x00000000#32⟩, /- PDMA_HO_POP_d (R516) -/
  ⟨0x048, 4, 16, 0x00000000#32, 0x00000000#32, 0x00000000#32, 0x00000000#32⟩, /- PDMA_HO_DATA_d (R516) -/
  ⟨0x04C, 4, 16, 0x00000000#32, 0x00000000#32, 0x00000000#32, 0x00000000#32⟩, /- PDMA_HO_COUNT_d (R516) -/
  ⟨0x100, 16, 32, 0xFFFFFFC0#32, 0x00000000#32, 0x00000000#32, 0x00000000#32⟩, /- PDMA_CH_DESC_LO (R517) -/
  ⟨0x104, 16, 32, 0x000000FF#32, 0x00000000#32, 0x00000000#32, 0x00000000#32⟩, /- PDMA_CH_DESC_HI (R517) -/
  ⟨0x108, 16, 32, 0x00000008#32, 0x80000000#32, 0x00000000#32, 0x00000000#32⟩, /- PDMA_CH_CTRL (R517) -/
  ⟨0x10C, 16, 32, 0x00000000#32, 0x00000000#32, 0x00000000#32, 0x00000000#32⟩, /- PDMA_CH_STATUS (R517) -/
  ⟨0x110, 16, 32, 0x00000000#32, 0x00000000#32, 0x00000000#32, 0x00000000#32⟩ /- PDMA_CH_LEFT (R517) -/
]

/-- The registers of the ACO_ block: offset, count, stride, and the masks of RW, W1C and W1S bits, then the reset value. -/
def acoRows : List RegRow := [
  ⟨0x000, 1, 4, 0x000000FF#32, 0x00000000#32, 0x00000000#32, 0x00000090#32⟩, /- ACO_CTRL (R404) -/
  ⟨0x004, 1, 4, 0x00000000#32, 0x00000000#32, 0x00000000#32, 0x00000000#32⟩, /- ACO_COMMIT (R404) -/
  ⟨0x008, 1, 4, 0x00000000#32, 0x00000000#32, 0x00000000#32, 0x00000000#32⟩, /- ACO_STATUS (R404) -/
  ⟨0x00C, 1, 4, 0xFFFFFFFF#32, 0x00000000#32, 0x00000000#32, 0x00000000#32⟩, /- ACO_PDM_IN_EN (R405) -/
  ⟨0x010, 1, 4, 0x0000FFFF#32, 0x00000000#32, 0x00000000#32, 0x00000000#32⟩, /- ACO_PDM_OUT_EN (R405) -/
  ⟨0x014, 1, 4, 0x000000FF#32, 0x00000000#32, 0x00000000#32, 0x00000000#32⟩, /- ACO_TDM_EN (R405) -/
  ⟨0x020, 4, 4, 0x000001FF#32, 0x00000000#32, 0x00000000#32, 0x00000000#32⟩, /- ACO_TDM_OUT_OFF_j (R405) -/
  ⟨0x040, 16, 4, 0x0000C03F#32, 0x00000000#32, 0x00000000#32, 0x00000000#32⟩, /- ACO_REF_r (R406) -/
  ⟨0x0C0, 8, 4, 0x0000C03F#32, 0x00000000#32, 0x00000000#32, 0x00000000#32⟩, /- ACO_ERR_MAP_m (R406) -/
  ⟨0x080, 16, 4, 0xFFFFE07F#32, 0x00000000#32, 0x00000000#32, 0x00000000#32⟩, /- ACO_OUT_o (R406) -/
  ⟨0x0E0, 1, 4, 0x0000000F#32, 0xFFFF0000#32, 0x00000000#32, 0x00000000#32⟩, /- ACO_ADAPT (R407) -/
  ⟨0x0E4, 1, 4, 0xFFFFFFFF#32, 0x00000000#32, 0x00000000#32, 0x00000000#32⟩, /- ACO_EXPORT_LO (R407) -/
  ⟨0x0E8, 1, 4, 0x0000000F#32, 0x00000000#32, 0x00000000#32, 0x00000000#32⟩, /- ACO_EXPORT_HI (R407) -/
  ⟨0x0F0, 1, 4, 0x00000000#32, 0x00000000#32, 0x00000000#32, 0x00000000#32⟩, /- ACO_TICK (R408) -/
  ⟨0x0F4, 1, 4, 0x00000000#32, 0x00000000#32, 0x00000000#32, 0x00000000#32⟩, /- ACO_MISS (R408) -/
  ⟨0x0F8, 1, 4, 0x00000000#32, 0x00000000#32, 0x00000000#32, 0x00000000#32⟩, /- ACO_SAT_COUNT (R408) -/
  ⟨0x0FC, 1, 4, 0x00000000#32, 0x0000007F#32, 0x00000000#32, 0x00000000#32⟩, /- ACO_ERR (R408) -/
  ⟨0x100, 1, 4, 0x0007FFFC#32, 0x00000000#32, 0x00000000#32, 0x00000000#32⟩, /- ACO_MEM_ADDR (R409) -/
  ⟨0x104, 1, 4, 0xFFFFFFFF#32, 0x00000000#32, 0x00000000#32, 0x00000000#32⟩ /- ACO_MEM_DATA (R409) -/
]

/-- The registers of the SAFE_ block: offset, count, stride, and the masks of RW, W1C and W1S bits, then the reset value. -/
def safeRows : List RegRow := [
  ⟨0x000, 1, 4, 0x00000000#32, 0x00000000#32, 0x00000000#32, 0x00000000#32⟩, /- SAFE_LEVEL (R553) -/
  ⟨0x004, 1, 4, 0x00000000#32, 0x00000000#32, 0x00000003#32, 0x00000000#32⟩, /- SAFE_CTRL (R553) -/
  ⟨0x008, 1, 4, 0x00000000#32, 0x00000000#32, 0x00000000#32, 0x00000000#32⟩, /- SAFE_TRIG_LO (R554) -/
  ⟨0x00C, 1, 4, 0x00000000#32, 0x00000000#32, 0x00000000#32, 0x00000000#32⟩, /- SAFE_TRIG_HI (R554) -/
  ⟨0x010, 1, 4, 0x00000000#32, 0x00000000#32, 0x00000000#32, 0x00000000#32⟩, /- SAFE_SL4_CAUSE (R554) -/
  ⟨0x014, 1, 4, 0xFFFFF000#32, 0x00000000#32, 0x00000000#32, 0x00000000#32⟩, /- SAFE_PAGE_LO (R555) -/
  ⟨0x018, 1, 4, 0x000000FF#32, 0x00000000#32, 0x00000000#32, 0x00000000#32⟩, /- SAFE_PAGE_HI (R555) -/
  ⟨0x01C, 1, 4, 0x00000000#32, 0x0000003F#32, 0x00000000#32, 0x00000000#32⟩, /- SAFE_ERR (R556) -/
  ⟨0x020, 1, 4, 0x00000000#32, 0x00000000#32, 0x00000000#32, 0x00000000#32⟩, /- SAFE_E2E_FAIL_COUNT (R556) -/
  ⟨0x024, 1, 4, 0x00000000#32, 0x00000000#32, 0x00000000#32, 0x00000000#32⟩, /- SAFE_IGNORED_COUNT (R556) -/
  ⟨0x040, 5, 4, 0x00000000#32, 0x00000000#32, 0x00000000#32, 0x00000000#32⟩, /- SAFE_TEST_AGE_d (R557) -/
  ⟨0x054, 1, 4, 0x00000000#32, 0x0000001F#32, 0x00000000#32, 0x00000000#32⟩ /- SAFE_TEST_FAIL (R557) -/
]

/-- The registers of the THERM_ block: offset, count, stride, and the masks of RW, W1C and W1S bits, then the reset value. -/
def thermRows : List RegRow := [
  ⟨0x000, 1, 4, 0x00000001#32, 0x00000000#32, 0x00000000#32, 0x00000001#32⟩, /- THERM_CTRL (R606) -/
  ⟨0x004, 1, 4, 0x0000FFFF#32, 0x00000000#32, 0x00000000#32, 0x0000646E#32⟩, /- THERM_LIMITS (R606) -/
  ⟨0x008, 1, 4, 0x00000000#32, 0x00000000#32, 0x00000000#32, 0x00000000#32⟩, /- THERM_STEP (R606) -/
  ⟨0x010, 7, 4, 0x00000000#32, 0x00000000#32, 0x00000000#32, 0x00000000#32⟩, /- THERM_FORECAST_d (R607) -/
  ⟨0x030, 5, 4, 0x00000000#32, 0x00000000#32, 0x00000000#32, 0x00000000#32⟩, /- THERM_POWER_d (R607) -/
  ⟨0x050, 1, 4, 0x00000000#32, 0x00000000#32, 0x00000000#32, 0x00000000#32⟩, /- THERM_INLET (R608) -/
  ⟨0x054, 1, 4, 0x00000000#32, 0x00000000#32, 0x00000000#32, 0x00000000#32⟩, /- THERM_OUTLET (R608) -/
  ⟨0x058, 1, 4, 0x00000000#32, 0x00000000#32, 0x00000000#32, 0x00000000#32⟩, /- THERM_FLOW (R608) -/
  ⟨0x05C, 1, 4, 0xFFFFFFFF#32, 0x00000000#32, 0x00000000#32, 0x00C803E8#32⟩, /- THERM_FLOW_CFG (R608) -/
  ⟨0x060, 1, 4, 0x000000FF#32, 0x00000000#32, 0x00000000#32, 0x0000001E#32⟩, /- THERM_DT_STEP (R608) -/
  ⟨0x064, 1, 4, 0x00000000#32, 0x0000007F#32, 0x00000000#32, 0x00000000#32⟩ /- THERM_ERR (R609) -/
]

/-- The registers of the HLTH_ block: offset, count, stride, and the masks of RW, W1C and W1S bits, then the reset value. -/
def hlthRows : List RegRow := [
  ⟨0x000, 1, 4, 0x00000001#32, 0x00000000#32, 0x00000000#32, 0x00000000#32⟩, /- HLTH_CTRL (R584) -/
  ⟨0x004, 1, 4, 0x00000000#32, 0x00000000#32, 0x00000000#32, 0x00000000#32⟩, /- HLTH_HOURS (R584) -/
  ⟨0x008, 1, 4, 0x00000000#32, 0x00000000#32, 0x00000000#32, 0x00000000#32⟩, /- HLTH_SUMMARY (R584) -/
  ⟨0x00C, 1, 4, 0x00000000#32, 0x00000F00#32, 0x00000000#32, 0x00000000#32⟩, /- HLTH_READMIT (R584) -/
  ⟨0x040, 4, 4, 0x00000000#32, 0x00000000#32, 0x00000000#32, 0x00000000#32⟩, /- HLTH_WARN_k (R585) -/
  ⟨0x050, 4, 4, 0x00000000#32, 0x00000000#32, 0x00000000#32, 0x00000000#32⟩, /- HLTH_LIMIT_k (R585) -/
  ⟨0x080, 4, 8, 0xFFFFFFFF#32, 0x00000000#32, 0x00000000#32, 0x00000000#32⟩, /- HLTH_THRESH_WARN_c (R585) -/
  ⟨0x084, 4, 8, 0xFFFFFFFF#32, 0x00000000#32, 0x00000000#32, 0x00000000#32⟩, /- HLTH_THRESH_LIMIT_c (R585) -/
  ⟨0x100, 128, 4, 0x00000000#32, 0x00000000#32, 0x00000000#32, 0x00000000#32⟩, /- HLTH_SCORE_n (R585) -/
  ⟨0x300, 7, 4, 0x00000000#32, 0x00000000#32, 0x00000000#32, 0x00000000#32⟩, /- HLTH_AGE_v (R706) -/
  ⟨0x320, 1, 4, 0xFFFFFFFF#32, 0x00000000#32, 0x00000000#32, 0x01F4012C#32⟩, /- HLTH_AGE_CFG (R707) -/
  ⟨0x324, 1, 4, 0x00000000#32, 0x00000000#32, 0x00000000#32, 0x00000000#32⟩ /- HLTH_LIFE (R707) -/
]

/-- The registers of the tbase controller. -/
def tbaseRows : List RegRow := [
  ⟨0x010, 1, 4, 0xFFFFFFFF#32, 0x00000000#32, 0#32, 0x00000000#32⟩, /- RATE -/
  ⟨0x018, 1, 4, 0x00000000#32, 0x00000000#32, 0#32, 0x00000000#32⟩, /- ADJ_LEFT -/
  ⟨0x01C, 1, 4, 0x00000003#32, 0x00000000#32, 0#32, 0x00000000#32⟩, /- SYNC_STATE -/
  ⟨0x020, 1, 4, 0x00000000#32, 0x00000001#32, 0#32, 0x00000000#32⟩, /- SET_REFUSED -/
  ⟨0x028, 2, 4, 0xFFFFFFFF#32, 0x00000000#32, 0#32, 0x00000000#32⟩, /- ANCHOR -/
  ⟨0x030, 1, 4, 0xFFFFFFFF#32, 0x00000000#32, 0#32, 0x00000000#32⟩, /- INST_PERIOD -/
  ⟨0x034, 1, 4, 0xFFFFFFFF#32, 0x00000000#32, 0#32, 0x00000000#32⟩, /- CUTOFF -/
  ⟨0x100, 16, 16, 0x00000003#32, 0x00000000#32, 0#32, 0x00000000#32⟩, /- FSYNC control -/
  ⟨0x104, 16, 16, 0xFFFFFFFF#32, 0x00000000#32, 0#32, 0x00000000#32⟩, /- FSYNC PERIOD -/
  ⟨0x108, 16, 16, 0xFFFFFFFF#32, 0x00000000#32, 0#32, 0x00000000#32⟩, /- FSYNC PHASE -/
  ⟨0x10C, 16, 16, 0xFFFFFFFF#32, 0x00000000#32, 0#32, 0x00000000#32⟩ /- FSYNC WIDTH -/
]

/-- The registers of the ingest controller. -/
def ingestRows : List RegRow := [
  ⟨0x000, 12, 32, 0xFFFF00F3#32, 0x00000000#32, 0#32, 0x00000000#32⟩, /- camera control -/
  ⟨0x004, 12, 32, 0xFFFFFFFF#32, 0x00000000#32, 0#32, 0x00000000#32⟩, /- camera EXPO_OFFSET -/
  ⟨0x008, 12, 32, 0xFFFFFFFF#32, 0x00000000#32, 0#32, 0x00000000#32⟩, /- camera ASSOC_WINDOW -/
  ⟨0x200, 8, 32, 0xFFFF00F1#32, 0x00000000#32, 0#32, 0x00000000#32⟩, /- lidar control -/
  ⟨0x204, 8, 32, 0xFFFFFFFF#32, 0x00000000#32, 0#32, 0x00000000#32⟩, /- lidar EXPO_OFFSET -/
  ⟨0x208, 8, 32, 0xFFFFFFFF#32, 0x00000000#32, 0#32, 0x00000000#32⟩, /- lidar ASSOC_WINDOW -/
  ⟨0x20C, 8, 32, 0xFFFF0007#32, 0x00000000#32, 0#32, 0x00000000#32⟩, /- lidar source -/
  ⟨0x400, 1, 4, 0xFFFFFFFF#32, 0x00000000#32, 0#32, 0x00000000#32⟩, /- LIDAR_SKEW -/
  ⟨0x410, 2, 4, 0xFFFFFFFF#32, 0x00000000#32, 0#32, 0x00000000#32⟩, /- RING_LO, RING_HI -/
  ⟨0x418, 1, 4, 0x0000FFFF#32, 0x00000000#32, 0#32, 0x00000000#32⟩, /- RING_N -/
  ⟨0x41C, 1, 4, 0x00007FFF#32, 0x00000000#32, 0#32, 0x00000000#32⟩, /- CLOSE_Q -/
  ⟨0x420, 1, 4, 0x00000000#32, 0x00000000#32, 0#32, 0x00000000#32⟩ /- RING_WR -/
]

/-- The registers of the mac controller. -/
def macRows : List RegRow := [
  ⟨0x000, 1, 4, 0x0000001F#32, 0xC0000000#32, 0#32, 0x00000000#32⟩, /- control -/
  ⟨0x004, 1, 4, 0xFFFFFFFF#32, 0x00000000#32, 0#32, 0x00000000#32⟩, /- address low -/
  ⟨0x008, 1, 4, 0x0000FFFF#32, 0x00000000#32, 0#32, 0x00000000#32⟩, /- address high -/
  ⟨0x010, 1, 4, 0xFFFFFFFF#32, 0x00000000#32, 0#32, 0x00000000#32⟩, /- RX_LAT -/
  ⟨0x014, 1, 4, 0xFFFFFFFF#32, 0x00000000#32, 0#32, 0x00000000#32⟩, /- TX_LAT -/
  ⟨0x100, 64, 8, 0x000000FF#32, 0x00000000#32, 0#32, 0x00000000#32⟩, /- gate states -/
  ⟨0x104, 64, 8, 0xFFFFFFFF#32, 0x00000000#32, 0#32, 0x00000000#32⟩ /- gate intervals -/
]

/-- The registers of the pcie controller. -/
def pcieRows : List RegRow := [
  ⟨0x000, 1024, 4, 0xFFFFFFFF#32, 0x00000000#32, 0#32, 0x00000000#32⟩, /- configuration space -/
  ⟨0x1000, 1, 4, 0x00000000#32, 0x00000000#32, 0#32, 0x00000000#32⟩, /- control -/
  ⟨0x1008, 2, 4, 0xFFFFFFFF#32, 0x00000000#32, 0#32, 0x00000000#32⟩ /- outbound base -/
]

/-- The registers of the usb controller. -/
def usbRows : List RegRow := [
  ⟨0x000, 1, 4, 0x00000001#32, 0xC0000000#32, 0#32, 0x00000000#32⟩ /- control -/
]

/-- The registers of the can controller. -/
def canRows : List RegRow := [
  ⟨0x000, 1, 4, 0x00000001#32, 0xC0000000#32, 0#32, 0x00000000#32⟩ /- control -/
]

/-- The registers of the spi controller. -/
def spiRows : List RegRow := [
  ⟨0x000, 4, 256, 0x00000001#32, 0xC0000000#32, 0#32, 0x00000000#32⟩, /- control -/
  ⟨0x004, 4, 256, 0xFFFFFFFF#32, 0x00000000#32, 0#32, 0x00000000#32⟩ /- command -/
]

/-- The registers of the uart controller. -/
def uartRows : List RegRow := [
  ⟨0x000, 2, 4, 0x00000000#32, 0x00000000#32, 0#32, 0x00000000#32⟩ /- TX, RX -/
]

/-- The register table of a block. -/
def Blk.rows : Blk → List RegRow
  | .cell _ => cellRows
  | .perf _ => perfRows
  | .att _ => attRows
  | .loft _ => loftRows
  | .mmu _ => mmuRows
  | .path _ => pathRows
  | .reg b => regRowsOf (if b.val < 4 then 22 else 14)
  | .d2d d => if d.val = 4 then d2dRows else d2dRows.filter (fun r => r.off ≠ 0x20)
  | .cdc d => if d.val < 5 then cdcRows.take 4 else cdcRows
  | .job => jobRows
  | .boot _ => bootRows
  | .pdma _ => pdmaRows
  | .aco => acoRows
  | .safe _ => safeRows
  | .therm => thermRows
  | .hlth => hlthRows
  | .tbase => tbaseRows
  | .ingest => ingestRows
  | .mac _ => macRows
  | .pcie _ => pcieRows
  | .usb => usbRows
  | .can _ => canRows
  | .spi => spiRows
  | .uart => uartRows

/-- Whether offset `o` is one of a row's registers. -/
def RegRow.has (r : RegRow) (o : Nat) : Bool :=
  decide (r.off ≤ o) && decide ((o - r.off) % r.stride = 0) && decide ((o - r.off) / r.stride < r.count)

/-- The row of the register at an offset of a block, or none where the offset is reserved. -/
def Blk.row (b : Blk) (o : Nat) : Option RegRow := b.rows.find? (fun r => r.has o)

/-- The offset of REG_PORT_CFG of the scrub port: port 21 of a compute die, 13 of the hub (R509, R520). -/
def scrubPort (b : Fin 5) : Nat := 0x100 + 8 * (if b.val < 4 then 21 else 13)

/-- Reset values that differ between instances of one block. -/
def resetSpecial (b : Blk) (o : Nat) (dflt : W32) : W32 :=
  match b with
  | .cell c => if o = 0 then BitVec.ofNat 32 (c / 16 * 256 + c % 16) else if o = 0x500 then BitVec.ofNat 32 (c % 2 * 2) else dflt
  | .d2d d => if o = 0 then (if d.val < 4 then 0x117FFF84#32 else if d.val = 4 then 0x117FFF82#32 else 0x117FFF81#32) else dflt
  | .cdc d => if o = 0 then (if d.val < 4 then 0x88#32 else if d.val = 4 then 0x88888888#32 else 0x8#32)
      else if d.val < 5 ∧ 0x100 ≤ o then 0 else dflt
  | .reg b => if o = 4 ∧ b.val = 4 then 16#32 else if o = scrubPort b then dflt ||| 7#32 else dflt
  | .hlth =>
    if o = 0x80 then 1024#32 else if o = 0x84 then 16384#32 else if o = 0x88 then 4096#32 else if o = 0x8C then 65536#32
    else if o = 0x90 then 65536#32 else if o = 0x94 then 1048576#32 else if o = 0x98 then 1024#32 else if o = 0x9C then 16384#32 else dflt
  | _ => dflt

/-- What a register reads as when nothing has written it: its reset value (the Reset column of its table), 0 at a reserved offset. -/
def regReset (pa : Nat) : W32 :=
  match blkOf pa with
  | none => 0
  | some (b, o) => match b.row o with | none => resetSpecial b o 0 | some r => resetSpecial b o r.rst

/-- The stored value of the register at an address. -/
def State.rd (s : State) (pa : Nat) : W32 := sparseGet regReset pa s.regs

/-- Hardware stores a register's value. -/
def State.wr (s : State) (pa : Nat) (v : W32) : State := { s with regs := sparseSet regReset pa v s.regs }

/-- The address of the register at an offset of a block. -/
def Blk.at (b : Blk) (o : Nat) : Nat := b.base + o

/-- A register of a block. -/
def State.reg (s : State) (b : Blk) (o : Nat) : W32 := s.rd (b.at o)

/-- Hardware stores a register of a block. -/
def State.setReg (s : State) (b : Blk) (o : Nat) (v : W32) : State := s.wr (b.at o) v

/-- A field [hi:lo] of a word, as a number. -/
def bits (v : W32) (hi lo : Nat) : Nat := (v.toNat >>> lo) % 2 ^ (hi + 1 - lo)

/-- A word with the field [hi:lo] replaced by the low bits of `x`. -/
def setBits (v : W32) (hi lo x : Nat) : W32 :=
  let m := BitVec.ofNat 32 ((2 ^ (hi + 1 - lo) - 1) <<< lo)
  (v &&& ~~~m) ||| (BitVec.ofNat 32 (x <<< lo) &&& m)

/-- A field of a register of a block. -/
def State.fld (s : State) (b : Blk) (o hi lo : Nat) : Nat := bits (s.reg b o) hi lo

/-- EN of CELL_PAIR_CTRL of the main of a cell's pair: cells 2k and 2k + 1 are paired (R532, R558). -/
def State.pairEn (s : State) (c : Fin 64) : Bool := (s.reg (.cell ⟨c / 2 * 2, by omega⟩) 0x500).getLsbD 0

/-- Hardware sets a field of a register. -/
def State.setFld (s : State) (b : Blk) (o hi lo x : Nat) : State := s.setReg b o (setBits (s.reg b o) hi lo x)

/-- Hardware sets bits of a register (an event bit of a W1C field: R9 keeps the event). -/
def State.orReg (s : State) (b : Blk) (o : Nat) (m : W32) : State := s.setReg b o (s.reg b o ||| m)

/-- Hardware clears bits of a register. -/
def State.clrReg (s : State) (b : Blk) (o : Nat) (m : W32) : State := s.setReg b o (s.reg b o &&& ~~~m)

/-- A counter field that holds at its maximum. -/
def State.count (s : State) (b : Blk) (o hi lo n : Nat) : State :=
  s.setFld b o hi lo (min (s.fld b o hi lo + n) (2 ^ (hi + 1 - lo) - 1))

/-- The value that a software write of `v` leaves in a register that held `old` (R8): RW bits take `v`, a 1 clears a W1C bit and sets a
W1S bit, every other bit stays (R10). -/
def RegRow.write (r : RegRow) (old v : W32) : W32 :=
  ((old &&& ~~~(r.rw ||| r.w1c ||| r.w1s)) ||| (v &&& r.rw)) ||| (old &&& ~~~v &&& r.w1c) ||| ((old ||| v) &&& r.w1s)

end Sys2Proof.Machine
end

