-- ==== Sys2Proof/Machine/Mem.lean ====
section
/-! DEFINITION. Memory: the package physical map (R183 to R187), bytes, error granules (R40, R200 to R202) and byte order (R7). -/

namespace Sys2Proof

/-- The number of a cell: die × 16 + cell. -/
def CellId.num (c : CellId) : Fin 64 := ⟨c.die * 16 + c.idx, by omega⟩

end Sys2Proof

namespace Sys2Proof.Machine

/-- What a byte that nothing has written reads as: 0 (log entry 1). -/
def memDflt (_ : Nat) : Byte := 0

/-- Where the bytes of an address are kept. The checker of a pair replays its main exactly (R533), so the local store, the buffers and the
Shelves of a checker are those of its main: accesses addressed to them are delivered there (log entry 13). -/
def State.home (s : State) (pa : Nat) : Nat :=
  if 0xF000000000 ≤ pa ∧ pa < 0xF400000000 ∧ pa % 0x100000000 < 0x10000000 ∧ pa % 0x1000000 < 0xB00000 ∧ pa / 0x1000000 % 2 = 1 then
    if s.pairEn (Fin.ofNat 64 ((pa - 0xF000000000) / 0x100000000 * 16 + pa % 0x100000000 / 0x1000000)) then pa - 0x1000000 else pa
  else pa

/-- The byte at an address. -/
def State.byte (s : State) (a : Nat) : Byte := sparseGet memDflt (s.home a) s.mem

/-- `n` bytes from an address on. -/
def State.bytes (s : State) (a n : Nat) : List Byte := (List.range n).map (fun i => s.byte (a + i))

/-- Bytes stored from an address on, with no regard to error granules. -/
def putBytes (m : List Host.Cell) (a : Nat) : List Byte → List Host.Cell
  | [] => m
  | b :: r => putBytes (sparseSet memDflt a b m) (a + 1) r

/-- The canonical form of memory: addresses strictly rising, and no entry equal to what an unlisted address reads as. -/
def Memory.wf (m : List Host.Cell) : Bool := sparseWf memDflt none m

/-- A little-endian number (R7). -/
def leNat : List Byte → Nat
  | [] => 0
  | b :: r => b.toNat + 256 * leNat r

/-- `n` little-endian bytes of a number. -/
def toLe : Nat → Nat → List Byte
  | 0, _ => []
  | n + 1, v => BitVec.ofNat 8 v :: toLe n (v / 256)

/-- A signed field of `w` bits. -/
def sgn (w v : Nat) : Int := let u := v % 2 ^ w; if 2 * u < 2 ^ w then (u : Int) else (u : Int) - 2 ^ w

/-- The usable part of a compute die's DRAM, up to 32 GiB, and of the hub's, up to 16 GiB (R21, R184). -/
def cdUsable : Nat := min Config.cdDramBytes (32 * 2 ^ 30) * 31 / 32
def hubUsable : Nat := min Config.hubDramBytes (16 * 2 ^ 30) * 31 / 32

/-- The DRAM window of an address: 0 to 3 for CD0 to CD3, 4 for the hub. -/
def dramWin (pa : Nat) : Option (Fin 5) :=
  if h : pa < 0x5000000000 then some ⟨pa / 0x1000000000, by omega⟩ else none

/-- Whether a DRAM address lies in its window's usable part (R184). -/
def dramOk (pa : Nat) : Bool :=
  match dramWin pa with
  | none => false
  | some w => decide (pa % 0x1000000000 < (if w.val < 4 then cdUsable else hubUsable))

/-- Whether an address lies in an on-chip window or an island window (R183). -/
def onChip (pa : Nat) : Bool := decide (0xF000000000 ≤ pa ∧ pa < 0xF700000000)

/-- Whether an address lies in an island window. -/
def inIsland (pa : Nat) : Bool := decide (0xF500000000 ≤ pa ∧ pa < 0xF700000000)

/-- The Cellar parity region of an island (R187, R563). -/
def inParity (pa : Nat) : Bool :=
  let o := pa % 0x100000000
  inIsland pa && decide (0x86000000 ≤ o ∧ o < 0x86810000)

/-- R183, R185, R187: whether an access of `n` bytes is inside the map for a level and direction. No island window is written: the Cellar parity
region is for PDMA channels alone (R563), which have a check of their own. -/
def rangeOk (user write : Bool) (pa n : Nat) : Bool :=
  let last := pa + n - 1
  (dramOk pa && dramOk last && decide (dramWin pa = dramWin last)) ||
    (onChip pa && onChip last && !user &&
      !(write && (inIsland pa || inIsland last)))

/-- The start of the error granule of an address: 64 bytes of DRAM (R200), a 64-bit word elsewhere (R40). -/
def granuleLen (pa : Nat) : Nat := if pa < 0x5000000000 then 64 else 8
def granule (pa : Nat) : Nat := pa / granuleLen pa * granuleLen pa

/-- The granules that `n` bytes from `pa` touch. -/
def granules (pa n : Nat) : List Nat :=
  if n = 0 then []
  else
    let g := granuleLen pa
    (List.range ((pa + n - 1) / g + 1 - pa / g)).map (fun i => (pa / g + i) * g)

/-- The error state of a granule. -/
def State.eccAt (s : State) (g : Nat) : Ecc := sparseGet (fun _ => Ecc.clean) (s.home g) s.ecc
def State.setEcc (s : State) (g : Nat) (e : Ecc) : State := { s with ecc := sparseSet (fun _ => Ecc.clean) (s.home g) e s.ecc }

/-- A report on its way to both islands over the sideband (R20, R531). -/
def State.report (s : State) (r : Report) : State := { s with inbox := s.inbox.map (fun l => l ++ [r]) }

/-- The cell whose local store holds an address. -/
def lsCell (pa : Nat) : Option (Fin 64) :=
  if 0xF000000000 ≤ pa ∧ pa < 0xF400000000 ∧ pa % 0x100000000 < 0x10000000 ∧ pa % 0x1000000 < 0x600000 then
    some (Fin.ofNat 64 ((pa - 0xF000000000) / 0x100000000 * 16 + pa % 0x100000000 / 0x1000000))
  else none

/-- The identity of the cell with a number. -/
def cellOfNum (c : Fin 64) : CellId := ⟨⟨c / 16, by omega⟩, ⟨c % 16, by omega⟩⟩

/-- What a read does to one granule: a single-bit error is corrected and counted once, a double-bit error is reported and leaves a mark
(R40, R202); a poisoned granule of DRAM is reported at each read, a marked word of a local store is not (R40, R168, R203). -/
def State.touch1 (s : State) (g : Nat) : State :=
  match s.eccAt g with
  | .clean => s
  | .corrected => s
  | .marked => match dramWin g with | some w => s.report (.dram w (Config.dramChannel g) true g) | none => s
  | .single =>
    match dramWin g with
    | some w => (s.setEcc g .clean).report (.dram w (Config.dramChannel g) false g)
    | none =>
      match lsCell g with
      | some c => (s.setEcc g .corrected).count (.cell c) 0x14 15 0 1
      | none => s.setEcc g .clean
  | .double =>
    match dramWin g with
    | some w => (s.setEcc g .marked).report (.dram w (Config.dramChannel g) true g)
    | none =>
      match lsCell g with
      | some c =>
        (((s.setEcc g .marked).orReg (.cell c) 0x10 1#32).setReg (.cell c) 0x18 (BitVec.ofNat 32 (g % 0x1000000 / 64 * 64))).report
          (.lsUe (cellOfNum c))
      | none => s.setEcc g .marked

/-- A read of `n` bytes meets their granules in address order. -/
def State.touch (s : State) (pa n : Nat) : State := (granules (s.home pa) n).foldl State.touch1 s

/-- Whether a read of `n` bytes returns marked data (after `touch`). -/
def State.isMarked (s : State) (pa n : Nat) : Bool := (granules pa n).any (fun g => s.eccAt g == .marked)

/-- The parts of a read of `n` bytes that are marked (after `touch`): offset and length, cut at granules (R168). -/
def State.markedParts (s : State) (pa n : Nat) : List (Nat × Nat) :=
  (granules pa n).filterMap (fun g =>
    if s.eccAt g == .marked then some (g - pa, min (pa + n) (g + granuleLen g) - max pa g) else none)

/-- What a write of bytes `pa` to `pa + n - 1` does to one granule's error state (R40, R168, R202). A write of part of a 64-bit word on chip leaves
an error that no read has met as it was (DESIGN CHOICE, log entry 105). -/
def eccAfterWrite (old : Ecc) (full mark : Bool) : Ecc := if mark then .marked else if full then .clean else old

/-- A write reaches one granule: a DRAM controller first reads a granule that it writes in part (R201). -/
def State.writeGranule (s : State) (full mark : Bool) (g : Nat) : State :=
  let s := if full || (dramWin g).isNone then s else s.touch1 g
  s.setEcc g (eccAfterWrite (s.eccAt g) full mark)

/-! ### Direct stores (R24, R205, R206) -/

/-- The i-th element leaves a list, or is replaced. -/
def removeNth {α : Type} : Nat → List α → List α
  | _, [] => []
  | 0, _ :: r => r
  | n + 1, x :: r => x :: removeNth n r
def setNth {α : Type} : Nat → α → List α → List α
  | _, _, [] => []
  | 0, y, _ :: r => y :: r
  | n + 1, y, x :: r => x :: setNth n y r

/-- The byte that a store holds for an address. -/
def PStore.byteAt (k : PStore) (a : Nat) : Option Byte := if k.pa ≤ a then (k.data[a - k.pa]?).join else none

/-- A store without the bytes that satisfy a condition on their address. -/
def PStore.cut (k : PStore) (f : Nat → Bool) : PStore :=
  { k with data := k.data.zipIdx.map (fun p => if f (k.pa + p.2) then none else p.1) }

/-- Whether two stores have a byte in common. -/
def PStore.meets (k j : PStore) : Bool := k.data.zipIdx.any (fun p => p.1.isSome && (j.byteAt (k.pa + p.2)).isSome)

/-- A write of bytes `pa` to `pa + n - 1` is performed: what the issuers `f` still read in place of those bytes ends, with their earlier stores
of them. -/
def overtake (f : StoreBy → Bool) (pa n : Nat) : List PStore → List PStore
  | [] => []
  | k :: r =>
    let k' := if f k.who then k.cut (fun a => decide (pa ≤ a ∧ a < pa + n) &&
        (k.done || r.any (fun j => j.who == k.who && j.done && (j.byteAt a).isSome))) else k
    if k'.data.any Option.isSome then k' :: overtake f pa n r else overtake f pa n r

/-- The runs of bytes present in a list: offset and bytes. -/
def runsOf : Nat → List (Option Byte) → List (Nat × List Byte)
  | _, [] => []
  | i, none :: r => runsOf (i + 1) r
  | i, some b :: r =>
    match runsOf (i + 1) r with
    | (j, l) :: t => if j = i + 1 then (i, b :: l) :: t else (i, [b]) :: (j, l) :: t
    | [] => [(i, [b])]

/-- A write of bytes, marked or not: the bytes, then the error state of every granule touched. -/
def State.write (s : State) (pa : Nat) (l : List Byte) (mark : Bool := false) : State :=
  let n := l.length
  let s := { s with mem := putBytes s.mem (s.home pa) l, stores := overtake (fun _ => true) (s.home pa) n s.stores }
  (granules pa n).foldl (fun s g => s.writeGranule (decide (pa ≤ g ∧ g + granuleLen g ≤ pa + n)) mark g) s

/-- A free bit drawn by the step. -/
def State.drawBool (s : State) : Bool × State := (Config.freeBool s.free, { s with free := s.free + 1 })

/-- R168, R502: the granules that marked parts of a write touch are marked. -/
def State.markParts (s : State) (pa : Nat) (parts : List (Nat × Nat)) : State :=
  parts.foldl (fun s p => (granules (pa + p.1) p.2).foldl (fun s g => s.setEcc g .marked) s) s

/-- The i-th store is performed. It stays, as performed, while an earlier store of its issuer to the same bytes is not. -/
def State.performStore (s : State) (i : Nat) : State :=
  match s.stores[i]? with
  | none => s
  | some k =>
    if k.done then s
    else
      let older := s.stores.take i
      let clash := older.any (fun j => j.who == k.who && !j.done && j.meets k)
      let older := older.map (fun j => if j.who == k.who && j.done then j.cut (fun a => (k.byteAt a).isSome) else j)
      let stores := overtake (fun w => w != k.who) k.pa k.data.length
        (older ++ (if clash then [{ k with done := true }] else []) ++ s.stores.drop (i + 1))
      let t := (runsOf 0 k.data).foldl (fun (s : State) r => s.write (k.pa + r.1) r.2) s
      { t with stores := stores }.markParts k.pa (k.parts.filter (fun p => ((k.data.drop p.1).take p.2).any Option.isSome))

/-- A direct store is issued: it is performed at once or later, as a free choice says (R205; log entry 22). -/
def State.store (s : State) (w : StoreBy) (pa : Nat) (l : List Byte) (parts : List (Nat × Nat) := []) : State :=
  let s : State := { s with stores := s.stores ++ [⟨w, s.home pa, l.map some, parts, false, false⟩] }
  let (b, s) := s.drawBool
  if b then s.performStore (s.stores.length - 1) else s

/-- Every store of some issuers is performed, oldest first. `fuel` bounds their number. -/
def State.performSome (s : State) (f : PStore → Bool) : Nat → State
  | 0 => s
  | fuel + 1 =>
    match s.stores.findIdx? (fun k => f k && !k.done) with
    | none => s
    | some i => (s.performStore i).performSome f fuel
def State.performAll (s : State) (f : PStore → Bool) : State := s.performSome f s.stores.length

/-- A store of a unit of the hub that is no PDMA channel, behind its earlier ones (R24). -/
def State.unitStore (s : State) (pa : Nat) (l : List Byte) : State := (s.performAll (fun k => k.who == .unit)).store .unit pa l

/-- An acquire at SYS scope: what the hub's units and the PDMA have written is performed before what the engine accesses next (R24, R207, R209). -/
def State.acquire (s : State) (sc : Scope) : State :=
  if sc = .sys then s.performAll (fun k => match k.who with | .eng _ => false | _ => true) else s

/-- A store that waits may be performed: a free choice names one or none. -/
def State.drainStores (s : State) : State :=
  if s.stores.isEmpty then s
  else { s with free := s.free + 1 }.performStore (Config.freeNat s.free % (s.stores.length + 1))

/-- The bytes that an issuer reads: its own latest stores, and memory elsewhere (R205). -/
def State.ownByte (s : State) (w : StoreBy) (a : Nat) : Byte :=
  match s.stores.reverse.findSome? (fun k => if k.who == w then k.byteAt (s.home a) else none) with
  | some b => b
  | none => s.byte a
def State.ownBytes (s : State) (w : StoreBy) (a n : Nat) : List Byte := (List.range n).map (fun i => s.ownByte w (a + i))

/-- The marked parts of what is left of a write after its first `n` bytes. -/
def partsAfter (n : Nat) (parts : List (Nat × Nat)) : List (Nat × Nat) :=
  parts.filterMap (fun p => if p.1 + p.2 ≤ n then none else some (p.1 - n, p.1 + p.2 - max p.1 n))

/-- A regulated port of a REG_ block: what it holds when nothing has changed it (R509, R520). -/
def regPortDflt (k : Nat) : RegPort :=
  let b : Fin 5 := Fin.ofNat 5 (k / 32)
  { count := 0, total := 0, cfg := regReset ((Blk.reg b).at (0x100 + 8 * (k % 32))), budget := regReset ((Blk.reg b).at (0x104 + 8 * (k % 32))), owed := [] }
def State.regPort (s : State) (b : Fin 5) (p : Nat) : RegPort := sparseGet regPortDflt (b.val * 32 + p) s.regPorts
def State.setRegPort (s : State) (b : Fin 5) (p : Nat) (v : RegPort) : State :=
  { s with regPorts := sparseSet regPortDflt (b.val * 32 + p) v s.regPorts }

/-- REG_MODE.MODE reads HOLD (R511, R518). -/
def State.holdMode (s : State) (b : Fin 5) : Bool :=
  s.regHold[b] && !(s.reg (.reg b) 0).getLsbD 8 && (if h : b.val < 4 then (s.tests[b.val]'h).slices.isEmpty else true)

/-- The count of a window has reached its budget; a budget of 0xFF_FFFF is never reached (R510). -/
def RegPort.over (k : RegPort) : Bool := bits k.budget 23 0 != 0xFFFFFF && decide (bits k.budget 23 0 ≤ k.count)

/-- The class of a port, and units granted to it (R514, R520). -/
def State.portClass (s : State) (b : Fin 5) (p : Nat) : Nat := s.fld (.reg b) (0x100 + 8 * p) 2 0
def State.classUnits (s : State) (b : Fin 5) (p u : Nat) : State :=
  let o := 0x40 + 4 * s.portClass b p
  s.setReg (.reg b) o (s.reg (.reg b) o + BitVec.ofNat 32 u)

/-- The cycles in which a port of a class was held or over budget: at least one; how many more the model does not place (R514; log entry 115). -/
def State.classHeld (s : State) (b : Fin 5) (p : Nat) : State :=
  { s with free := s.free + 1 }.count (.reg b) (0x60 + 4 * s.portClass b p) 31 0 (1 + Config.freeNat s.free)

/-- The requests of `n` bytes, each of at most 256: how many of each number of 64-byte units (R510, R513). -/
def requestsOf (n : Nat) : List (Nat × Nat) := [(n / 256, 4), (1, (n % 256 + 63) / 64)].filter (fun r => decide (0 < r.1 * r.2))

/-- The units of requests. -/
def unitsOf (l : List (Nat × Nat)) : Nat := l.foldl (fun a r => a + r.1 * r.2) 0

/-- Requests in order at a port whose count is `room` units below its budget: the units granted, and the requests from the first one that is over
budget on (R510). -/
def grantWithin (room : Nat) : List (Nat × Nat) → Nat × List (Nat × Nat)
  | [] => (0, [])
  | (k, z) :: r =>
    let g := min k ((room + z - 1) / z)
    if g < k then (g * z, (k - g, z) :: r) else ((grantWithin (room - g * z) r).1 + g * z, (grantWithin (room - g * z) r).2)

/-- What a port grants of its held requests and of further ones: in HOLD those within its budget, in LOWER all of them (R510, R511). -/
def RegPort.grant (k : RegPort) (hold : Bool) (l : List (Nat × Nat)) : Nat × RegPort :=
  let l := k.owed ++ l
  let (g, r) := if hold && bits k.budget 23 0 != 0xFFFFFF then grantWithin (bits k.budget 23 0 - k.count) l else (unitsOf l, [])
  (g, { k with count := k.count + g, total := k.total + g, owed := r })

/-- A port grants its held requests and further ones; one that is over budget is held in HOLD, or arbitrated below the others in LOWER, and counts as
HELD in its class (R510, R511, R514). -/
def State.grantAt (s : State) (b : Fin 5) (p : Nat) (l : List (Nat × Nat)) : State :=
  let k := s.regPort b p
  let over_ := !((k.grant true l).2.owed.isEmpty)
  let (g, k) := k.grant (s.holdMode b) l
  let s := (s.setRegPort b p k).classUnits b p g
  if over_ then s.classHeld b p else s

/-- The requests of an access of `n` bytes at a port. -/
def State.charge (s : State) (b : Fin 5) (p n : Nat) : State := s.grantAt b p (requestsOf n)

/-- What ports hold is granted where their block is now in LOWER (R511). -/
def State.grantLower (s : State) : State :=
  s.regPorts.foldl (fun s p =>
    if p.2.owed.isEmpty || s.holdMode (Fin.ofNat 5 (p.1 / 32)) then s else s.grantAt (Fin.ofNat 5 (p.1 / 32)) (p.1 % 32) []) s

/-- A port has held requests; a port has, or would hold the next one (R511). -/
def State.portOwes (s : State) (b : Fin 5) (p : Nat) : Bool := s.holdMode b && !(s.regPort b p).owed.isEmpty
def State.portHeld (s : State) (b : Fin 5) (p : Nat) : Bool := s.holdMode b && ((s.regPort b p).over || !(s.regPort b p).owed.isEmpty)

/-- What comes next waits while a port holds it. -/
def State.unlessHeld (s : State) (b : Fin 5) (p : Nat) (f : State → State) : State := if s.portHeld b p then s.classHeld b p else f s

/-- R544: an access that reaches a unit under test aborts its slice. -/
def State.reach (s : State) (d : Fin 4) (u : Nat) : State :=
  if (s.tests[d]).slices.any (fun r => r.unit.val == u) then
    { s with tests := s.tests.set d { s.tests[d] with slices := (s.tests[d]).slices.filter (fun r => r.unit.val ≠ u) } }
  else s

/-- The local store offset 0 of a cell in the package map. -/
def lsBase (c : CellId) : Nat := cellBase c.num

/-- The unit of R541 that an access to an on-chip address of a compute die reaches: a cell, the path unit, the Loft, or the common logic. -/
def State.reachAt (s : State) (pa : Nat) : State :=
  if 0xF000000000 ≤ pa ∧ pa < 0xF400000000 then
    s.reach (Fin.ofNat 4 ((pa - 0xF000000000) / 0x100000000))
      (if pa % 0x100000000 < 0x10000000 then pa % 0x100000000 / 0x1000000
       else match blkOf pa with | some (.path _, _) => 16 | some (.loft _, _) => 17 | _ => 18)
  else s

/-- The last local store offset (R37). -/
def lsLast : Nat := 0x5FFFFF

/-- Whether `n` bytes at an offset lie in the local store. -/
def lsIn (off n : Nat) : Bool := decide (off + n ≤ lsLast + 1)

/-- A little-endian number of `n` bytes from memory. -/
def State.num (s : State) (pa n : Nat) : Nat := leNat (s.bytes pa n)

end Sys2Proof.Machine
end

