-- ==== Sys2Proof/Machine/Mmu.lean ====
section
/-! DEFINITION. Translation of job virtual addresses (R188 to R198, R225 to R229). -/

namespace Sys2Proof.Machine

/-- The kinds of access that a leaf permits (R192). -/
inductive Acc where
  | read | write | fetch
  deriving DecidableEq, Repr

/-- The outcome of a translation: a page, or a fault with the cause and level of R229 and, for DROPPED, the range word of R193. -/
inductive Trans where
  | page (p : Page)
  | fault (cause level : Nat) (range : W32)
  deriving DecidableEq, Repr

/-- The number of a translation cache entry's page at a level: 1 GiB, 2 MiB, 4 KiB, and level 4 for 64 KiB pages. -/
def tlbShift (level : Nat) : Nat := if level = 1 then 30 else if level = 2 then 21 else if level = 3 then 12 else 16

/-- An entry of a table: from a translation cache, which may hold any entry that a walk has read since it was last invalidated (R196), or from
memory, and the cache then holds that reading too: each cell's own cache may have kept another one. None where the read returns marked data (R191). -/
def State.pte (s : State) (m : Fin 5) (level va ea : Nat) : Option (BitVec 64) × State :=
  let tag := va >>> tlbShift level
  let tlb := s.tlbs[m]
  let fromMem := fun (s : State) =>
    let s := (if m.val < 4 then s.charge m 17 8 else s).touch ea 8
    if s.isMarked ea 8 then (none, s)
    else
      let e := BitVec.ofNat 64 (s.num ea 8)
      let t := s.tlbs[m]
      (some e, { s with tlbs := s.tlbs.set m { t with
        reads := t.reads + 1, entries := if t.entries.contains ⟨level, tag, e⟩ then t.entries else ⟨level, tag, e⟩ :: t.entries } })
  let held := tlb.entries.filter (fun t => decide (t.level = level ∧ t.tag = tag))
  if held.isEmpty then fromMem s
  else
    match held[Config.freeNat s.free % (held.length + 1)]? with
    | some t => (some t.pte, { s with free := s.free + 1 })
    | none => fromMem { s with free := s.free + 1 }

/-- Whether a table may lie at an address: usable DRAM of the walking die, or of the hub (R191). -/
def walkOk (m : Fin 5) (pa n : Nat) : Bool := dramOk pa && dramOk (pa + n - 1) && dramWin pa == some m && dramWin (pa + n - 1) == some m

/-- Whether a page lies in the on-chip window of a compute die other than the walking one. A cell has no path there: no die reads another die's
local store or Shelf (R32), and crates serve DRAM alone (R445); such a leaf raises RANGE (DESIGN CHOICE, log entry 106). -/
def foreignChip (m : Fin 5) (pa : Nat) : Bool := decide (m.val < 4 ∧ 0xF000000000 ≤ pa ∧ pa < 0xF400000000 ∧ (pa - 0xF000000000) / 0x100000000 ≠ m.val)

/-- The checks of a leaf, after its walk: its alignment, its range, its permission (R185, R187, R191, R192). -/
def leafCheck (m : Fin 5) (va size level : Nat) (user : Bool) (acc : Acc) (e : BitVec 64) : Trans :=
  let pa := (e.toNat >>> 12) % 2 ^ 28 * 4096
  if pa % size ≠ 0 then .fault 4 level 0
  else if !rangeOk user (acc == .write) pa size || foreignChip m pa then .fault 5 0 0
  else
    let ok := (match acc with | .read => e.getLsbD 3 | .write => e.getLsbD 4 | .fetch => e.getLsbD 5) && (!user || e.getLsbD 6)
    if ok then .page ⟨va / size * size, pa, size, Fin.ofNat 16 ((e.toNat >>> 8) % 16), e⟩ else .fault 2 level 0

/-- The reserved fields of an entry (R190). -/
def pteReserved (e : BitVec 64) : Bool := e.getLsbD 7 || decide ((e.toNat >>> 40) % 2 ^ 16 ≠ 0)

/-- TYPE, LGRP and the address of an entry. -/
def pteType (e : BitVec 64) : Nat := (e.toNat >>> 1) % 4
def pteLgrp (e : BitVec 64) : Nat := (e.toNat >>> 8) % 16
def ptePa (e : BitVec 64) : Nat := (e.toNat >>> 12) % 2 ^ 28 * 4096

/-- A valid pointer entry at a level, or the fault it raises (R191): a pointer outside the allowed DRAM records its own level. -/
def ptrCheck (m : Fin 5) (level n : Nat) (e : BitVec 64) : Option Trans :=
  if pteReserved e || decide (pteLgrp e ≠ 0) then some (.fault 4 level 0)
  else if walkOk m (ptePa e) n then none else some (.fault 4 level 0)

/-- A level-3 entry (R189, R193). -/
def leaf3 (m : Fin 5) (va size : Nat) (user : Bool) (acc : Acc) (e : BitVec 64) : Trans :=
  if !e.getLsbD 0 then
    if e.getLsbD 1 && size == 0x10000 then .fault 3 3 (BitVec.ofNat 32 (e.toNat >>> 32)) else .fault 1 3 0
  else if pteType e ≠ 2 || pteReserved e then .fault 4 3 0
  else leafCheck m va size 3 user acc e

/-- A translation by the MMU `m` (0 to 3 for CD0 to CD3, 4 for the hub), with the order of checks of R192. -/
def State.translate (s : State) (m : Fin 5) (user : Bool) (acc : Acc) (va : Nat) : Trans × State :=
  let s := if h : m.val < 4 then s.reach ⟨m.val, h⟩ 18 else s
  if s.fld (.mmu m) 0 0 0 = 0 then (.fault 1 0 0, s)
  else
    let root := (s.reg (.mmu m) 4).toNat / 4096 * 4096 + (s.fld (.mmu m) 8 7 0) * 2 ^ 32
    if !walkOk m root 0x200000 then (.fault 4 1 0, s)
    else
      match s.pte m 1 va (root + va / 2 ^ 30 * 8) with
      | (none, s) => (.fault 4 1 0, s)
      | (some e, s) =>
        if !e.getLsbD 0 then (.fault 1 1 0, s)
        else if pteType e ≠ 0 then (.fault 4 1 0, s)
        else match ptrCheck m 1 4096 e with
        | some f => (f, s)
        | none =>
          match s.pte m 2 va (ptePa e + va / 2 ^ 21 % 512 * 8) with
          | (none, s) => (.fault 4 2 0, s)
          | (some e, s) =>
            if !e.getLsbD 0 then (.fault 1 2 0, s)
            else match pteType e with
            | 2 => if pteReserved e then (.fault 4 2 0, s) else (leafCheck m va 0x200000 2 user acc e, s)
            | 0 =>
              match ptrCheck m 2 4096 e with
              | some f => (f, s)
              | none =>
                match s.pte m 3 va (ptePa e + va / 4096 % 512 * 8) with
                | (none, s) => (.fault 4 3 0, s)
                | (some e, s) => (leaf3 m va 4096 user acc e, s)
            | 1 =>
              match ptrCheck m 2 256 e with
              | some f => (f, s)
              | none =>
                match s.pte m 4 va (ptePa e + va / 65536 % 32 * 8) with
                | (none, s) => (.fault 4 3 0, s)
                | (some e, s) => (leaf3 m va 65536 user acc e, s)
            | _ => (.fault 4 2 0, s)

/-- R229: the first translation fault is recorded, a further one sets MULTI. `issuer` is the CELL and ENGINE fields placed. -/
def State.mmuFault (s : State) (m : Fin 5) (cell engine : Nat) (cause level va : Nat) : State :=
  let b := Blk.mmu m
  if s.fld b 0x18 31 31 = 1 then s.orReg b 0x18 0x40000000#32
  else
    ((s.setReg b 0x18 (BitVec.ofNat 32 (0x80000000 + s.fld b 0x18 30 30 * 0x40000000 + cell * 65536 + engine * 256 + level * 16 + cause))
      ).setReg b 0x1C (BitVec.ofNat 32 va)).setReg b 0x20 (BitVec.ofNat 32 (va / 2 ^ 32 % 65536))

/-- The page of a list of translations that holds a virtual address. -/
def pageLookup (pages : List Page) (va : Nat) : Option Page := pages.find? (fun p => decide (p.va ≤ va ∧ va < p.va + p.size))

/-- A virtual address in its page: the physical address, and the bytes from there to the end of the page. -/
def Page.phys (p : Page) (va : Nat) : Nat := p.pa + (va - p.va)
def Page.room (p : Page) (va : Nat) : Nat := p.va + p.size - va

/-- The level of a page's leaf (R189). -/
def Page.level (p : Page) : Nat := if p.size = 0x200000 then 2 else 3

/-- The translation of one virtual address through the pages an operation has translated, extending them (R195, R710): its page and the
pages, or the cause, level and range word of a fault. A page that was translated for another kind of access keeps its leaf, whose permissions are
checked for this one (R192). -/
def State.transIn (s : State) (m : Fin 5) (user : Bool) (acc : Acc) (pages : List Page) (va : Nat) :
    Except (Nat × Nat × W32) (Page × List Page) × State :=
  match pageLookup pages va with
  | some p =>
    match leafCheck m va p.size p.level user acc p.leaf with
    | .page _ => (.ok (p, pages), s)
    | .fault c l r => (.error (c, l, r), s)
  | none =>
    match s.translate m user acc va with
    | (.page p, s) => (.ok (p, p :: pages), s)
    | (.fault c l r, s) => (.error (c, l, r), s)

/-- MMU_TLB_INV removes the entries that KIND and the address cover (R228). -/
def tlbKeep (kind va : Nat) (t : TlbEntry) : Bool :=
  match kind with
  | 1 => decide (t.tag ≠ va >>> tlbShift t.level)
  | 2 => decide (t.tag >>> (32 - tlbShift t.level) ≠ va >>> 32)
  | _ => false

end Sys2Proof.Machine
end

