-- ==== Sys2Proof/Machine/Ops.lean ====
section
/-! DEFINITION. Access to cells, engines and hosts, exceptions and traps (R118, R124 to R130), and the running of one instruction on an
engine: its checks, its issue and the advance of its program counter (R102 to R117, R173 to R181). -/

namespace Sys2Proof.Machine

/-- What a command answers. -/
abbrev Out := Host.Outcome State Fault Refusal

/-! ### Parts of the state -/

def State.cell (s : State) (c : CellId) : Cell := s.cells[c.num]
def State.setCell (s : State) (c : CellId) (x : Cell) : State := { s with cells := s.cells.set c.num x }
def State.modCell (s : State) (c : CellId) (f : Cell → Cell) : State := s.setCell c (f (s.cell c))
def State.modSeq (s : State) (c : CellId) (f : Seq → Seq) : State := s.modCell c (fun x => { x with seq := f x.seq })
def State.slvAt (s : State) (x : SlvId) : Sliver := (s.cell x.cell).slv[x.core]
def State.setSlv (s : State) (x : SlvId) (v : Sliver) : State := s.modCell x.cell (fun c => { c with slv := c.slv.set x.core v })
def State.modSlv (s : State) (x : SlvId) (f : Sliver → Sliver) : State := s.setSlv x (f (s.slvAt x))
def State.modHost (s : State) (h : Fin 8) (f : HostCore → HostCore) : State := { s with hosts := s.hosts.set h (f s.hosts[h]) }

/-- The register block CELL_ of a cell. -/
def cellBlk (c : CellId) : Blk := .cell c.num

/-- A token queue of a cell (R73). -/
def Queue.none : Queue := ⟨[], [], .none, .none⟩
def Cell.queue (c : Cell) (q : Nat) : Queue := sparseGet (fun _ => Queue.none) q c.queues
def Cell.setQueue (c : Cell) (q : Nat) (x : Queue) : Cell := { c with queues := sparseSet (fun _ => Queue.none) q x c.queues }

/-- The cell of an engine. -/
def engCell : Engine → Option CellId
  | .seq c => some c
  | .slv x => some x.cell
  | .host _ => none

/-- The ENGINE field of an engine (R134, R229). -/
def engCode : Engine → Nat
  | .seq _ => 0x40
  | .slv x => x.core
  | .host h => h

/-- The hold of an engine. -/
def State.hold (s : State) : Engine → Hold
  | .seq c => (s.cell c).seq.hold
  | .slv x => (s.slvAt x).hold
  | .host h => s.hosts[h].hold

/-- What holds an engine is replaced; where nothing holds a sequencer any more, the next operation of its bundle does (R174). -/
def Seq.setHold (q : Seq) (k : Hold) : Seq :=
  if k = .none then (match q.later with | [] => { q with hold := .none } | h :: r => { q with hold := h, later := r }) else { q with hold := k }
/-- A sliver core starts to wait, and ends to: its cycles of waiting count for its next issue (R673). -/
def Sliver.waits (v : Sliver) (n : Nat) : Sliver := { v with waitFrom := some (v.waitFrom.getD n) }
def Sliver.setHold (v : Sliver) (n : Nat) (k : Hold) : Sliver :=
  if k = .none then { v with hold := k, waited := v.waited + (n - v.waitFrom.getD n), waitFrom := none } else { v.waits n with hold := k }

def State.setHold (s : State) (e : Engine) (k : Hold) : State :=
  match e with
  | .seq c => s.modSeq c (fun q => q.setHold k)
  | .slv x => let n := (s.cell x.cell).cycle; s.modSlv x (fun v => v.setHold n k)
  | .host h => s.modHost h (fun c => { c with hold := k })

/-- An operation that holds its engine issues: behind another one of its bundle, it waits for that one (R174). -/
def State.pushHold (s : State) (e : Engine) (k : Hold) : State :=
  match e with
  | .seq c => s.modSeq c (fun q => if q.hold = .none then { q with hold := k } else { q with later := q.later ++ [k] })
  | _ => s.setHold e k

/-- The program counter of an engine, as a number. -/
def State.pc (s : State) : Engine → Nat
  | .seq c => (s.cell c).seq.pc.toNat
  | .slv x => (s.slvAt x).pc.toNat
  | .host h => s.hosts[h].pc.toNat

def State.setPc (s : State) (e : Engine) (v : Nat) : State :=
  match e with
  | .seq c => s.modSeq c (fun q => { q with pc := BitVec.ofNat 32 v })
  | .slv x => s.modSlv x (fun k => { k with pc := BitVec.ofNat 32 v })
  | .host h => s.modHost h (fun c => { c with pc := BitVec.ofNat 48 v })

/-- The ST bit of a status code, none for 0 and above 31 (R133). -/
def stBit (code : Nat) : W32 := if code = 0 ∨ 31 < code then 0 else BitVec.ofNat 32 (2 ^ code)

/-- ST bits set when an instruction for which its engine waits completes with a status code of 1 to 31 (R133). -/
def State.setSt (s : State) (e : Engine) (code : Nat) : State :=
  if code = 0 ∨ 31 < code then s
  else
    let m : W32 := stBit code
    match e with
    | .seq c => s.modSeq c (fun q => { q with st := q.st ||| m })
    | .slv x => s.modSlv x (fun k => { k with st := k.st ||| m })
    | .host h => s.modHost h (fun c => { c with st := c.st ||| m })

/-- ST as a STAT of a cycle returns it: without the bits of the statuses that complete in that cycle (R133). -/
def stSeen (st new : W32) (at_ now : Nat) : W32 := if at_ < now then st ||| new else st

/-- ST bits set when an operation completes beside its engine's issue: a status of the cycle of a STAT is not in what that STAT returns, and remains
set (R133). A host core has no ARR cycle. -/
def State.lateSt (s : State) (e : Engine) (code : Nat) : State :=
  let m := stBit code
  match e with
  | .seq c =>
    let n := (s.cell c).cycle
    s.modSeq c (fun q => { q with st := stSeen q.st q.stNew q.stAt n, stNew := if q.stAt < n then m else q.stNew ||| m, stAt := n })
  | .slv x =>
    let n := (s.cell x.cell).cycle
    s.modSlv x (fun q => { q with st := stSeen q.st q.stNew q.stAt n, stNew := if q.stAt < n then m else q.stNew ||| m, stAt := n })
  | .host _ => s.setSt e code

/-- The privilege level of an engine (R121 to R123). -/
def State.level (s : State) : Engine → Level
  | .seq c => (s.cell c).level
  | .slv x => (s.cell x.cell).level
  | .host h => s.hosts[h].level

def Level.code : Level → Nat
  | .user => 0
  | .supervisor => 1
  | .monitor => 3

/-- A status word (R131). -/
def status (code detail : Nat) (late : Bool := false) : W32 :=
  BitVec.ofNat 32 (detail % 65536 * 65536 + (if late then 32768 else 0) + code % 256)

/-- ABORT_LATE and CODE of a status word. -/
def statusCode (w : W32) : Nat := w.toNat % 256

/-! ### Cell pairs -/

/-- Whether a cell is the main or the checker of a pair, and whether it is the checker (R533, R558). -/
def State.pairOn (s : State) (c : CellId) : Bool := s.pairEn c.num
def State.isChecker (s : State) (c : CellId) : Bool := s.pairOn c && decide (c.idx.val % 2 = 1)

/-- The main of a cell that is a checker, the cell itself otherwise (R533, R653). -/
def State.mainOf (s : State) (c : CellId) : CellId := if s.isChecker c then { c with idx := Fin.ofNat 16 (c.idx.val - 1) } else c

/-! ### Exceptions -/

/-- An exception: its cause code (R127) and the address of a data access. -/
structure Exc where
  cause : Nat
  addr : Option Nat
  deriving DecidableEq, Repr

def excIllegal : Exc := ⟨1, none⟩
def excOperand : Exc := ⟨2, none⟩
def excAccess (a : Nat) : Exc := ⟨3, some a⟩
/-- An ACCESS_FAULT and a DATA_ERROR at an offset in a cell, of 32 bits (R137). -/
def excOffset (a : Nat) : Exc := excAccess (a % 2 ^ 32)
def excPriv : Exc := ⟨4, none⟩
def excTrans (a : Nat) : Exc := ⟨5, some a⟩
def excFetch : Exc := ⟨6, none⟩
/-- The fetch fault of an engine: a host core records the address (R125, R126). -/
def excFetchAt (e : Engine) (pc : Nat) : Exc := match e with | .host _ => ⟨6, some pc⟩ | _ => excFetch
def excBreak : Exc := ⟨7, none⟩
def excSyscall : Exc := ⟨8, none⟩
def excData (a : Nat) : Exc := ⟨9, some a⟩

/-- R125: a host core takes a trap to Supervisor or Monitor: return address, cause, information word and saved state are written, the
enable is cleared, the level changes and the core continues at the vector. -/
def HostCore.trap (h : HostCore) (toMon : Bool) (ret : BitVec 48) (cause info : W64) (vecOff : Nat) : HostCore :=
  let r := if toMon then h.mon else h.sup
  let r := (((r.set 1 (ret.setWidth 64)).set 2 cause).set 3 info).set 4
    (BitVec.ofNat 64 (h.level.code + (if r[6].getLsbD 0 then 4 else 0)))
  let r := r.set 6 0
  let h := if toMon then { h with mon := r } else { h with sup := r }
  { h with level := if toMon then .monitor else .supervisor,
           pc := BitVec.ofNat 48 (r[0].toNat / 256 * 256 + vecOff) }

/-- R124: an exception of a host core goes to Monitor from Monitor and to Supervisor otherwise. -/
def HostCore.takeExc (h : HostCore) (x : Exc) (word : W32) : HostCore :=
  h.trap (h.level == .monitor) h.pc (BitVec.ofNat 64 x.cause) (match x.addr with | some a => BitVec.ofNat 64 a | none => word.setWidth 64) 0

/-- An interrupt is raised toward a host core and stays pending until it is taken. -/
def State.raiseIrq (s : State) (h : Fin 8) (num : BitVec 8) (toMon : Bool) : State :=
  s.modHost h (fun c => { c with irq := if c.irq.contains (num, toMon) then c.irq else c.irq ++ [(num, toMon)] })

/-- Exceptions wait in the order in which they are recorded (R129): by the cycle of the fault, the sequencer before the sliver cores and these by
index, the slots of one bundle as they come. -/
def ExcRec.rank (x : ExcRec) : Nat := if x.engine = 0x40 then 0 else x.engine.toNat + 1
def insExc (x : ExcRec) : List ExcRec → List ExcRec
  | [] => [x]
  | y :: r => if x.cycle = y.cycle ∧ x.rank < y.rank then x :: y :: r else y :: insExc x r

/-- R128, R129: an exception of a cell engine halts that engine and waits to be recorded and reported. -/
def State.raise (s : State) (e : Engine) (slot : Fin 4) (pc : Nat) (word : W32) (x : Exc) : State :=
  let rec_ : CellId → ExcRec := fun c =>
    { engine := BitVec.ofNat 7 (engCode e), slot := BitVec.ofNat 2 slot, level := (s.cell c).level, cause := BitVec.ofNat 8 x.cause,
      pc := BitVec.ofNat 16 pc, word := word, addr := x.addr, cycle := (s.cell c).cycle }
  match e with
  | .seq c => s.modCell c (fun k => { k with seq := { k.seq with run := .excHalted }, excQ := insExc (rec_ c) k.excQ })
  | .slv v =>
    (s.modSlv v (fun k => { k with run := .excHalted })).modCell v.cell
      (fun k => { k with excQ := insExc { rec_ v.cell with slot := 0 } k.excQ })
  | .host h => s.modHost h (fun k => k.takeExc x word)

/-- The hub holds debug WRITE scope (R633, R650). -/
def State.dbgWrite (s : State) : Bool := (s.reg (.boot 0) 0xA0).getLsbD 1

/-- A debug halt of every engine of a cell (R649). -/
def Cell.dbgHalt (c : Cell) : Cell :=
  { c with seq := { c.seq with dbg := .halted }, slv := c.slv.map (fun v => { v with dbg := .halted }) }

/-- Whether the comparators are ignored for the next issue of an engine (R650). -/
def State.skipNext (s : State) (e : Engine) (b : Bool) : State :=
  match e with
  | .seq c => s.modSeq c (fun q => { q with skip := b })
  | .slv x => s.modSlv x (fun v => { v with skip := b })
  | .host _ => s

/-- R130, R650: BREAKPOINT is offered to Hatch while WRITE is held: the cell is debug-halted and BKPT_HIT and BKPT record the event.
Otherwise it is an exception. -/
def State.breakpoint (s : State) (e : Engine) (slot : Fin 4) (pc : Nat) (word : W32) (comparator : Nat) : State :=
  match engCell e with
  | none => s.raise e slot pc word excBreak
  | some c =>
    if s.dbgWrite then
      let b := Blk.perf c.num
      let s := s.skipNext e true
      ((s.modCell c Cell.dbgHalt).setFld b 0x404 5 4 comparator).orReg b 0x404 5#32
    else s.raise e slot pc word excBreak

/-! ### Registers -/

/-- An s or h register as an engine reads it, zero-extended to 64 bits; register 0 reads 0 (R109). -/
def State.x (s : State) (e : Engine) (r : Reg) : W64 :=
  if r = 0 then 0
  else match e with
  | .seq c => ((s.cell c).seq.s[r]).setWidth 64
  | .slv v => ((s.slvAt v).s[r]).setWidth 64
  | .host h => s.hosts[h].h[r]

/-- The low word of it. -/
def State.xw (s : State) (e : Engine) (r : Reg) : W32 := (s.x e r).setWidth 32

/-- A pending write kept in the order of R105. -/
def insPendW (w : PendW) : List PendW → List PendW
  | [] => [w]
  | k :: r => if w.key < k.key then w :: k :: r else k :: insPendW w r

/-- One register write taking effect; writes to s0 are discarded (R109). -/
def Seq.put (q : Seq) (r : SReg) (v : BitVec 40) : Seq :=
  match r with
  | .s r => if r = 0 then q else { q with s := q.s.set r (v.setWidth 32) }
  | .a r => { q with a := q.a.set r v }
  | .aHi r => { q with a := q.a.set r ((v >>> 32 <<< 32) ||| ((q.a[r]) &&& 0xFFFFFFFF#40)) }
  | .c r => { q with c := q.c.set r (v.setWidth 24) }

/-- R113: a sequencer's fixed-latency result of latency `lat`, issued now in a slot. -/
def State.later (s : State) (c : CellId) (slot : Fin 4) (lat : Nat) (r : SReg) (v : BitVec 40) : State :=
  let n := (s.cell c).cycle
  s.modSeq c (fun q => { q with pendW := insPendW ⟨n + lat - 1, n * 4 + slot, r, v⟩ q.pendW })

/-- A result written to s[r] or h[r]: at its cycle on a sequencer, at once on the interlocked engines (R113, R117). -/
def State.setX (s : State) (e : Engine) (slot : Fin 4) (lat : Nat) (r : Reg) (v : W64) : State :=
  match e with
  | .seq c => s.later c slot lat (.s r) (v.setWidth 40 &&& 0xFFFFFFFF#40)
  | .slv x => if r = 0 then s else s.modSlv x (fun k => { k with s := k.s.set r (v.setWidth 32) })
  | .host h => if r = 0 then s else s.modHost h (fun k => { k with h := k.h.set r v })

/-- The order key of what a sequencer issues now in a slot (R105): by cycle, then A, V, M, C, highest last. -/
def State.orderKey (s : State) (c : CellId) (slot : Fin 4) : Nat := (s.cell c).cycle * 4 + slot

/-- A variable-latency result: pending on a sequencer until VARIABLE_RESULT_WRITE (R115), written at once elsewhere (R117). -/
def State.setVar (s : State) (e : Engine) (slot : Fin 4) (r : Reg) (v : W32) : State :=
  match e with
  | .seq c => if r = 0 then s else s.modSeq c (fun q => { q with pendV := q.pendV ++ [⟨r, some v, s.orderKey c slot, none, false⟩] })
  | _ => s.setX e 0 1 r (v.setWidth 64)

/-- A variable-latency result whose unit still works: a sequencer holds it as pending, with the read that is still to be made for it. -/
def State.awaitVar (s : State) (e : Engine) (slot : Fin 4) (r : Reg) (read : Option (Nat × Nat × W32) := none) : State :=
  match e with
  | .seq c => if r = 0 then s else s.modSeq c (fun q => { q with pendV := q.pendV ++ [⟨r, none, s.orderKey c slot, read, false⟩] })
  | _ => s

/-- The unit delivers the result awaited for a register. -/
def fillPendV (r : Reg) (v : W32) : List PendV → List PendV
  | [] => []
  | k :: t => if k.reg = r ∧ k.val = none ∧ k.read = none then { k with val := some v } :: t else k :: fillPendV r v t

def State.deliver (s : State) (e : Engine) (r : Reg) (v : W32) : State :=
  match e with
  | .seq c => if r = 0 then s else s.modSeq c (fun q => { q with pendV := fillPendV r v q.pendV })
  | _ => s.setX e 0 1 r (v.setWidth 64)

/-! ### Time of a cell -/

/-- One step of a column's LFSR (R63). -/
def lfsrStep (q : W32) : W32 := if q.getLsbD 0 then (q >>> 1) ^^^ 0x80200003#32 else q >>> 1


/-- The end of an ARR cycle of a sequencer: the writes that are due take effect, in the order of R105. -/
def Seq.endCycle (q : Seq) (n : Nat) : Seq :=
  let q' := (q.pendW.filter (fun w => decide (w.due ≤ n))).foldl (fun q w => q.put w.reg w.val) q
  { q' with pendW := q.pendW.filter (fun w => decide (n < w.due)), pendV := q.pendV.filter (fun v => !v.wr) }

/-- Whether an engine of the cell waits in SWAIT, or a claim waits at one of its slots (R260). An SWAIT whose slot is READY with the expected fills
waits no more (R253, R262). -/
def Cell.swaitOpen (c : Cell) : Hold → Bool
  | .swait n f _ => !((c.slots[n]).st == .ready && (c.slots[n]).fills == f)
  | _ => false
def Cell.swaits (c : Cell) : Bool := c.swaitOpen c.seq.hold || c.slv.any (fun v => c.swaitOpen v.hold)
def Cell.claimsWait (c : Cell) : Bool := c.slots.any (fun k => !k.waiting.isEmpty)

/-! ### Counters (R665 to R669) -/

/-- The event codes that are not reserved (R666). -/
def evCode (v : Nat) : Bool := decide (v < 0x18) || decide (0x20 ≤ v ∧ v < 0x36) || v == 0x40

/-- The largest count of an event in one cycle (R666). -/
def evMax (v : Nat) : Nat :=
  if v = 0x0A then 16 else if v = 0x0B ∨ v = 0x0C then 64 else if v = 0x0D then 32 else if v = 0x0F ∨ v = 0x10 then 65
  else if v = 0x0E ∨ 0x20 ≤ v ∧ v < 0x40 then 4 else 1

def Hold.isGet : Hold → Bool | .get .. => true | _ => false
def Hold.isPut : Hold → Bool | .put .. => true | .putWait _ => true | .putAck _ => true | _ => false

/-- The engines of a cell whose hold satisfies a condition. -/
def Cell.holding (k : Cell) (f : Hold → Bool) : Nat := (if f k.seq.hold then 1 else 0) + k.slv.toList.countP (fun v => f v.hold)

def bit (b : Bool) : Nat := if b then 1 else 0

/-- An issue is held in the current cycle: at a condition of its next issue, or behind an operation that was issued before (R666). -/
def Cell.heldNow (k : Cell) : Bool := decide (0 < k.perf.ev.held) || (k.seq.hold != .none && k.perf.ev.issued == 0)

/-- The count of an event in the current cycle, in the ARR units and in the ARR/2 units of a cell (R666). -/
def Cell.event (k : Cell) (v : Nat) : Nat × Nat :=
  let ev := k.perf.ev
  let n := k.cycle
  let cores := fun (f : Hold → Bool) => k.slv.toList.countP (fun v => f v.hold)
  match v with
  | 0x01 => (ev.issued, 0)
  | 0x02 => (bit k.heldNow, 0)
  | 0x03 => (bit (decide (0 < ev.heldVar)), 0)
  | 0x04 => (bit (decide (0 < ev.heldArr)), 0)
  | 0x05 => (bit (decide (0 < ev.heldBc)), 0)
  | 0x06 => (bit (decide (n < k.gridFree)), 0)
  | 0x07 => (bit (decide (n < k.gridFree) && (match k.passes with | [] => false | p :: _ => (k.halves[p.1]).sp)), 0)
  | 0x08 => (bit (decide (n < k.drainFree)), 0)
  | 0x09 => (bit (decide (n < k.loadFree)), 0)
  | 0x0B => (0, ev.slv)
  | 0x0C => (0, cores (· != .none))
  | 0x0D => (k.moves.length, 0)
  | 0x0E => (k.perf.due.moves, 0)
  | 0x0F => (bit k.seq.hold.isGet, cores Hold.isGet)
  | 0x10 => (bit k.seq.hold.isPut, cores Hold.isPut)
  | 0x11 => (bit k.swaits, 0)
  | 0x12 => (bit k.claimsWait, 0)
  | 0x13 => (k.perf.due.tlb, 0)
  | 0x14 => (0, k.perf.due.hits)
  | 0x15 => (0, k.perf.due.misses)
  | 0x16 => (bit (decide (n < k.attFree)), 0)
  | 0x17 => (k.perf.due.larder, 0)
  | _ => (0, 0)

/-- What a unit that the cells of a die share has done since reset: the units granted at a regulated port, or the probes started (R666). -/
def State.shared (s : State) (d : Fin 4) (v : Nat) : Nat :=
  if 0x20 ≤ v ∧ v < 0x36 then (s.regPort (Fin.ofNat 5 d) (v - 0x20)).total else if v = 0x40 then (s.paths[d]).probes else 0

/-- The count of a counter's event in the current cycle, each within its largest count. The losers of a bank conflict are free (R38; log entry 64). -/
def State.perfEvent (s : State) (c : CellId) (i : Fin 8) (v : Nat) : (Nat × Nat) × State :=
  let p := (s.cell c).perf
  if v = 0x0A then ((Config.freeNat s.free % 17, 0), { s with free := s.free + 1 })
  else if v = 0x40 then ((0, min 1 (s.shared c.die v - p.seen[i])), s)
  else if 0x20 ≤ v then ((min 4 (s.shared c.die v - p.seen[i]), 0), s)
  else let (n, m) := (s.cell c).event v; ((min n (evMax v), min m (evMax v)), s)

/-- One counter in one cycle, and whether it wraps. The count of an ARR/2 unit is added once, in the second of its two ARR cycles (R666). One that does
not count follows its event all the same, for EDGE mode. -/
def State.perfOne (s : State) (c : CellId) (en : Bool) (i : Fin 8) : Bool × State :=
  let b := Blk.perf c.num
  let sel := s.reg b (0x40 + 16 * i)
  let v := bits sel 7 0
  let on := en && sel.getLsbD 31
  let ((n, m), s) := s.perfEvent c i v
  let k := s.cell c
  let done := n + if k.cycle % 2 = 1 then m else 0
  let add := if !on || k.perf.ev.cleared then 0 else if sel.getLsbD 30 then (if 0 < n + m ∧ k.perf.prev[i] = 0 then 1 else 0) else done
  let sum := (k.perf.cnt[i]).toNat + add
  let p := { k.perf with cnt := k.perf.cnt.set i (BitVec.ofNat 48 sum), prev := k.perf.prev.set i (n + m),
                         seen := k.perf.seen.set i (if on && 0x20 ≤ v then k.perf.seen[i] + done else s.shared c.die v) }
  let s := s.setCell c { k with perf := p }
  (decide (2 ^ 48 ≤ sum), if sum < 2 ^ 48 then s else s.orReg b 4 (BitVec.ofNat 32 (2 ^ i.val)))

/-- What counters have passed leaves what is due, after a cycle (R666). -/
def PerfDue.pass (p : PerfDue) (cycle : Nat) : PerfDue :=
  let half := cycle % 2
  { moves := p.moves - 4, larder := p.larder - 1, hits := p.hits - half, misses := p.misses - half, tlb := p.tlb - 1 }

/-- The counters of a cell in one cycle; an overflow under FREEZE_OVF stops them from the next one (R667). Where no event is selected, none is
followed. -/
def State.perfTick (s : State) (c : CellId) : State :=
  let b := Blk.perf c.num
  let ctl := s.reg b 0
  let s := if ctl.getLsbD 0 || s.regs.any (fun p => decide (b.base + 0x40 ≤ p.1 ∧ p.1 < b.base + 0xC0)) then
      let (o, s) := (List.finRange 8).foldl (fun (o, s) i => let (w, s) := State.perfOne s c (ctl.getLsbD 0) i; (o || w, s)) (false, s)
      if ctl.getLsbD 1 && o then s.clrReg b 0 1#32 else s
    else s
  s.modCell c (fun k => { k with perf := { k.perf with
    ev := { PerfEv.none with slv := if k.cycle % 2 = 1 then 0 else k.perf.ev.slv }, due := k.perf.due.pass k.cycle } })

/-- What a cell notes of an issue or a held issue in its current cycle. -/
def State.note (s : State) (c : CellId) (f : PerfEv → PerfEv) : State :=
  s.modCell c (fun k => { k with perf := { k.perf with ev := f k.perf.ev } })

/-- What a cell's unit has done, for its counters. -/
def State.perfDue (s : State) (c : CellId) (f : PerfDue → PerfDue) : State :=
  s.modCell c (fun k => { k with perf := { k.perf with due := f k.perf.due } })

/-- A translation for a cell that had to read an entry from memory missed its translation cache (R196, R666). -/
def State.missNoted {α : Type} (s : State) (c : CellId) (r : α × State) : α × State :=
  let m : Fin 5 := Fin.ofNat 5 c.die
  if (r.2.tlbs[m]).reads = (s.tlbs[m]).reads then r else (r.1, r.2.perfDue c (fun p => { p with tlb := p.tlb + 1 }))

/-- The ARR cycles for which the issue that an engine now makes was held (R673). -/
def State.heldFor (s : State) : Engine → Nat
  | .seq c => (s.cell c).seq.waited
  | .slv x => let v := s.slvAt x; let n := (s.cell x.cell).cycle; v.waited + (n - v.waitFrom.getD n)
  | .host _ => 0

/-- R669: an issue of the sampled engine is a candidate for a tag. -/
def State.sample (s : State) (e : Engine) : State :=
  match engCell e with
  | none => s
  | some c =>
    let b := Blk.perf c.num
    let ctl := s.reg b 0x100
    let src := if 0x40 < bits ctl 14 8 then 0x40 else bits ctl 14 8
    if !ctl.getLsbD 31 || src != engCode e then s
    else
      let p := (s.cell c).perf
      let l := lfsrStep p.lfsr
      let kk := max 4 (min 20 (bits ctl 20 16))
      let s := s.modCell c (fun k => { k with perf := { k.perf with lfsr := l } })
      if l.toNat % 2 ^ kk ≠ 0 then s
      else match p.tagged with
      | some _ => s.count b 0x108 31 16 1
      | none => s.modCell c (fun k => { k with perf := { k.perf with
          tagged := some ⟨BitVec.ofNat 32 (src * 65536 + s.pc e % 65536), k.cycle, s.heldFor e⟩ } })

/-- `n` ARR cycles of a cell pass: due writes, the cycle counters, the wait counts of R260 and the counters. -/
def State.tick (s : State) (c : CellId) : Nat → State
  | 0 => s
  | n + 1 =>
    let k := s.cell c
    let s := if k.swaits then s.count (cellBlk c) 0x210 31 0 1 else s
    let s := if k.claimsWait then s.count (cellBlk c) 0x214 31 0 1 else s
    let w := k.seq.waited + bit k.heldNow
    let s := (s.perfTick c).modCell c (fun k => { k with seq := { k.seq.endCycle k.cycle with waited := w }, cycle := k.cycle + 1 })
    s.tick c n

/-! ### Running one instruction -/

/-- Where an engine goes after an instruction. -/
inductive Flow where
  /-- The next bundle or instruction, subject to a loop end (R180). -/
  | fall
  /-- The next one, with the idle cycles of IFENCE (R173). -/
  | fallIdle
  /-- A taken branch (R116, R179, R181). -/
  | jump (t : Nat)
  /-- The engine stops (R177). -/
  | stop
  deriving DecidableEq, Repr

/-- The outcome of a use: a value, or the exception with the state that the accesses before it left. -/
abbrev Ex (α : Type) := Except (State × Exc) α

abbrev Res := Ex (State × Flow)

/-- An instruction on one engine: its slot on a sequencer, its size in words, its legality, the s registers it reads or writes (R115),
the checks at decode, the conditions that hold its issue, and its effect. -/
structure Op where
  slot : Fin 4
  ext : Bool := false
  legal : Bool := true
  uses : List Reg := []
  check : State → Option Exc := fun _ => none
  holds : State → Bool := fun _ => false
  act : State → Res

/-- The slot in which an instruction stands: an extended one of slot A's class stands in slot V, with its second word in A (R103). -/
def Op.stands (o : Op) : Fin 4 := if o.ext && o.slot == 3 then 2 else o.slot

/-- The bytes that one issue fetches: a bundle, or an instruction with its extension word if it has one (R90, R91, R94). -/
def issueBytes (e : Engine) (ext : Bool) : Nat := match e with | .seq _ => 16 | _ => if ext then 8 else 4

/-- The dies of a job image (R410). -/
def State.jobDies (s : State) (img : Nat) : Nat := s.num (img + 0x10) 4 / 256 % 16

/-- The engine stands at one of the switch points of the running job (R418). -/
def State.atPoint (s : State) (c : CellId) (code pc : Nat) : Bool := (Config.switchPoints s.job.cur c.num code).contains pc

/-- R418, R419, R422, R429: the running job is being stopped, and an engine of it issues nothing more: at its next issue in immediate mode, at a
switch point in boundary mode. -/
def State.stopping (s : State) (e : Engine) : Bool :=
  match engCell e with
  | none => false
  | some c =>
    s.job.stop.isSome && (s.jobDies s.job.cur).testBit c.die && (s.job.imm ||
      (match e with
       | .slv x => !(s.slvAt x).bcast && s.atPoint c (engCode e) (s.pc e)
       | _ => s.atPoint c (engCode e) (s.pc e)))

/-- FENCED of a compute die (R466), and its clocks stopped on purpose by an island's line for its ARR or MEM domain (R458, R580). -/
def State.fenced (s : State) (d : Fin 7) : Bool := decide (d.val < 4) && (s.reg (.d2d 4) 0x20).getLsbD d
def State.clkStopped (s : State) (d : Fin 4) : Bool :=
  s.isl.toList.any (fun (k : Island) => k.clkStop.any (fun q => q.val == d.val || q.val == 4 + d.val))

/-- What a compute die's units do by themselves they do only while its clocks run (R458, R580). -/
def State.onDie (s : State) (d : Fin 4) (f : State → State) : State := if s.clkStopped d then s else f s
def State.onDie5 (s : State) (d : Fin 5) (f : State → State) : State := if h : d.val < 4 then s.onDie ⟨d.val, h⟩ f else f s
def State.onEngine (s : State) (e : Engine) (f : State → State) : State :=
  match engCell e with
  | some c => s.onDie c.die f
  | none => f s

/-- Engines of a fenced die, or of one whose clocks stand, issue nothing (R458, R580). -/
def State.dieStands (s : State) (e : Engine) : Bool :=
  match engCell e with
  | some c => s.fenced (c.die.castLE (by omega)) || s.clkStopped c.die
  | none => false

/-- Whether an engine may issue: the part not held in reset (R589), and the engine not halted, not held, not stopped. A sequencer of a new job keeps STOP until its first bundle (R138). A sliver core in broadcast mode takes its own stream no further. -/
def State.able (s : State) (e : Engine) : Bool :=
  s.pwrok && !s.stopping e && !s.dieStands e &&
  match e with
  | .seq c =>
    let k := s.cell c
    let q := k.seq
    (q.run == .idle || (q.run == .running && q.stop == 0)) && q.hold == .none && q.later.isEmpty && q.dbg != .halted && !k.pairStopped && !s.isChecker c
  | .slv x =>
    let k := s.cell x.cell
    let v := s.slvAt x
    v.run == .running && v.hold == .none && v.dbg != .halted && !(k.seq.run == .running && k.seq.stop != 0) && !k.pairStopped && !s.isChecker x.cell
  | .host h => !s.hosts[h].waiting && s.hosts[h].hold == .none

/-- The fetch of `n` bytes at the program counter lies in the engine's buffer, aligned (R90, R91, R96, R179). -/
def fetchOk (e : Engine) (pc n : Nat) : Bool :=
  match e with
  | .seq _ => decide (pc % 16 = 0 ∧ pc + 16 ≤ 0x10000)
  | .slv _ => decide (pc % 4 = 0 ∧ pc + n ≤ 0x2000)
  | .host _ => decide (pc % 4 = 0)

/-- The breakpoint comparator that matches an engine's next issue (R650). -/
def State.bkptMatch (s : State) (e : Engine) : Option Nat :=
  match engCell e with
  | none => none
  | some c =>
    let skip := match e with | .seq c => (s.cell c).seq.skip | .slv x => (s.slvAt x).skip | .host _ => true
    if skip then none
    else (List.range 4).find? (fun i =>
      let v := s.reg (.perf c.num) (0x410 + 4 * i)
      v.getLsbD 31 && decide (bits v 22 16 = engCode e) && decide (bits v 15 0 = s.pc e))

/-- Whether a loop's body holds an offset. -/
def Loop.holds (l : Loop) (t : Nat) : Bool := decide (l.first.toNat ≤ t ∧ t ≤ l.last.toNat)

/-- R180: at the end of a body, innermost loop first, the counter is decremented; the engine returns to the first bundle, or the loop ends
and the enclosing one is tested if it ends at the same place. The counters, the loops left and the next offset are the result. -/
def loopEnd (at_ nxt : Nat) : List Loop → Vector (BitVec 24) 4 → List Loop × Vector (BitVec 24) 4 × Nat
  | [], cs => ([], cs, nxt)
  | l :: r, cs =>
    if l.last.toNat = at_ then
      let v := cs[l.n] - 1
      let left := cs.set l.n v
      if v ≠ 0 then (l :: r, left, l.first.toNat) else loopEnd at_ nxt r left
    else (l :: r, cs, nxt)

/-- The advance of an engine after an instruction at its program counter. A HALT in the last place of a loop's body stops the engine before the
loop's counter is looked at, with the program counter behind it (R177, R180; DESIGN CHOICE, log entry 75). -/
def State.advance (s : State) (e : Engine) (bytes : Nat) (f : Flow) : State :=
  let pc := s.pc e
  match e with
  | .seq c =>
    match f with
    | .jump t => s.modSeq c (fun q => { q with pc := BitVec.ofNat 32 t, loops := q.loops.filter (fun l => l.holds t) })
    | .stop => s.modSeq c (fun q => { q with pc := BitVec.ofNat 32 (pc + bytes), run := .halted })
    | _ => s.modSeq c (fun q =>
        let (ls, cs, n) := loopEnd pc (pc + bytes) q.loops q.c
        { q with loops := ls, c := cs, pc := BitVec.ofNat 32 n })
  | .slv x =>
    match f with
    | .jump t => s.modSlv x (fun q => { q with pc := BitVec.ofNat 32 t, loops := q.loops.filter (fun l => l.holds t) })
    | .stop => s.modSlv x (fun q => { q with pc := BitVec.ofNat 32 (pc + bytes), run := .halted })
    | _ => s.modSlv x (fun q =>
        let (ls, cs, n) := loopEnd pc (pc + bytes) q.loops q.c
        { q with loops := ls, c := cs, pc := BitVec.ofNat 32 n })
  | .host h =>
    match f with
    | .jump t => s.modHost h (fun q => { q with pc := BitVec.ofNat 48 t })
    | .stop => s.modHost h (fun q => { q with pc := BitVec.ofNat 48 (pc + bytes), waiting := true })
    | _ => s.modHost h (fun q => { q with pc := BitVec.ofNat 48 (pc + bytes) })

/-- An exception that an instruction raises at its issue; BRK is offered to Hatch while WRITE is held, and the engine then continues after
it (R130, R650). -/
def State.fail (s : State) (e : Engine) (slot : Fin 4) (pc : Nat) (word : W32) (bytes : Nat) (x : Exc) : State :=
  match engCell e with
  | some c =>
    if x.cause = 7 ∧ s.dbgWrite then (((s.advance e bytes .fall).skipNext e false).modCell c Cell.dbgHalt).orReg (.perf c.num) 0x404 5#32
    else s.raise e slot pc word x
  | none => s.raise e slot pc word x

/-- The cycles that an issue takes on a sequencer: 2 idle ones follow a taken branch and IFENCE (R116, R173). -/
def Flow.cycles : Flow → Nat
  | .jump _ => 3
  | .fallIdle => 3
  | _ => 1

/-- An issue is a candidate for a tag, counts, and reaches the cell and its checker (R544, R666, R669); it ends what held it. An exception that is found
after issue follows it (R128). -/
def State.noteIssue (s : State) (e : Engine) : State :=
  let s := s.sample e
  let s := match engCell e with
    | some c => let s := s.reach c.die c.idx; if s.pairOn c then s.reach c.die (c.idx + 1) else s
    | none => s
  match e with
  | .seq c => (s.note c (fun v => { v with issued := v.issued + 1 })).modSeq c (fun q => { q with waited := 0 })
  | .slv x => (s.note x.cell (fun v => { v with slv := v.slv + 1 })).modSlv x (fun q => { q with
      waited := 0, waitFrom := if q.hold = .none then none else some (s.cell x.cell).cycle })
  | .host _ => s

/-- What an issue leaves of the debug state: a stepped engine halts again, a skipped comparator counts again (R649, R650). -/
def State.issued (s : State) (e : Engine) : State :=
  let s := s.noteIssue e
  match e with
  | .seq c => s.modSeq c (fun q => { q with
      dbg := if q.dbg = .step then .halted else q.dbg, skip := false,
      stop := if q.run = .idle then 0 else q.stop, run := if q.run = .idle then .running else q.run })
  | .slv x => s.modSlv x (fun q => { q with dbg := if q.dbg = .step then .halted else q.dbg, skip := false })
  | .host _ => s

/-- R115: a bundle that reads or writes a register with a variable-latency result pending is held. -/
def State.pendsOn (s : State) (e : Engine) (uses : List Reg) : Bool :=
  match e with
  | .seq c => (s.cell c).seq.pendV.any (fun p => uses.contains p.reg)
  | _ => false

/-- A sliver core in broadcast mode executes nothing of its own stream (R108). -/
def State.inBcast (s : State) : Engine → Bool
  | .slv x => (s.slvAt x).bcast
  | _ => false

/-- What follows an instruction that has taken effect: the issue is noted, the engine advances, and a sequencer's cycles pass. -/
def State.retire (s : State) (e : Engine) (bytes : Nat) (f : Flow) : State :=
  let s := (s.issued e).advance e bytes f
  match e with
  | .seq c => s.tick c f.cycles
  | _ => s

/-- The word of NOP (R177), which the other slots of the bundle of one instruction hold. -/
def nopWord : W32 := 0xF0000000#32

/-- The word of slot C of the bundle of one instruction, or the word of an instruction of another engine. -/
def slotC (e : Engine) (slot : Fin 4) (word : W32) : W32 :=
  match e with
  | .seq _ => if slot = 0 then word else nopWord
  | _ => word

/-- A fetch fails (R90, R96, R136, R179): one outside a sliver core's buffer also sets IBUF_FETCH; the word is recorded where the first one was
fetched, and is 0 where none was; the slot of a sequencer's, which belongs to the whole bundle, is 0 (DESIGN CHOICE, log entry 63). -/
def State.fetchFault (s : State) (e : Engine) (pc bytes : Nat) (word : W32) : State :=
  match e with
  | .slv x =>
    let s := if 0x2000 < pc + bytes then (s.orReg (cellBlk x.cell) 0x10 0x10#32).report (.ibufFetch x.cell) else s
    s.raise e 0 pc (if fetchOk e pc 4 then word else 0) excFetch
  | _ => s.raise e 0 pc 0 (excFetchAt e pc)

/-- One instruction on an engine: on a sequencer, a bundle that holds it and NOPs. Nothing happens where the engine cannot issue; a held
bundle lets one ARR cycle pass; a check that fails raises its exception; otherwise the instruction takes effect. -/
def runOp (e : Engine) (word : W32) (op : Op) (s : State) : State :=
  if !s.able e || s.inBcast e then s
  else
    let pc := s.pc e
    let bytes := issueBytes e op.ext
    if !fetchOk e pc bytes then s.fetchFault e pc bytes word
    else match s.bkptMatch e with
    | some i => s.breakpoint e 0 pc (slotC e op.stands word) i
    | none =>
      if !op.legal then s.raise e op.stands pc word excIllegal
      else match op.check s with
      | some x => s.fail e op.stands pc word bytes x
      | none =>
        let v := s.pendsOn e op.uses
        if v || op.holds s then
          (match e with
           | .seq c => (s.note c (fun k => { k with held := k.held + 1, heldVar := k.heldVar + bit v,
                                                    heldArr := k.heldArr + bit (op.slot == 3 && op.holds s) })).tick c 1
           | .slv x => s.modSlv x (fun k => k.waits (s.cell x.cell).cycle)
           | .host _ => s)
        else match op.act s with
        | .error (s', x) => (s'.noteIssue e).fail e op.stands pc word bytes x
        | .ok (s', f) => s'.retire e bytes f

/-- A sliver core in broadcast mode executes the oldest entry of its queue when the command is that entry, and nothing else (R108). A fault of the
entry records the program counter of the core's own stream (R135; DESIGN CHOICE, log entry 63). -/
def runVec (x : SlvId) (word : W32) (op : Op) (s : State) : State :=
  let v := s.slvAt x
  if v.bcast then
    match v.bq with
    | [] => s
    | w :: r =>
      if w ≠ word || !s.able (.slv x) then s
      else
        let pc := s.pc (.slv x)
        match op.check s with
        | some e => s.raise (.slv x) op.slot pc word e
        | none =>
          match op.act s with
          | .error (s', e) => (s'.noteIssue (.slv x)).raise (.slv x) op.slot pc word e
          | .ok (s', _) => (s'.issued (.slv x)).modSlv x (fun k => { k with bq := r })
  else runOp (.slv x) word op s

end Sys2Proof.Machine
end

