-- ==== Sys2Proof/Machine/Operands.lean ====
section
/-! DEFINITION. The operand forms: scalar operations of 32 and 64 bits (R100, R142), address registers (R109, R111), predicates and lanes
(R110, R150), local store accesses of an engine (R118, R147, R157). -/

namespace Sys2Proof.Machine

/-- The engines of a table column (R140). -/
def isSeq : Engine → Bool | .seq _ => true | _ => false
def isHost : Engine → Bool | .host _ => true | _ => false
def isSlv : Engine → Bool | .slv _ => true | _ => false

/-- An operation defined at every width. -/
abbrev BinFn := (n : Nat) → BitVec n → BitVec n → BitVec n

/-- R100, R142: 64 bits on a host core, or 32 bits with the result sign-extended; 32 bits elsewhere. -/
def scalarVal (e : Engine) (w : Bool) (f : BinFn) (a b : W64) : W64 :=
  if isHost e && !w then f 64 a b
  else
    let r := f 32 (a.setWidth 32) (b.setWidth 32)
    if isHost e then r.signExtend 64 else r.setWidth 64

/-- A scalar operation of two registers. -/
def opScalar (e : Engine) (w : Bool) (d a b : Reg) (lat : Nat) (legal : Bool) (f : BinFn) : Op :=
  { slot := 2, legal := legal && (isHost e || !w), uses := [d, a, b],
    act := fun s => .ok (s.setX e 2 lat d (scalarVal e w f (s.x e a) (s.x e b)), .fall) }

/-- A scalar operation of a register and a value. -/
def opScalarImm (e : Engine) (w : Bool) (d a : Reg) (k : W64) (lat : Nat) (legal : Bool) (f : BinFn) : Op :=
  { slot := 2, legal := legal && (isHost e || !w), uses := [d, a],
    act := fun s => .ok (s.setX e 2 lat d (scalarVal e w f (s.x e a) k), .fall) }

/-- An address register named by a field; values 16 to 31 raise ILLEGAL_OPERAND (R109). -/
def areg (r : Reg) : Option (Fin 16) := if h : r.val < 16 then some ⟨r, h⟩ else none
def aregBad (r : Reg) : Bool := decide (16 ≤ r.val)

/-- The value of an address register. -/
def State.av (s : State) (c : CellId) (r : Reg) : BitVec 40 := (s.cell c).seq.a[Fin.ofNat 16 r]

/-- An address-register operation that writes a[d] (R148). -/
def opAddr (c : CellId) (d : Reg) (uses : List Reg) (bad : Bool) (f : State → BitVec 40) : Op :=
  { slot := 2, uses := uses, check := fun _ => if bad || aregBad d then some excOperand else none,
    act := fun s => .ok (s.later c 2 2 (.a (Fin.ofNat 16 d)) (f s), .fall) }

end Sys2Proof.Machine

namespace Sys2Proof

/-- The number of bytes of a lane. -/
def LaneFmt.bytes : LaneFmt → Nat
  | .i8 => 1
  | .i16 => 2
  | .i32 => 4
  | .bf16 => 2
  | .f16 => 2
  | .f32 => 4

end Sys2Proof

namespace Sys2Proof.Machine

/-- Field j of `w` bits of a vector register. -/
def lane (w : Nat) (v : W256) (j : Nat) : BitVec w := BitVec.ofNat w (v.toNat >>> (j * w))

/-- A vector register from `n` fields of `w` bits. -/
def ofLanes (w n : Nat) (f : Nat → BitVec w) : W256 :=
  BitVec.ofNat 256 ((List.range n).foldl (fun acc j => acc + (f j).toNat * 2 ^ (j * w)) 0)

/-- R110: the bytes of the lanes that a predicate allows; the bit of a lane's lowest byte decides for the lane. -/
def predMask (p : W32) (bytes : Nat) : W256 :=
  ofLanes 8 32 (fun i => if p.getLsbD (i / bytes * bytes) then 0xFF#8 else 0#8)

/-- A destination with only its allowed lanes written. -/
def mergePred (p : W32) (bytes : Nat) (old new : W256) : W256 :=
  let m := predMask p bytes
  (new &&& m) ||| (old &&& ~~~m)

/-- A predicate register; p0 reads as all ones (R109). -/
def State.pr (s : State) (x : SlvId) (p : Fin 8) : W32 := if p = 0 then 0xFFFFFFFF#32 else (s.slvAt x).p[p]
def State.vr (s : State) (x : SlvId) (r : Reg) : W256 := (s.slvAt x).v[r]
def State.setVr (s : State) (x : SlvId) (r : Reg) (v : W256) : State := s.modSlv x (fun k => { k with v := k.v.set r v })
/-- Writes to p0 are discarded (R109). -/
def State.setPr (s : State) (x : SlvId) (r : Nat) (v : W32) : State :=
  if r = 0 then s else s.modSlv x (fun k => { k with p := k.p.set (Fin.ofNat 8 r) v })

/-- The s register of a sliver core, as a word. -/
def State.sv (s : State) (x : SlvId) (r : Reg) : W32 := s.xw (.slv x) r

/-- A vector operation of a sliver core that writes v[d] under a predicate, with lanes of `bytes` bytes. -/
def opVec (x : SlvId) (p : Fin 8) (d : Reg) (bytes : Nat) (legal : Bool) (f : State → W256) : Op :=
  { slot := 2, legal := legal, act := fun s => .ok (s.setVr x d (mergePred (s.pr x p) bytes (s.vr x d) (f s)), .fall) }

/-- The cell of a cell engine. -/
def cellOf (e : Engine) : CellId := (engCell e).getD ⟨0, 0⟩

/-- A read of the local store by an engine: a misaligned or outside access raises ACCESS_FAULT, marked data DATA_ERROR (R118). -/
def State.lsRead (s : State) (e : Engine) (off n : Nat) (aligned : Bool := true) : Ex (Nat × State) :=
  if (aligned && off % n != 0) || !lsIn off n then .error (s, excOffset off)
  else
    let pa := lsBase (cellOf e) + off
    let s := s.touch pa n
    if s.isMarked pa n then .error (s, excData off) else .ok (leNat (s.ownBytes (.eng e) pa n), s)

/-- A write of the local store by an engine (R118). -/
def State.lsWrite (s : State) (e : Engine) (off n v : Nat) : Ex State :=
  if off % n != 0 || !lsIn off n then .error (s, excOffset off) else .ok (s.store (.eng e) (lsBase (cellOf e) + off) (toLe n v))

/-- The value that a load of `n` bytes writes: zero- or sign-extended (R147). -/
def loadVal (n v : Nat) (u : Bool) : W64 := if u then BitVec.ofNat 64 v else BitVec.ofInt 64 (sgn (8 * n) v)

/-- A byte offset formed from s[a] and a signed displacement, in 32 bits. -/
def offAdd (b : W32) (d : Int) : Nat := (b + BitVec.ofInt 32 d).toNat

end Sys2Proof.Machine
end

