-- ==== Sys2Proof/Machine/Flags.lean ====
section
/-! DEFINITION. The sticky arithmetic conditions of a cell (R58, R84) and of the attention unit (R301). -/

namespace Sys2Proof.Machine

/-- Bits of CELL_ARITH_FLAGS (R84). -/
def afIntSat : W32 := 1#32
def afFpOvf : W32 := 2#32
def afAccNan : W32 := 4#32
def afDrainSat : W32 := 8#32
def afDrainNan : W32 := 16#32
def afSparseIdx : W32 := 32#32
def afScaleNan : W32 := 64#32

/-- Sets conditions of CELL_ARITH_FLAGS. -/
def State.arith (s : State) (c : CellId) (m : W32) : State := if m = 0 then s else s.orReg (cellBlk c) 0x00C m

/-- Sets conditions of ATT_FLAGS: bit 0 ROW_NAN, 1 POS_INF, 2 KV_DROPPED. -/
def State.attFlag (s : State) (c : CellId) (m : W32) : State := if m = 0 then s else s.orReg (.att c.num) 0x000 m

end Sys2Proof.Machine
end

