-- ==== Sys2Proof/Machine/Scalar.lean ====
section
/-! DEFINITION. Scalar integer and logical instructions (R143, R144), immediates (R146), address registers (R148) and LI (R182). -/

namespace Sys2Proof.Machine

/-- R143: the high bits of a signed and of an unsigned product. -/
def fnMulh : BinFn := fun n a b => BitVec.ofInt n (a.toInt * b.toInt / 2 ^ n)
def fnMulhu : BinFn := fun n a b => BitVec.ofNat n (a.toNat * b.toNat / 2 ^ n)
/-- R144: division toward zero; a divisor of zero gives all ones. -/
def fnDiv : BinFn := fun _ a b => if b = 0 then -1 else a.sdiv b
def fnDivu : BinFn := fun _ a b => if b = 0 then -1 else a.udiv b
def fnRem : BinFn := fun _ a b => if b = 0 then a else a.srem b
def fnRemu : BinFn := fun _ a b => if b = 0 then a else a.umod b
/-- R143: shifts by the low bits of the amount. -/
def fnSll : BinFn := fun n a b => a <<< (b.toNat % n)
def fnSrl : BinFn := fun n a b => a >>> (b.toNat % n)
def fnSra : BinFn := fun n a b => a.sshiftRight (b.toNat % n)
def fnBool (c : (n : Nat) → BitVec n → BitVec n → Bool) : BinFn := fun n a b => if c n a b then 1 else 0
def fnMin : BinFn := fun _ a b => if a.slt b then a else b
def fnMax : BinFn := fun _ a b => if a.slt b then b else a
def fnMinu : BinFn := fun _ a b => if a.ult b then a else b
def fnMaxu : BinFn := fun _ a b => if a.ult b then b else a

def opAdd (e : Engine) (w : Bool) (d a b : Reg) : Op := opScalar e w d a b 1 true (fun _ x y => x + y)
def opSub (e : Engine) (w : Bool) (d a b : Reg) : Op := opScalar e w d a b 1 true (fun _ x y => x - y)
def opMul (e : Engine) (w : Bool) (d a b : Reg) : Op := opScalar e w d a b 3 true (fun _ x y => x * y)
def opMulh (e : Engine) (w : Bool) (d a b : Reg) : Op := opScalar e w d a b 3 true fnMulh
def opMulhu (e : Engine) (w : Bool) (d a b : Reg) : Op := opScalar e w d a b 3 true fnMulhu
def opDiv (e : Engine) (w : Bool) (d a b : Reg) : Op := opScalar e w d a b 18 (!isSeq e) fnDiv
def opDivu (e : Engine) (w : Bool) (d a b : Reg) : Op := opScalar e w d a b 18 (!isSeq e) fnDivu
def opRem (e : Engine) (w : Bool) (d a b : Reg) : Op := opScalar e w d a b 18 (!isSeq e) fnRem
def opRemu (e : Engine) (w : Bool) (d a b : Reg) : Op := opScalar e w d a b 18 (!isSeq e) fnRemu
def opAnd (e : Engine) (w : Bool) (d a b : Reg) : Op := opScalar e w d a b 1 true (fun _ x y => x &&& y)
def opOr (e : Engine) (w : Bool) (d a b : Reg) : Op := opScalar e w d a b 1 true (fun _ x y => x ||| y)
def opXor (e : Engine) (w : Bool) (d a b : Reg) : Op := opScalar e w d a b 1 true (fun _ x y => x ^^^ y)
def opAndn (e : Engine) (w : Bool) (d a b : Reg) : Op := opScalar e w d a b 1 true (fun _ x y => x &&& ~~~y)
def opSll (e : Engine) (w : Bool) (d a b : Reg) : Op := opScalar e w d a b 1 true fnSll
def opSrl (e : Engine) (w : Bool) (d a b : Reg) : Op := opScalar e w d a b 1 true fnSrl
def opSra (e : Engine) (w : Bool) (d a b : Reg) : Op := opScalar e w d a b 1 true fnSra
/-- R143: an immediate shift by field b, or by field b + 32 on a 64-bit host operation only. -/
def opShiftImm (e : Engine) (w hi : Bool) (d a b : Reg) (f : BinFn) : Op :=
  opScalarImm e w d a (BitVec.ofNat 64 (b.val + if hi then 32 else 0)) 1 (!hi || (isHost e && !w)) f
def opSlli (e : Engine) (w hi : Bool) (d a b : Reg) : Op := opShiftImm e w hi d a b fnSll
def opSrli (e : Engine) (w hi : Bool) (d a b : Reg) : Op := opShiftImm e w hi d a b fnSrl
def opSrai (e : Engine) (w hi : Bool) (d a b : Reg) : Op := opShiftImm e w hi d a b fnSra
def opSlt (e : Engine) (w : Bool) (d a b : Reg) : Op := opScalar e w d a b 1 true (fnBool (fun _ x y => x.slt y))
def opSltu (e : Engine) (w : Bool) (d a b : Reg) : Op := opScalar e w d a b 1 true (fnBool (fun _ x y => x.ult y))
def opSeq (e : Engine) (w : Bool) (d a b : Reg) : Op := opScalar e w d a b 1 true (fnBool (fun _ x y => x == y))
def opSne (e : Engine) (w : Bool) (d a b : Reg) : Op := opScalar e w d a b 1 true (fnBool (fun _ x y => x != y))
def opMin (e : Engine) (w : Bool) (d a b : Reg) : Op := opScalar e w d a b 1 true fnMin
def opMax (e : Engine) (w : Bool) (d a b : Reg) : Op := opScalar e w d a b 1 true fnMax
def opMinu (e : Engine) (w : Bool) (d a b : Reg) : Op := opScalar e w d a b 1 true fnMinu
def opMaxu (e : Engine) (w : Bool) (d a b : Reg) : Op := opScalar e w d a b 1 true fnMaxu
def opClz (e : Engine) (w : Bool) (d a : Reg) : Op := opScalarImm e w d a 0 1 (!isSeq e) (fun n x _ => BitVec.ofNat n (clzNat x))
def opCtz (e : Engine) (w : Bool) (d a : Reg) : Op := opScalarImm e w d a 0 1 (!isSeq e) (fun n x _ => BitVec.ofNat n (ctzNat x))
def opPopc (e : Engine) (w : Bool) (d a : Reg) : Op := opScalarImm e w d a 0 1 (!isSeq e) (fun n x _ => BitVec.ofNat n (popcNat x))

/-- R146: the immediate forms; the sequencer and sliver cores work on 32 bits, a host core on 64. -/
def opAddi (e : Engine) (d a : Reg) (i : BitVec 16) : Op := opScalarImm e false d a (i.signExtend 64) 1 true (fun _ x y => x + y)
def opAndi (e : Engine) (d a : Reg) (i : BitVec 16) : Op := opScalarImm e false d a (i.setWidth 64) 1 true (fun _ x y => x &&& y)
def opOri (e : Engine) (d a : Reg) (i : BitVec 16) : Op := opScalarImm e false d a (i.setWidth 64) 1 true (fun _ x y => x ||| y)
/-- R146, R182: a word as a register value, sign-extended on a host core. -/
def wordX (e : Engine) (v : W32) : W64 := if isHost e then v.signExtend 64 else v.setWidth 64
def opLui (e : Engine) (d : Reg) (i : BitVec 16) : Op :=
  { slot := 2, uses := [d], act := fun s => .ok (s.setX e 2 1 d (wordX e ((i.setWidth 32) <<< 16)), .fall) }
def opLi (e : Engine) (d : Reg) (i : W32) : Op :=
  { slot := 2, ext := true, uses := [d], act := fun s => .ok (s.setX e 2 1 d (wordX e i), .fall) }

/-- R148: results wrap modulo 2^40. -/
def opAadd (c : CellId) (d a b : Reg) : Op := opAddr c d [b] (aregBad a) (fun s => s.av c a + (s.xw (.seq c) b).setWidth 40)
def opAsub (c : CellId) (d a b : Reg) : Op := opAddr c d [b] (aregBad a) (fun s => s.av c a - (s.xw (.seq c) b).setWidth 40)
def opAmov (c : CellId) (d a : Reg) : Op := opAddr c d [a] false (fun s => (s.xw (.seq c) a).setWidth 40)
/-- AHI writes bits [39:32] alone. -/
def opAhi (c : CellId) (d a : Reg) : Op :=
  { slot := 2, uses := [a], check := fun _ => if aregBad d then some excOperand else none,
    act := fun s => .ok (s.later c 2 2 (.aHi (Fin.ofNat 16 d)) ((s.xw (.seq c) a).setWidth 40 <<< 32), .fall) }
def opAaddi (c : CellId) (d a : Reg) (i : BitVec 16) : Op := opAddr c d [] (aregBad a) (fun s => s.av c a + i.signExtend 40)
/-- R113, R148: address register arithmetic has latency 2, reads of an address register into s[d] among it. -/
def opArdOf (c : CellId) (d a : Reg) (f : BitVec 40 → W64) : Op :=
  { slot := 2, uses := [d], check := fun _ => if aregBad a then some excOperand else none,
    act := fun s => .ok (s.setX (.seq c) 2 2 d (f (s.av c a)), .fall) }
def opArd (c : CellId) (d a : Reg) : Op := opArdOf c d a (fun v => (v.setWidth 32).setWidth 64)
def opArdh (c : CellId) (d a : Reg) : Op := opArdOf c d a (fun v => (v >>> 32).setWidth 64)

/-! ### Meanings -/

/-- ADD. -/
def execAdd (e : Engine) (w : Bool) (d a b : Reg) (s : State) : Out := .next (runOp e (wordOf (.add e w d a b)) (opAdd e w d a b) s)
/-- SUB. -/
def execSub (e : Engine) (w : Bool) (d a b : Reg) (s : State) : Out := .next (runOp e (wordOf (.sub e w d a b)) (opSub e w d a b) s)
/-- MUL. -/
def execMul (e : Engine) (w : Bool) (d a b : Reg) (s : State) : Out := .next (runOp e (wordOf (.mul e w d a b)) (opMul e w d a b) s)
/-- MULH. -/
def execMulh (e : Engine) (w : Bool) (d a b : Reg) (s : State) : Out :=
  .next (runOp e (wordOf (.mulh e w d a b)) (opMulh e w d a b) s)
/-- MULHU. -/
def execMulhu (e : Engine) (w : Bool) (d a b : Reg) (s : State) : Out :=
  .next (runOp e (wordOf (.mulhu e w d a b)) (opMulhu e w d a b) s)
/-- DIV. -/
def execDiv (e : Engine) (w : Bool) (d a b : Reg) (s : State) : Out := .next (runOp e (wordOf (.div e w d a b)) (opDiv e w d a b) s)
/-- DIVU. -/
def execDivu (e : Engine) (w : Bool) (d a b : Reg) (s : State) : Out :=
  .next (runOp e (wordOf (.divu e w d a b)) (opDivu e w d a b) s)
/-- REM. -/
def execRem (e : Engine) (w : Bool) (d a b : Reg) (s : State) : Out := .next (runOp e (wordOf (.rem e w d a b)) (opRem e w d a b) s)
/-- REMU. -/
def execRemu (e : Engine) (w : Bool) (d a b : Reg) (s : State) : Out :=
  .next (runOp e (wordOf (.remu e w d a b)) (opRemu e w d a b) s)
/-- AND. -/
def execAnd (e : Engine) (w : Bool) (d a b : Reg) (s : State) : Out := .next (runOp e (wordOf (.and e w d a b)) (opAnd e w d a b) s)
/-- OR. -/
def execOr (e : Engine) (w : Bool) (d a b : Reg) (s : State) : Out := .next (runOp e (wordOf (.or e w d a b)) (opOr e w d a b) s)
/-- XOR. -/
def execXor (e : Engine) (w : Bool) (d a b : Reg) (s : State) : Out := .next (runOp e (wordOf (.xor e w d a b)) (opXor e w d a b) s)
/-- ANDN. -/
def execAndn (e : Engine) (w : Bool) (d a b : Reg) (s : State) : Out :=
  .next (runOp e (wordOf (.andn e w d a b)) (opAndn e w d a b) s)
/-- SLL. -/
def execSll (e : Engine) (w : Bool) (d a b : Reg) (s : State) : Out := .next (runOp e (wordOf (.sll e w d a b)) (opSll e w d a b) s)
/-- SRL. -/
def execSrl (e : Engine) (w : Bool) (d a b : Reg) (s : State) : Out := .next (runOp e (wordOf (.srl e w d a b)) (opSrl e w d a b) s)
/-- SRA. -/
def execSra (e : Engine) (w : Bool) (d a b : Reg) (s : State) : Out := .next (runOp e (wordOf (.sra e w d a b)) (opSra e w d a b) s)
/-- SLLI. -/
def execSlli (e : Engine) (w hi : Bool) (d a b : Reg) (s : State) : Out :=
  .next (runOp e (wordOf (.slli e w hi d a b)) (opSlli e w hi d a b) s)
/-- SRLI. -/
def execSrli (e : Engine) (w hi : Bool) (d a b : Reg) (s : State) : Out :=
  .next (runOp e (wordOf (.srli e w hi d a b)) (opSrli e w hi d a b) s)
/-- SRAI. -/
def execSrai (e : Engine) (w hi : Bool) (d a b : Reg) (s : State) : Out :=
  .next (runOp e (wordOf (.srai e w hi d a b)) (opSrai e w hi d a b) s)
/-- SLT. -/
def execSlt (e : Engine) (w : Bool) (d a b : Reg) (s : State) : Out := .next (runOp e (wordOf (.slt e w d a b)) (opSlt e w d a b) s)
/-- SLTU. -/
def execSltu (e : Engine) (w : Bool) (d a b : Reg) (s : State) : Out :=
  .next (runOp e (wordOf (.sltu e w d a b)) (opSltu e w d a b) s)
/-- SEQ. -/
def execSeq (e : Engine) (w : Bool) (d a b : Reg) (s : State) : Out := .next (runOp e (wordOf (.seq e w d a b)) (opSeq e w d a b) s)
/-- SNE. -/
def execSne (e : Engine) (w : Bool) (d a b : Reg) (s : State) : Out := .next (runOp e (wordOf (.sne e w d a b)) (opSne e w d a b) s)
/-- MIN. -/
def execMin (e : Engine) (w : Bool) (d a b : Reg) (s : State) : Out := .next (runOp e (wordOf (.min e w d a b)) (opMin e w d a b) s)
/-- MAX. -/
def execMax (e : Engine) (w : Bool) (d a b : Reg) (s : State) : Out := .next (runOp e (wordOf (.max e w d a b)) (opMax e w d a b) s)
/-- MINU. -/
def execMinu (e : Engine) (w : Bool) (d a b : Reg) (s : State) : Out :=
  .next (runOp e (wordOf (.minu e w d a b)) (opMinu e w d a b) s)
/-- MAXU. -/
def execMaxu (e : Engine) (w : Bool) (d a b : Reg) (s : State) : Out :=
  .next (runOp e (wordOf (.maxu e w d a b)) (opMaxu e w d a b) s)
/-- CLZ. -/
def execClz (e : Engine) (w : Bool) (d a : Reg) (s : State) : Out := .next (runOp e (wordOf (.clz e w d a)) (opClz e w d a) s)
/-- CTZ. -/
def execCtz (e : Engine) (w : Bool) (d a : Reg) (s : State) : Out := .next (runOp e (wordOf (.ctz e w d a)) (opCtz e w d a) s)
/-- POPC. -/
def execPopc (e : Engine) (w : Bool) (d a : Reg) (s : State) : Out := .next (runOp e (wordOf (.popc e w d a)) (opPopc e w d a) s)
/-- ADDI. -/
def execAddi (e : Engine) (d a : Reg) (imm : BitVec 16) (s : State) : Out :=
  .next (runOp e (wordOf (.addi e d a imm)) (opAddi e d a imm) s)
/-- ANDI. -/
def execAndi (e : Engine) (d a : Reg) (imm : BitVec 16) (s : State) : Out :=
  .next (runOp e (wordOf (.andi e d a imm)) (opAndi e d a imm) s)
/-- ORI. -/
def execOri (e : Engine) (d a : Reg) (imm : BitVec 16) (s : State) : Out :=
  .next (runOp e (wordOf (.ori e d a imm)) (opOri e d a imm) s)
/-- LUI. -/
def execLui (e : Engine) (d : Reg) (imm : BitVec 16) (s : State) : Out := .next (runOp e (wordOf (.lui e d imm)) (opLui e d imm) s)
/-- AADD. -/
def execAadd (c : CellId) (d a b : Reg) (s : State) : Out := .next (runOp (.seq c) (wordOf (.aadd c d a b)) (opAadd c d a b) s)
/-- ASUB. -/
def execAsub (c : CellId) (d a b : Reg) (s : State) : Out := .next (runOp (.seq c) (wordOf (.asub c d a b)) (opAsub c d a b) s)
/-- AMOV. -/
def execAmov (c : CellId) (d a : Reg) (s : State) : Out := .next (runOp (.seq c) (wordOf (.amov c d a)) (opAmov c d a) s)
/-- AHI. -/
def execAhi (c : CellId) (d a : Reg) (s : State) : Out := .next (runOp (.seq c) (wordOf (.ahi c d a)) (opAhi c d a) s)
/-- ARD. -/
def execArd (c : CellId) (d a : Reg) (s : State) : Out := .next (runOp (.seq c) (wordOf (.ard c d a)) (opArd c d a) s)
/-- ARDH. -/
def execArdh (c : CellId) (d a : Reg) (s : State) : Out := .next (runOp (.seq c) (wordOf (.ardh c d a)) (opArdh c d a) s)
/-- AADDI. -/
def execAaddi (c : CellId) (d a : Reg) (imm : BitVec 16) (s : State) : Out :=
  .next (runOp (.seq c) (wordOf (.aaddi c d a imm)) (opAaddi c d a imm) s)
/-- LI. -/
def execLi (e : Engine) (d : Reg) (imm : BitVec 32) (s : State) : Out := .next (runOp e (wordOf (.li e d imm)) (opLi e d imm) s)

end Sys2Proof.Machine
end

