-- ==== Sys2Proof/Machine/Array.lean ====
section
/-! DEFINITION. The array and the drain unit: weight loads, matrix passes, drains and the rounding seed (R42 to R66, R160 to R165). -/

namespace Sys2Proof.Machine

/-! ### Formats of the array -/

/-- Bits of one element of a format code (R46). -/
def fmtBits : Nat → Nat
  | 0x1 => 4 | 0x4 => 16 | 0x5 => 16 | 0x6 => 32 | 0x7 => 16 | 0x8 => 32 | 0xC => 6 | 0xD => 6 | 0xE => 4 | _ => 8

/-- The MX formats and the integer formats among the codes. -/
def fmtMx (f : Nat) : Bool := decide (9 ≤ f ∧ f ≤ 0xE)
def fmtInt (f : Nat) : Bool := f == 0 || f == 1 || f == 7 || f == 8

/-- MXINT8, MXFP8 or MXFP6. -/
def fmtMx8 (f : Nat) : Bool := decide (9 ≤ f ∧ f ≤ 0xD)
def fmtFp8 (f : Nat) : Bool := f == 2 || f == 3

/-- R51: activation and weight formats that form a pair of a class (0 8-bit, 1 4-bit, 2 16-bit). -/
def pairOk (cls a w : Nat) : Bool :=
  match cls with
  | 0 => (a == 0 && (w == 0 || w == 1)) || (a == 1 && w == 0) || (fmtFp8 a && fmtFp8 w) || (fmtMx8 a && (fmtMx8 w || w == 0xE)) ||
      (a == 0xE && fmtMx8 w)
  | 1 => (a == 1 && w == 1) || (a == 0xE && w == 0xE)
  | 2 => (a == 4 && w == 4) || (a == 5 && w == 5)
  | _ => false

/-- R160: a format that occurs as a weight of a class. -/
def weightOk (cls w : Nat) : Bool := (List.range 16).any (fun a => pairOk cls a w)

/-- The elements of a column of a half (R161). -/
def halfDepth (cls : Nat) : Nat := if cls = 1 then 128 else 64

/-- The elements of an activation vector (R162). -/
def actDepth (cls : Nat) (sp : Bool) : Nat := if sp then 2 * halfDepth cls else halfDepth cls

/-- Element i of `b` bits of a little-endian run (R161). -/
def elemAt (run b i : Nat) : Nat := (run >>> (i * b)) % 2 ^ b

/-- The value of a floating-point or MX element code (R47, R48); FTZ16 reads an FP16 subnormal as zero (R52). -/
def fpElem (fmt : Nat) (ftz : Bool) (v : Nat) : FV :=
  match fmt with
  | 0x2 => fE4m3.decode v
  | 0x3 => fE5m2.decode v
  | 0x4 => fBf16.decode v
  | 0x5 => fF16.decode (if ftz && v / 1024 % 32 == 0 then v / 32768 * 32768 else v)
  | 0x9 => let i := sgn 8 v; .fin (decide (i < 0)) i.natAbs (-6)
  | 0xA => fE4m3.decode v
  | 0xB => fE5m2.decode v
  | 0xC => fE3m2.decode v
  | 0xD => fE2m3.decode v
  | 0xE => fE2m1.decode v
  | _ => fF32.decode v

/-- R48: an element under the block scale of code `sc`. -/
def scaleFV (sc : Nat) (v : FV) : FV :=
  if sc = 255 then .nan
  else match v with
  | .fin s m e => .fin s m (e + sc - 127)
  | x => x

/-! ### Tiles and halves -/

/-- An element of a tile. -/
def Tile.at (t : Tile) (i : Nat) : W32 :=
  sparseGet (fun i => match t.undef with | none => 0 | some k => Config.freeTile k i) i t.elems

/-- R120: the contents of a tile, or of a half, become undefined. -/
def State.spoilTile (s : State) (c : CellId) (t : Fin 4) : State :=
  { s.modCell c (fun k => { k with tiles := k.tiles.set t { k.tiles[t] with undef := some s.free, elems := [] } }) with free := s.free + 1 }
def State.spoilHalf (s : State) (c : CellId) (h : Fin 2) : State :=
  { s.modCell c (fun k => { k with halves := k.halves.set h { k.halves[h] with undef := some s.free } }) with free := s.free + 1 }

/-- `n` undefined bytes of the local store from an offset on (R120). -/
def State.spoilLs (s : State) (c : CellId) (off n : Nat) : State :=
  { s.write (lsBase c + off) ((List.range n).map (fun i => Config.freeVal 8 (s.free + i))) with free := s.free + n }

/-- Part `k` of a half (0 values, 1 indices, 2 scales): bytes `off` to `off + n - 1` as a little-endian run. -/
def Half.run (h : Half) (k off n : Nat) : Nat :=
  match h.undef with
  | some u => leNat ((List.range n).map (fun i => (Config.freeTile u (k * 8192 + off + i)).setWidth 8))
  | none => leNat (((match k with | 0 => h.vals | 1 => h.idxs | _ => h.scales).drop off).take n)

/-- The words of a half that hold its values, indices and scales: the numbers of R41's words below `nv`, `ni` and `ns` bytes. -/
def halfWord (nv ni ns i : Nat) : Bool :=
  decide (i < 2048 ∧ 4 * i < nv) || decide (2048 ≤ i ∧ i < 4096 ∧ 4 * (i - 2048) < ni) || decide (4096 ≤ i ∧ 4 * (i - 4096) < ns)

/-- R41: a parity error met in the weight buffer or a tile. -/
def State.parity (s : State) (c : CellId) (acc bad : Bool) : State :=
  if bad then (s.orReg (cellBlk c) 0x010 (if acc then 4#32 else 2#32)).report (.cellParity c acc) else s

/-- A read of `n` bytes of the local store as an operand: outside raises ACCESS_FAULT, marked data DATA_ERROR (R118). -/
def State.lsOperand (s : State) (c : CellId) (off n : Nat) : Ex (List Byte × State) :=
  if !lsIn off n then .error (s, excOffset off)
  else
    let pa := lsBase c + off
    let s := s.touch pa n
    if s.isMarked pa n then .error (s, excData off) else .ok (s.ownBytes (.eng (.seq c)) pa n, s)

/-- The value of s[r] of the sequencer as a local store offset. -/
def State.off (s : State) (c : CellId) (r : Reg) : Nat := (s.xw (.seq c) r).toNat

/-! ### WLOAD -/

/-- R161: the bytes of values, indices and scales of a half. -/
def halfSizes (cls : Nat) (sp : Bool) (wfmt : Nat) : Nat × Nat × Nat :=
  (64 * halfDepth cls * fmtBits wfmt / 8, if sp then 64 * (halfDepth cls / 4) else 0,
    if fmtMx wfmt then 64 * (actDepth cls sp / 32) else 0)

/-- R44: a load is held while a pass reads the half; R160, R161: the load. R119: a load issued before the loader has finished leaves both
halves undefined. -/
def opWload (c : CellId) (d a : Reg) (cls : Fin 4) (h : Fin 2) (sp : Bool) (wfmt : BitVec 4) : Op :=
  let aux := sp || fmtMx wfmt.toNat
  let (nv, ni, ns) := halfSizes cls sp wfmt.toNat
  { slot := 3, legal := aux || d == 0, uses := [d, a],
    check := fun _ => if weightOk cls wfmt.toNat then none else some excOperand,
    holds := fun s => (s.cell c).passes.any (fun p => p.1 == h),
    act := fun s =>
      let o := s.off c a
      let x := s.off c d
      if o % 64 ≠ 0 then .error (s, excAccess o)
      else if aux && x % 64 != 0 then .error (s, excAccess x)
      else do
        let (v, s) ← s.lsOperand c o nv
        let (i, s) ← s.lsOperand c x ni
        let (q, s) ← s.lsOperand c (x + ni) ns
        let k := s.cell c
        let n := k.cycle
        let half : Half := { loaded := true, undef := none, cls := cls, sp := sp, wfmt := wfmt, vals := v, idxs := i, scales := q,
                             par := (k.halves[h]).par.filter (fun i => !halfWord nv ni ns i) }
        let s := s.setCell c { k with halves := k.halves.set h half, loading := some h, loadFree := n + (nv + ni + ns + 255) / 256 }
        if n < k.loadFree then
          let s := s.spoilHalf c h
          .ok ((match k.loading with | some o => s.spoilHalf c o | none => s), .fall)
        else .ok (s, .fall) }

/-! ### MMA -/

/-- The reduction position of kept value i of a column, and whether it counts as zero because its group's indices are equal (R53, R161). -/
def keptPos (sp : Bool) (idx i : Nat) : Nat × Bool :=
  if !sp then (i, false)
  else
    let g := i / 2
    let i0 := elemAt idx 2 (2 * g)
    let i1 := elemAt idx 2 (2 * g + 1)
    if i % 2 = 0 then (4 * g + i0, false) else (4 * g + i1, i0 == i1)

/-- The operands of one pass of one column: activation codes and scales, weight codes, indices and scales, as runs. -/
structure PassIn where
  x : Nat
  xs : Nat
  w : Nat
  idx : Nat
  ws : Nat
  deriving DecidableEq, Repr

/-- What the pass of an instruction is: formats, unsignedness, FTZ16, class and sparsity. -/
structure PassCfg where
  afmt : Nat
  wfmt : Nat
  uns : Bool
  ftz : Bool
  cls : Nat
  sp : Bool
  deriving DecidableEq, Repr

/-- An integer element (R50). -/
def intElem (b : Nat) (uns : Bool) (v : Nat) : Int := if uns then (v : Int) else sgn b v

/-- R55: the exact sum of a pass of an integer pair. -/
def passInt (k : PassCfg) (p : PassIn) : Int :=
  (List.range (halfDepth k.cls)).foldl (fun acc i =>
    let (pos, z) := keptPos k.sp p.idx i
    let w := if z then 0 else intElem (fmtBits k.wfmt) false (elemAt p.w (fmtBits k.wfmt) i)
    acc + intElem (fmtBits k.afmt) k.uns (elemAt p.x (fmtBits k.afmt) pos) * w) 0

/-- R56 step 1: product i of a pass, rounded into the FP32 range. -/
def passProd (k : PassCfg) (p : PassIn) (i : Nat) : W32 :=
  let (pos, z) := keptPos k.sp p.idx i
  let sc := fun (run : Nat) (fmt : Nat) (v : FV) => if fmtMx fmt then scaleFV (elemAt run 8 (pos / 32)) v else v
  let x := sc p.xs k.afmt (fpElem k.afmt k.ftz (elemAt p.x (fmtBits k.afmt) pos))
  let w := sc p.ws k.wfmt (fpElem k.wfmt k.ftz (if z then 0 else elemAt p.w (fmtBits k.wfmt) i))
  toF32 (x.mul w)

/-- An addition that rounds to FP32, and whether a finite sum overflowed (R57). An infinite element that meets a NaN or the opposite infinity
becomes NaN, as the bullets of R57 say, although its last sentence keeps it (DESIGN CHOICE, log entry 10). -/
def addOvf (a b : W32) : W32 × Bool :=
  let v := (f32 a).add (f32 b)
  (toF32 v, (f32 a).isFin && (f32 b).isFin && fF32.overflows v)

/-- R56 step 2: one level of the tree adds neighbours. -/
def treeLevel : List W32 → List W32 × Bool
  | a :: b :: r =>
    let (v, o) := addOvf a b
    let (t, p) := treeLevel r
    (v :: t, o || p)
  | l => (l, false)

def treeSum : Nat → List W32 → W32 × Bool
  | 0, l => ((l[0]?).getD 0, false)
  | n + 1, l =>
    let (l, o) := treeLevel l
    let (v, p) := treeSum n l
    (v, o || p)

/-- The leaf order of the stepping's tree: a permutation of 0 to n - 1 (log entry 8). -/
def leafOrder (n : Nat) : List Nat :=
  let l := (List.range n).map (Config.treeLeaf n)
  if (List.range n).all (fun i => l.contains i) then l else List.range n

/-- R56: a pass of a floating-point or MX pair. -/
def passFp (k : PassCfg) (p : PassIn) : W32 × Bool :=
  treeSum 7 ((leafOrder (halfDepth k.cls)).map (passProd k p))

/-- The result of a pass in a tile element that held `old` (R45, R55 to R57), with the conditions it sets. -/
def passElem (k : PassCfg) (add : Bool) (p : PassIn) (old : W32) : W32 × W32 :=
  if fmtInt k.afmt then
    let v := passInt k p + (if add then old.toInt else 0)
    let sat := decide (v < -2147483648 ∨ 2147483647 < v)
    (BitVec.ofInt 32 (max (-2147483648) (min 2147483647 v)), if sat then afIntSat else 0)
  else
    let (t, o) := passFp k p
    let (v, o2) := if add then addOvf old t else (t, false)
    (v, (if o || o2 then afFpOvf else 0) ||| (if (f32 v).isNan then afAccNan else 0))

/-- Conditions that a column of a half sets by entering the array: SPARSE_IDX and SCALE_NAN (R53, R57). -/
def colFlags (k : PassCfg) (idx ws : Nat) : W32 :=
  (if k.sp && (List.range (halfDepth k.cls / 2)).any (fun g => elemAt idx 2 (2 * g) == elemAt idx 2 (2 * g + 1)) then afSparseIdx else 0) |||
    (if fmtMx k.wfmt && (List.range (actDepth k.cls k.sp / 32)).any (fun b => elemAt ws 8 b == 255) then afScaleNan else 0)

/-- The column j of a half: weights, indices, scales. -/
def Half.col (h : Half) (k : PassCfg) (j : Nat) : Nat × Nat × Nat :=
  let D := halfDepth k.cls
  let nb := D * fmtBits k.wfmt / 8
  let nx := actDepth k.cls k.sp / 32
  (h.run 0 (j * nb) nb, if k.sp then h.run 1 (j * (D / 4)) (D / 4) else 0, if fmtMx k.wfmt then h.run 2 (j * nx) nx else 0)

/-- Row r of an MMA: its 64 elements and the conditions it sets. -/
def mmaRow (k : PassCfg) (add : Bool) (h : Half) (t : Tile) (r x xs : Nat) : List (Nat × W32) × W32 :=
  let sn := if fmtMx k.afmt && (List.range (actDepth k.cls k.sp / 32)).any (fun b => elemAt xs 8 b == 255) then afScaleNan else 0
  let es := (List.range 64).map (fun j =>
    let (w, i, ws) := h.col k j
    let (v, f) := passElem k add ⟨x, xs, w, i, ws⟩ (t.at (64 * r + j))
    ((64 * r + j, v), f ||| colFlags k i ws))
  (es.map (·.1), es.foldl (fun f e => f ||| e.2) sn)

/-- The activation vectors of an MMA, read in row order (R118: an access outside or of marked data raises its exception first). -/
def mmaRead (c : CellId) (k : PassCfg) (a xs stride : Nat) : Nat → Nat → List (Nat × Nat) → State → Ex (List (Nat × Nat) × State)
  | 0, _, acc, s => .ok (acc.reverse, s)
  | n + 1, r, acc, s => do
    let (x, s) ← s.lsOperand c (a + r * stride * 32) (actDepth k.cls k.sp * fmtBits k.afmt / 8)
    let (q, s) ← if fmtMx k.afmt then s.lsOperand c (xs + r * (actDepth k.cls k.sp / 32)) (actDepth k.cls k.sp / 32) else .ok ([], s)
    mmaRead c k a xs stride n (r + 1) ((leNat x, leNat q) :: acc) s

/-- R44: MMA is held while its half is loading or its tile is drained. R162: its passes. R119: an MMA issued before the grid has finished,
or that adds to a tile of the other kind, leaves the tile undefined. -/
def opMma (c : CellId) (d a : Reg) (w2 : W32) : Op :=
  let afmt := bits w2 9 6
  let uns := w2.getLsbD 10
  let add := w2.getLsbD 11
  let h : Fin 2 := Fin.ofNat 2 (bits w2 12 12)
  let t : Fin 4 := Fin.ofNat 4 (bits w2 14 13)
  let rows := bits w2 5 0 + 1
  { slot := 3, ext := true, legal := !w2.getLsbD 15 && (fmtMx afmt || d == 0), uses := [d, a],
    check := fun s =>
      let w := (s.cell c).halves[h]
      if !w.loaded || !pairOk w.cls afmt w.wfmt.toNat || (uns && !fmtInt afmt) then some excOperand else none,
    holds := fun s =>
      let k := s.cell c
      k.loading == some h || (match k.draining with | some r => r.tile == t | none => false),
    act := fun s =>
      let k := s.cell c
      let w := k.halves[h]
      let o := s.off c a
      let cfg : PassCfg := ⟨afmt, w.wfmt.toNat, uns, decide (s.fld (cellBlk c) 4 2 2 = 1), w.cls, w.sp⟩
      if o % 32 ≠ 0 then .error (s, excAccess o)
      else do
        let (xs, s) ← mmaRead c cfg o (s.off c d) (bits w2 31 16) rows 0 [] s
        let old := k.tiles[t]
        let isInt := fmtInt afmt
        let out := (List.range rows).map (fun r =>
          let x := (xs[r]?).getD (0, 0)
          mmaRow cfg add w old r x.1 x.2)
        let tile : Tile :=
          { old with
            isInt := isInt, par := old.par.filter (fun i => decide (64 * rows ≤ i)),
            elems := (out.map (·.1)).flatten ++ old.elems.filter (fun e => decide (64 * rows ≤ e.1)) }
        let (nv, ni, ns) := halfSizes w.cls w.sp w.wfmt.toNat
        let s := (s.parity c false (w.par.any (halfWord nv ni ns))).parity c true (add && old.par.any (fun i => decide (i < 64 * rows)))
        let s := s.modCell c (fun k => { k with tiles := k.tiles.set t tile, passes := k.passes ++ [(h, t)],
                                                gridFree := k.cycle + rows * (if w.cls.val = 2 then 4 else 1) })
        let s := s.arith c (out.foldl (fun f r => f ||| r.2) 0)
        if k.cycle < k.gridFree then
          let s := s.spoilTile c t
          .ok ((match k.passes.getLast? with | some p => s.spoilTile c p.2 | none => s), .fall)
        else if add && old.isInt != isInt then .ok (s.spoilTile c t, .fall)
        else .ok (s, .fall) }

/-! ### Drains -/

/-- m × 2^e as a multiple of 2^g in a rounding mode (0 RNE, 1 RTZ, 2 SR), with the source grid 2^e and the state `lf` of the column's
LFSR (R61, R62). -/
def roundTo (mode : Nat) (lf : W32) (m : Nat) (e g : Int) : Nat :=
  match mode with
  | 1 => (truncTo m e g).1
  | 2 =>
    if g ≤ e then (truncTo m e g).1
    else
      let r := (g - e).toNat
      let k := min r 32
      (m + (lf.toNat % 2 ^ k) <<< (r - k)) >>> r
  | _ => rneTo m e g

/-- The magnitude code of m × 2^e in a format, possibly beyond its largest. -/
def roundCode (f : FFmt) (mode : Nat) (lf : W32) (m : Nat) (e : Int) : Nat :=
  if m = 0 then 0 else let g := f.grid m e; f.code (roundTo mode lf m e g) g

/-- The range of an integer target. -/
def intLo (b : Nat) : Int := -(2 ^ (b - 1) : Nat)
def intHi (b : Nat) : Int := (2 ^ (b - 1) : Nat) - 1

/-- R65: an integer saturated to `b` bits. -/
def satInt (b : Nat) (v : Int) : Nat × W32 :=
  if v < intLo b then ((BitVec.ofInt b (intLo b)).toNat, afDrainSat)
  else if intHi b < v then ((BitVec.ofInt b (intHi b)).toNat, afDrainSat)
  else ((BitVec.ofInt b v).toNat, 0)

def withSign (neg : Bool) (m : Nat) : Int := if neg then -(m : Int) else m

/-- Steps 4 and 5 of R59 for an FP32 value and a target that is no MX format (R62, R65); FTZ16 as R52 says. -/
def drainFp (tf mode : Nat) (ftz : Bool) (lf v : W32) : Nat × W32 :=
  if fmtInt tf then
    let b := fmtBits tf
    match f32 v with
    | .nan => (0, afDrainNan)
    | .inf s => ((BitVec.ofInt b (if s then intLo b else intHi b)).toNat, afDrainSat)
    | .fin s m e => satInt b (withSign s (roundTo mode lf m e 0))
  else
    let f : FFmt := match tf with | 2 => fE4m3 | 3 => fE5m2 | 4 => fBf16 | 5 => fF16 | _ => fF32
    match f32 v with
    | .nan => (if tf = 2 then 0x7F else f.qnan, afDrainNan)
    | .inf s => if tf = 2 then (f.signBit s + f.maxMag, afDrainSat) else (f.signBit s + f.infMag, 0)
    | .fin s m e =>
      let k := roundCode f mode lf m e
      if f.maxMag < k then (f.signBit s + f.maxMag, afDrainSat)
      else (f.signBit s + (if ftz && tf == 5 && decide (k < 1024) then 0 else k), 0)

/-- The element format of an MX target, none for MXINT8, and the exponent of its largest normal value (R66). -/
def mxFmt (tf : Nat) : FFmt := match tf with | 0xA => fE4m3 | 0xB => fE5m2 | 0xC => fE3m2 | 0xD => fE2m3 | _ => fE2m1
def mxEmax (tf : Nat) : Int := match tf with | 0xA => 8 | 0xB => 15 | 0xC => 4 | 0xD => 2 | 0xE => 2 | _ => 0

/-- The largest element of a sign, or an infinity for MXFP8 E5M2 (R65). -/
def mxInf (tf : Nat) (neg : Bool) : Nat × W32 :=
  if tf = 9 then (if neg then 0x80 else 0x7F, afDrainSat)
  else
    let f := mxFmt tf
    if tf = 0xB then (f.signBit neg + f.infMag, 0) else (f.signBit neg + f.maxMag, afDrainSat)

/-- An element of an MX block under the exponent X. -/
def mxElem (tf mode : Nat) (x : Int) (lf : W32) (v : W32) : Nat × W32 :=
  match f32 v with
  | .nan => (0, 0)
  | .inf s => mxInf tf s
  | .fin s m e =>
    if tf = 9 then satInt 8 (withSign s (roundTo mode lf m (e - x) (-6)))
    else
      let f := mxFmt tf
      let k := roundCode f mode lf m (e - x)
      if f.maxMag < k then (f.signBit s + f.maxMag, afDrainSat) else (f.signBit s + k, 0)

/-- floor(log2 |v|) of the largest finite magnitude of a block, none where it is 0 (R66). -/
def blockLog (l : List W32) : Option Int :=
  l.foldl (fun acc v => match f32 v with
    | .fin _ m e => if m = 0 then acc else
        let k := (Nat.log2 m : Int) + e
        match acc with | none => some k | some a => some (max a k)
    | _ => acc) none

/-- R66: a block of 32 values: its scale code, its elements and the conditions it sets. -/
def mxBlock (tf mode : Nat) (l : List (W32 × W32)) : Nat × List Nat × W32 :=
  let vs := l.map (·.1)
  let fin := fun (x : Int) => l.map (fun p => mxElem tf mode x p.2 p.1)
  if vs.any (fun v => (f32 v).isNan) then (0xFF, vs.map (fun _ => 0), afDrainNan)
  else match blockLog vs with
  | none =>
    if vs.any (fun v => (f32 v).isInf) then
      let es := vs.map (fun v => match f32 v with | .inf s => mxInf tf s | _ => (0, 0))
      (0xFE, es.map (·.1), es.foldl (fun f e => f ||| e.2) 0)
    else (0, vs.map (fun _ => 0), 0)
  | some k =>
    let x := max (-127) (min 127 (k - mxEmax tf))
    let es := fin x
    ((x + 127).toNat, es.map (·.1), es.foldl (fun f e => f ||| e.2) 0)

/-- What a drain does to every element: the fields of R163 with the mode and FTZ16 in force, and the parameter block of R164 as a run. -/
structure DrainCfg where
  tf : Nat
  mode : Nat
  ftz : Bool
  bias : Bool
  scale : Bool
  act : Nat
  isInt : Bool
  params : Nat
  deriving DecidableEq, Repr

/-- Word k of the parameter block. -/
def DrainCfg.word (g : DrainCfg) (off : Nat) : W32 := BitVec.ofNat 32 (g.params >>> (8 * off))

/-- R59, R60: activation on an integer, and on an FP32 value. A clamp is a maximum with lo and then a minimum with hi, whatever their order, and
a bound that is NaN bounds nothing (DESIGN CHOICE, log entry 11). -/
def actInt (g : DrainCfg) (v : Int) : Int :=
  match g.act with
  | 1 => if 0 < v then v else 0
  | 2 => let lo := (g.word 0).toInt; let hi := (g.word 4).toInt; min (max v lo) hi
  | _ => v
def actFp (g : DrainCfg) (v : W32) : W32 :=
  match g.act with
  | 1 => if (f32 v).isNan then v else if (FV.fin false 0 0).lt (f32 v) then v else 0
  | 2 =>
    let lo := g.word 0
    let hi := g.word 4
    if (f32 v).isNan then v
    else
      let u := if (f32 v).lt (f32 lo) then lo else v
      if (f32 hi).lt (f32 u) then hi else u
  | _ => v

/-- Step 1 of R59 on an integer accumulator. -/
def biasInt (g : DrainCfg) (j : Nat) (acc : W32) : Int × W32 :=
  if g.bias then
    let v := acc.toInt + (g.word (0x010 + 4 * j)).toInt
    (max (-2147483648) (min 2147483647 v), if v < -2147483648 ∨ 2147483647 < v then afDrainSat else 0)
  else (acc.toInt, 0)

/-- Steps 1 to 3 of R59 for an integer accumulator and an integer target, and its saturation. -/
def drainIntInt (g : DrainCfg) (j : Nat) (lf acc : W32) : Nat × W32 :=
  let (v, f) := biasInt g j acc
  let v :=
    if g.scale then
      let p := v * (g.word (0x110 + 4 * j)).toInt
      let k := g.word (0x210 + 4 * j)
      withSign (decide (p < 0)) (roundTo g.mode lf p.natAbs 0 (bits k 5 0)) + sgn 16 (bits k 31 16)
    else v
  let (r, f2) := satInt (fmtBits g.tf) (actInt g v)
  (r, f ||| f2)

/-- Steps 1 to 3 of R59 that end in an FP32 value. -/
def drainPre (g : DrainCfg) (j : Nat) (acc : W32) : W32 × W32 :=
  let (v, f) :=
    if g.isInt then let (i, f) := biasInt g j acc; (toF32 (FV.ofInt i), f)
    else (if g.bias then f32Add acc (g.word (0x010 + 4 * j)) else acc, 0)
  let v := if g.scale then f32Mul v (g.word (0x110 + 4 * j)) else v
  (actFp g v, f)

/-- One row of a drain: element codes, block scale codes and conditions. -/
def drainRow (g : DrainCfg) (lf : Vector W32 64) (row : List W32) : List Nat × List Nat × W32 :=
  let lfAt := fun (j : Nat) => lf[Fin.ofNat 64 j]
  if g.isInt && fmtInt g.tf then
    let es := (row.zipIdx).map (fun p => drainIntInt g p.2 (lfAt p.2) p.1)
    (es.map (·.1), [], es.foldl (fun f e => f ||| e.2) 0)
  else
    let ps := (row.zipIdx).map (fun p => (drainPre g p.2 p.1, lfAt p.2))
    let f0 := ps.foldl (fun f e => f ||| e.1.2) 0
    let vs := ps.map (fun p => (p.1.1, p.2))
    if fmtMx g.tf then
      let (s0, e0, g0) := mxBlock g.tf g.mode (vs.take 32)
      let (s1, e1, g1) := mxBlock g.tf g.mode (vs.drop 32)
      (e0 ++ e1, [s0, s1], f0 ||| g0 ||| g1)
    else
      let es := vs.map (fun p => drainFp g.tf g.mode g.ftz p.2 p.1)
      (es.map (·.1), [], es.foldl (fun f e => f ||| e.2) f0)

/-- Codes of `b` bits packed little-endian. -/
def packCodes (b : Nat) (l : List Nat) : Nat := l.foldr (fun v acc => v + acc * 2 ^ b) 0

/-- The rows of a drain from row `64 - n` on, written in order; SR advances every column's LFSR once a row (R63). -/
def drainRows (c : CellId) (g : DrainCfg) (t : Tile) (dst stride : Nat) (scales : Option Nat) : Nat → State → State
  | 0, s => s
  | n + 1, s =>
    let r := 63 - n
    let lf := (s.cell c).lfsr
    let (es, ss, f) := drainRow g lf ((List.range 64).map (fun j => t.at (64 * r + j)))
    let s := s.write (lsBase c + dst + r * stride * 32) (toLe (8 * fmtBits g.tf) (packCodes (fmtBits g.tf) es))
    let s := match scales with
      | some o => s.write (lsBase c + o + 2 * r) (ss.map (BitVec.ofNat 8))
      | none => s
    let s := if g.mode = 2 then s.modCell c (fun k => { k with lfsr := lf.map lfsrStep }) else s
    drainRows c g t dst stride scales n (s.arith c f)

/-- The bytes that a drain names as its destination. -/
def DrainRun.ranges (d : DrainRun) : List (Nat × Nat) :=
  (List.range 64).map (fun r => (d.dst + r * d.stride * 32, d.rowBytes)) ++ (match d.scales with | some o => [(o, 128)] | none => [])

/-- R120: the destination of a drain becomes undefined. -/
def State.spoilDrain (s : State) (c : CellId) (d : DrainRun) : State := d.ranges.foldl (fun s r => s.spoilLs c r.1 r.2) s

/-- R61: the rounding mode that a drain names, through CELL_CTRL.RND. -/
def drainMode (rnd ctl : Nat) : Nat := if rnd = 3 then (if ctl = 3 then 0 else ctl) else rnd

/-- R44: DRAIN is held while passes accumulate into its tile. R59 to R66, R163, R164: the drain. R119: a drain issued before the unit has
finished leaves the destinations of both undefined. -/
def opDrain (c : CellId) (d a : Reg) (w2 : W32) : Op :=
  let tf := bits w2 3 0
  let t : Fin 4 := Fin.ofNat 4 (bits w2 13 12)
  let bias := w2.getLsbD 10
  let scale := w2.getLsbD 11
  let act := bits w2 7 6
  let ftz := bits w2 9 8
  let par := bias || scale || act == 2 || fmtMx tf
  { slot := 3, ext := true, legal := decide (bits w2 15 14 = 0) && (par || d == 0), uses := [d, a],
    check := fun _ => if ftz = 3 ∨ act = 3 ∨ tf = 15 then some excOperand else none,
    holds := fun s => (s.cell c).passes.any (fun p => p.2 == t),
    act := fun s =>
      let k := s.cell c
      let o := s.off c a
      let po := s.off c d
      if o % 32 ≠ 0 then .error (s, excAccess o)
      else if par && po % 16 != 0 then .error (s, excAccess po)
      else do
        let (pb, s) ← if par then s.lsOperand c po 0x310 else .ok ([], s)
        let ctl := s.reg (cellBlk c) 4
        let g : DrainCfg :=
          { tf := tf, mode := drainMode (bits w2 5 4) (bits ctl 1 0), ftz := if ftz = 0 then ctl.getLsbD 2 else ftz == 2, bias := bias,
            scale := scale, act := act, isInt := k.tiles[t].isInt, params := leNat pb }
        let run : DrainRun :=
          { tile := t, dst := o, stride := bits w2 31 16, rowBytes := 8 * fmtBits tf,
            scales := if fmtMx tf then some (g.word 8).toNat else none }
        match run.ranges.find? (fun r => !lsIn r.1 r.2) with
        | some r => .error (s, excOffset r.1)
        | none =>
          let s := s.parity c true (!k.tiles[t].par.isEmpty)
          let s := drainRows c g k.tiles[t] run.dst run.stride run.scales 64 s
          let s := s.modCell c (fun k => { k with draining := some run, drainFree := k.cycle + (if par then 68 else 64) })
          if k.cycle < k.drainFree then
            let s := s.spoilDrain c run
            .ok ((match k.draining with | some p => s.spoilDrain c p | none => s), .fall)
          else .ok (s, .fall) }

/-- R63, R83: a seed loads all columns. -/
def State.seed (s : State) (c : CellId) (v : W32) : State :=
  (s.setReg (cellBlk c) 0x008 v).modCell c (fun k => { k with lfsr := Vector.ofFn (fun j => seedOf v j.val) })

/-- R165: ASEED; issued before the drain unit has finished, it leaves the seed and the running drain's bytes undefined (R119). -/
def opAseed (c : CellId) (a : Reg) : Op :=
  { slot := 3, uses := [a],
    act := fun s =>
      let k := s.cell c
      if k.cycle < k.drainFree then
        let s := { s.seed c (Config.freeVal 32 s.free) with free := s.free + 1 }
        .ok ((match k.draining with | some p => s.spoilDrain c p | none => s), .fall)
      else .ok ((s.seed c (s.xw (.seq c) a)).modCell c (fun k => { k with drainFree := k.cycle + 1 }), .fall) }

/-- WLOAD_DONE: the loader has filled the half that it fills (R161). -/
def State.wloadDone (s : State) (c : CellId) (h : Fin 2) : State :=
  if (s.cell c).loading = some h then s.modCell c (fun k => { k with loading := none }) else s

/-- MMA_DONE: the last row of the oldest MMA is complete (R162). -/
def State.mmaDone (s : State) (c : CellId) : State := s.modCell c (fun k => { k with passes := k.passes.tail })

/-- DRAIN_DONE: the last row of the drain is written (R164). -/
def State.drainDone (s : State) (c : CellId) : State := s.modCell c (fun k => { k with draining := none })

/-! ### Meanings -/

/-- WLOAD. -/
def execWload (c : CellId) (d a : Reg) (cls : Fin 4) (h : Fin 2) (sp : Bool) (wfmt : BitVec 4) (s : State) : Out :=
  .next (runOp (.seq c) (wordOf (.wload c d a cls h sp wfmt)) (opWload c d a cls h sp wfmt) s)
/-- MMA. -/
def execMma (c : CellId) (d a : Reg) (w2 : BitVec 32) (s : State) : Out :=
  .next (runOp (.seq c) (wordOf (.mma c d a w2)) (opMma c d a w2) s)
/-- DRAIN. -/
def execDrain (c : CellId) (d a : Reg) (w2 : BitVec 32) (s : State) : Out :=
  .next (runOp (.seq c) (wordOf (.drain c d a w2)) (opDrain c d a w2) s)
/-- ASEED. -/
def execAseed (c : CellId) (a : Reg) (s : State) : Out := .next (runOp (.seq c) (wordOf (.aseed c a)) (opAseed c a) s)

/-! ### Meanings of events -/

/-- WLOAD_DONE. -/
def execWloadDone (c : CellId) (h : Fin 2) (s : State) : Out := .next (s.onDie c.die fun s => s.wloadDone c h)
/-- MMA_DONE. -/
def execMmaDone (c : CellId) (s : State) : Out := .next (s.onDie c.die fun s => s.mmaDone c)
/-- DRAIN_DONE. -/
def execDrainDone (c : CellId) (s : State) : Out := .next (s.onDie c.die fun s => s.drainDone c)
/-- SR_SEED_WRITE. -/
def execSrSeedWrite (c : CellId) (v : BitVec 32) (s : State) : Out := .next (s.seed (s.mainOf c) v)

end Sys2Proof.Machine
end

