-- ==== Sys2Proof/Machine/Win.lean ====
section
/-! DEFINITION. The hub's record windows (R684, R685), its interrupts, and what the end of a PDMA channel leaves (R501, R503, R517). -/

namespace Sys2Proof.Machine

def State.modHub (s : State) (f : Hub → Hub) : State := { s with hub := f s.hub }

def Irq.num : Irq → Nat | .pdma => 0 | .handover => 1 | .safe => 2 | .aco => 3

/-- A hub interrupt is raised, toward a host core as a free choice says: SAFE_EVENT routed to Monitor, the others to Supervisor (R403, R508, R515,
R551; log entry 114). -/
def State.raiseHub (s : State) (q : Irq) : State :=
  ({ s with free := s.free + 1 }.modHub (fun h => { h with irqs := if h.irqs.contains q then h.irqs else h.irqs ++ [q] })).raiseIrq
    (Fin.ofNat 8 (Config.freeNat s.free)) (Config.irqNum q.num) (q == Irq.safe)

/-- What the part hands to the outside. -/
def State.emit (s : State) (m : OutMsg) : State := { s with out := s.out ++ [m] }

/-! ### Record windows -/

/-- The record window that an address of the peripheral region lies in (R683, R684). -/
def winOf (pa : Nat) : Option Nat :=
  if 0xF401400000 ≤ pa ∧ pa < 0xF401446000 then
    let w := (pa - 0xF401400000) / 0x1000
    if w < 12 ∨ (16 ≤ w ∧ w < 24) ∨ (32 ≤ w ∧ w < 38) ∨ (40 ≤ w ∧ w < 46) ∨ (48 ≤ w ∧ w < 70) then some w else none
  else none

/-- The acoustic buffer port (R690). -/
def inAcoPort (pa : Nat) : Bool := decide (0xF401800000 ≤ pa ∧ pa < 0xF401900000)

/-- The control word whose UNDERFLOW and OVERFLOW bits serve a window; the controllers of the camera, lidar and raw TDM windows map no such bits (log
entry 41). -/
def winCtl (w : Nat) : Option (Blk × Nat) :=
  if 32 ≤ w ∧ w < 38 then some (.mac (Fin.ofNat 6 (w - 32)), 0)
  else if 40 ≤ w ∧ w < 46 then some (.mac (Fin.ofNat 6 (w - 40)), 0)
  else if 48 ≤ w ∧ w < 52 then some (.can (Fin.ofNat 4 (w - 48)), 0)
  else if 52 ≤ w ∧ w < 56 then some (.can (Fin.ofNat 4 (w - 52)), 0)
  else if 56 ≤ w ∧ w < 60 then some (.spi, 0x100 * (w - 56))
  else if w = 68 ∨ w = 69 then some (.usb, 0)
  else none

/-- The domains of the peripherals behind a window and a request line (R30, R493). -/
def winDom (w : Nat) : Option (Fin 18) :=
  if w < 24 then some 10 else if w < 48 then some 12 else if 60 ≤ w ∧ w < 68 then some 11 else if 68 ≤ w then some 14 else none
def lineDom (l : Nat) : Option (Fin 18) :=
  if l < 20 then some 10 else if l < 32 then some 12 else if l < 42 then some 11 else if l < 58 then some 17 else none

/-- The status of what is written into a crossing that is held by its far side's reset, FLUSHED, or stalled, CDC_STALL; 0 when neither (R478, R479,
R484). -/
def State.cutCode (s : State) (d : Fin 7) (dom : Fin 18) : Nat :=
  match s.crossings.find? (fun k => k.die == d && k.dom == dom) with
  | none => 0
  | some k => if k.reset then 6 else if k.stalled then 7 else 0

/-- The same for what passes between a peripheral's domain and the hub fabric. -/
def State.perCut (s : State) (dom : Option (Fin 18)) : Nat :=
  match dom with
  | none => 0
  | some q => if s.cutCode 4 q ≠ 0 then s.cutCode 4 q else s.cutCode 4 8

/-- The same for what a die's cells, path unit or links read or write in its DRAM. -/
def State.memCut (s : State) (d : Fin 4) : Nat := s.cutCode (d.castLE (by omega)) ⟨4 + d, by omega⟩

def State.winBytes (s : State) (w : Nat) : List Byte := sparseGet (fun _ => ([] : List Byte)) w s.hub.win
def State.setWin (s : State) (w : Nat) (l : List Byte) : State :=
  s.modHub (fun h => { h with win := sparseSet (fun _ => ([] : List Byte)) w l h.win })
/-- UNDERFLOW or OVERFLOW sets in the controller of a window (R684). -/
def State.winFlag (s : State) (w : Nat) (m : W32) : State :=
  match winCtl w with
  | some (b, o) => s.orReg b o m
  | none => s.modHub (fun h => { h with winErr := sparseSet (fun _ => 0#32) w (sparseGet (fun _ => 0#32) w h.winErr ||| m) h.winErr })

/-- A write appends; a write that does not fit is discarded and sets OVERFLOW. The result says whether it entered. -/
def State.winPush (s : State) (w : Nat) (l : List Byte) : State × Bool :=
  let q := s.winBytes w
  if q.length + l.length ≤ Config.windowBytes w then (s.setWin w (q ++ l), true) else (s.winFlag w 0x80000000#32, false)

/-- A read takes the next bytes; those that are missing read as zeros and set UNDERFLOW. -/
def State.winTake (s : State) (w n : Nat) : List Byte × State :=
  let q := s.winBytes w
  let s := s.setWin w (q.drop n)
  (q.take n ++ List.replicate (n - q.length) 0, if q.length < n then s.winFlag w 0x40000000#32 else s)

/-! ### Channels -/

def State.chan (s : State) (e : Fin 2) (c : Fin 16) : Chan := (s.hub.dma[e]).ch[c]
def State.modDma (s : State) (e : Fin 2) (f : Pdma → Pdma) : State := s.modHub (fun h => { h with dma := h.dma.set e (f h.dma[e]) })
def State.modChan (s : State) (e : Fin 2) (c : Fin 16) (f : Chan → Chan) : State :=
  s.modDma e (fun k => { k with ch := k.ch.set c (f k.ch[c]) })

/-- A bit of PDMA_ERR sets and raises PDMA_EVENT (R515). -/
def State.pdmaErr (s : State) (e : Fin 2) (m : W32) : State := (s.orReg (.pdma e) 4 m).raiseHub .pdma

/-- A channel leaves the order, its line is unbound and its pending requests are discarded (R498, R503). -/
def State.pdmaLeave (s : State) (e : Fin 2) (c : Fin 16) (f : Chan → Chan) : State :=
  let s := if (match (s.chan e c).desc with | some d => d.irq | none => false) then s.raiseHub .pdma else s
  s.modDma e (fun k => { order := k.order.filter (fun x => x ≠ c), ch := k.ch.set c (f { k.ch[c] with pend := 0, desc := none }) })

/-- The crates of a channel that has ended finish under its line (R503). -/
def CrateBy.disown (w : CrateBy) (e : Fin 2) (c : Fin 16) (line : Fin 64) : CrateBy :=
  match w with
  | .pdma x y _ => if x = e ∧ y = c then .pdmaOld e c line else w
  | _ => w
def State.disown (s : State) (e : Fin 2) (c : Fin 16) : State :=
  match (s.chan e c).desc with
  | none => s
  | some d => { s with crates := s.crates.map (fun k => { k with who := k.who.disown e c d.line }) }

/-- The address of byte `n` of a pattern, and the bytes from there to its line's end. -/
def patAt (a len : Nat) (str : Int) (n : Nat) : Nat × Nat := (((a : Int) + (n / len : Nat) * str).toNat + n % len, len - n % len)

/-- The bytes from an address to the next 256-byte boundary, at most `n` (R446). -/
def crateRoom (pa n : Nat) : Nat := min n (256 - pa % 256)

/-- The pieces of a burst: source, destination and bytes, cut at every line end and every 256-byte boundary (R497). -/
def burstPieces (d : ChDesc) : Nat → Nat → Nat → List (Nat × Nat × Nat)
  | 0, _, _ => []
  | fuel + 1, n, left =>
    if left = 0 then []
    else
      let (sa, sl) := patAt d.src d.slen d.sstr n
      let (da, dl) := patAt d.dst d.dlen d.dstr n
      let k := crateRoom da (crateRoom sa (min left (min sl dl)))
      (sa, da, k) :: burstPieces d fuel (n + k) (left - k)

/-- Burst `i` of a descriptor. -/
def ChDesc.burstAt (d : ChDesc) (i : Nat) : List (Nat × Nat × Nat) :=
  burstPieces d (d.burst + 1) (i * d.burst) (min d.burst (d.slen * d.scount - i * d.burst))

/-- The bursts of a channel with bytes not yet acknowledged. -/
def State.burstsOut (s : State) (e : Fin 2) (c : Fin 16) : List Nat :=
  s.crates.filterMap (fun k => match k.who with | .pdma x y b => if x = e ∧ y = c then some b else none | _ => none)

/-- Bytes whose contents the spec leaves undefined are written with free values. -/
def State.freeBytes (s : State) (n : Nat) : List Byte × State :=
  ((List.range n).map (fun i => Config.freeVal 8 (s.free + i)), { s with free := s.free + n })
def State.spoil (s : State) (pa n : Nat) : State := let (l, s) := s.freeBytes n; s.write pa l

/-- The last `n` bytes that entered a record window become undefined. -/
def State.spoilWin (s : State) (w n : Nat) : State :=
  let q := s.winBytes w
  let k := min n q.length
  let (l, s) := s.freeBytes k
  s.setWin w (q.take (q.length - k) ++ l)

/-- R503: the bytes of an interrupted burst are undefined at their destination, those that have entered a record window with them, and none of them
still arrives. -/
def State.spoilBurst (s : State) (e : Fin 2) (c : Fin 16) (d : ChDesc) (b : Nat) : State :=
  let out := s.crates.foldl (fun a k => if k.who == .pdma e c b then a + k.len else a) 0
  let s := { s with crates := s.crates.filter (fun k => k.who != .pdma e c b) }
  let wins := (d.burstAt b).filter (fun p => (winOf p.2.1).isSome)
  let s := ((d.burstAt b).filter (fun p => (winOf p.2.1).isNone)).foldl (fun s p => s.spoil p.2.1 p.2.2) s
  match wins.head?.bind (fun p => winOf p.2.1) with
  | some w => s.spoilWin w (wins.foldl (fun a p => a + p.2.2) 0 - out)
  | none => s

/-- R503: a channel ends early: a crate is lost (CRATE_LOST, 17), flushed or stalled. The burst that is interrupted, if any, is that of the crate, or
the last one under way; what is on its way of other bursts finishes. -/
def State.pdmaBreak (s : State) (e : Fin 2) (c : Fin 16) (code : Nat) (burst : Option Nat) : State :=
  match (s.chan e c).desc with
  | none => s
  | some d =>
    let b := match burst with | some b => some b | none => (s.burstsOut e c).max?
    let s := s.performAll (fun k => k.who == .pdma e c)
    let s := (match b with | some b => s.spoilBurst e c d b | none => s).disown e c
    if code = 17 then (s.pdmaLeave e c (fun k => { k with st := .faulted, cause := 4, late := false })).pdmaErr e 4#32
    else s.pdmaLeave e c (fun k => { k with st := .idle, cause := 0, late := false, code := BitVec.ofNat 8 code })

end Sys2Proof.Machine
end

