-- ==== Sys2Proof/Machine/Crate.lean ====
section
/-! DEFINITION. Dies, modules and edges (R17, R437), the routes of crates (R18, R449), the making of crates (R445, R446) and their loss
(R454); token queues (R73 to R75). -/

namespace Sys2Proof.Machine

/-! ### Dies and edges -/

/-- The die that holds an address (R183), numbered by strap: 0 to 3 CD0 to CD3, 4 HD, 5 SIA, 6 SIB. -/
def dieOf (pa : Nat) : Fin 7 :=
  if pa < 0xF000000000 then Fin.ofNat 7 (min (pa / 0x1000000000) 4) else Fin.ofNat 7 ((pa - 0xF000000000) / 0x100000000)

/-- The far end of a module: the die it leads to, and the module there (R437; modules of an edge pair in their order: log entry 14). -/
def modPeer (d : Fin 7) (m : Nat) : Option (Fin 7 × Nat) :=
  match d.val with
  | 0 => if m < 4 then some (1, m) else if m < 8 then some (2, m - 4) else if m < 10 then some (4, m - 8) else none
  | 1 => if m < 4 then some (0, m) else if m < 8 then some (3, m - 4) else if m < 10 then some (4, m - 8 + 2) else none
  | 2 => if m < 4 then some (0, m + 4) else if m < 8 then some (3, m) else if m < 10 then some (4, m - 8 + 4) else none
  | 3 => if m < 4 then some (1, m + 4) else if m < 8 then some (2, m) else if m < 10 then some (4, m - 8 + 6) else none
  | 4 => if m < 8 then some (Fin.ofNat 7 (m / 2), m % 2 + 8) else if m = 8 then some (5, 0) else if m = 9 then some (6, 0) else none
  | 5 => if m = 0 then some (4, 8) else none
  | _ => if m = 0 then some (4, 9) else none

/-- The modules of a die toward another. -/
def edgeMods (a b : Fin 7) : List Nat := (List.range 10).filter (fun m => match modPeer a m with | some p => p.1 == b | none => false)

/-- STATE of a module (R467): 0 DOWN, 1 TRAINING, 2 IN_SERVICE, 3 OUT_OF_SERVICE. -/
def State.modState (s : State) (d : Fin 7) (m : Nat) : Nat := s.fld (.d2d d) (0x100 + 4 * m) 1 0

/-- The link state of a module's end. -/
def State.link (s : State) (d : Fin 7) (m : Fin 10) : Link := (s.links[d])[m]

/-- The modules in service of an edge, as its sending end sees them, and whether the edge carries crates (R448). -/
def State.edgeServing (s : State) (a b : Fin 7) : List Nat := (edgeMods a b).filter (fun m => s.modState a m == 2)
def State.edgeUp (s : State) (a b : Fin 7) : Bool := (edgeMods a b).any (fun m => s.modState a m == 2)

/-- Whether an edge is not lost: a module is in service, or retrains and carries nothing meanwhile (R451, R454, R456). -/
def State.edgeAlive (s : State) (a b : Fin 7) : Bool :=
  (edgeMods a b).any (fun m => s.modState a m == 2 || (s.modState a m == 1 && (s.link a (Fin.ofNat 10 m)).retrain))

/-- The ring neighbours of a compute die, lower strap first (R18, R437). -/
def ringLow (d : Fin 7) : Fin 7 := if d.val = 0 then 1 else if d.val = 3 then 1 else 0
def ringHigh (d : Fin 7) : Fin 7 := if d.val = 0 then 2 else if d.val = 3 then 2 else 3

/-- Whether two dies are joined by an edge (R17). -/
def joined (a b : Fin 7) : Bool := !(edgeMods a b).isEmpty

/-- The dies that a crate visits, its destination last (R449). -/
def State.route (s : State) (src dst : Fin 7) : List (Fin 7) :=
  if src = dst then []
  else if joined src dst then [dst]
  else if src.val < 4 ∧ dst.val < 4 then
    match s.fld (.d2d src) 0x10 1 0 with
    | 0 => [ringLow src, dst]
    | 1 => [ringHigh src, dst]
    | _ => [4, dst]
  else [4, dst]

/-- Whether no edge of a route is lost and no die on it is fenced (R454). -/
def State.routeOk (s : State) (src : Fin 7) : List (Fin 7) → Bool
  | [] => true
  | d :: r => s.edgeAlive src d && !s.fenced d && s.routeOk d r

/-- The clock domain at which a die's links end (R30, R468): ARR of a compute die, FAB of the hub, an island's own. -/
def linkDom (d : Fin 7) : Nat := if d.val < 4 then d.val else if d.val = 4 then 8 else 10 + d.val

/-- The status of what a die writes toward another while the crossing is held by a reset or stalled (R478, R479, R484). -/
def State.crossCode (s : State) (near far : Fin 7) : Nat := s.cutCode near (Fin.ofNat 18 (linkDom far))

/-- An error bit of a die's D2D_ERR sets and is reported to both islands (R465). -/
def State.d2dErr (s : State) (d : Fin 7) (bit : Fin 5) : State :=
  (s.orReg (.d2d d) 0x14 (BitVec.ofNat 32 (2 ^ bit.val))).report (.d2d d bit)

/-! ### Token queues -/

/-- The cell and the index that a 15-bit queue number names (R73); a checker's queues are its main's (R533). -/
def State.queueCell (s : State) (q : BitVec 15) : CellId :=
  let c : CellId := ⟨Fin.ofNat 4 (q.toNat / 8192), Fin.ofNat 16 (q.toNat / 512)⟩
  if s.isChecker c then { c with idx := Fin.ofNat 16 (c.idx.val - 1) } else c
def queueIdx (q : BitVec 15) : Nat := q.toNat % 512

def State.queueAt (s : State) (q : BitVec 15) : Queue := (s.cell (s.queueCell q)).queue (queueIdx q)
def State.setQueueAt (s : State) (q : BitVec 15) (x : Queue) : State := s.modCell (s.queueCell q) (fun c => c.setQueue (queueIdx q) x)

/-- The number of entries of a queue (R73). -/
def queueDepth : Nat := 16

/-- The ARR cycle of the cell that owns a queue. -/
def State.queueNow (s : State) (q : BitVec 15) : Nat := (s.cell (s.queueCell q)).cycle

/-- The place of a putter among the puts that arrive in one cycle at a queue of cell `c` (R75): its sequencer, its sliver cores by index, its move
unit, then all others. -/
def Putter.rank (c : CellId) : Putter → Nat
  | .eng (.seq x) => if x = c then 0 else 66
  | .eng (.slv x) => if x.cell = c then x.core + 1 else 66
  | .mv e => if engCell e = some c then 65 else 66
  | _ => 66

/-- A put joins those that wait: behind all that arrived before it, and in the order of R75 among those of its cycle. -/
def insPut (c : CellId) (p : Put) : List Put → List Put
  | [] => [p]
  | k :: r => if k.at_ = p.at_ ∧ p.who.rank c < k.who.rank c then p :: k :: r else k :: insPut c p r

/-- The cycle in which a put arrives: the current one; the next one where the queue has accepted its put of this cycle already, so that the order
of R75 holds among the puts of one cycle. -/
def Queue.arrival (k : Queue) (now : Nat) : Nat := if k.lastPut = some now then now + 1 else now

/-- A put arrives at its queue, which is an access to its cell (R544), and waits for its turn (R74, R75). -/
def State.offer (s : State) (q : BitVec 15) (who : Putter) (v : W32) : State :=
  let s := s.reach (s.queueCell q).die (s.queueCell q).idx
  let k := s.queueAt q
  s.setQueueAt q { k with waiting := insPut (s.queueCell q) ⟨who, v, k.arrival (s.queueNow q)⟩ k.waiting }

/-- A queue accepts its first put at a cycle, that of its arrival or a later one, where an entry is free and no other put was accepted in that
cycle (R74, R75). -/
def Queue.accepts (k : Queue) (now : Nat) : Option Put :=
  match k.waiting with
  | [] => .none
  | p :: _ => if p.at_ ≤ now ∧ k.lastPut ≠ some now ∧ k.entries.length < queueDepth then some p else .none

/-- The get of a cycle: the oldest entry that was there before the puts of that cycle, where no other get was performed in it (R75). -/
def Queue.get? (k : Queue) (now : Nat) : Option (W32 × Queue) :=
  match k.entries with
  | [] => .none
  | v :: r => if k.lastGet = some now ∨ (k.lastPut = some now ∧ r = []) then .none else some (v, { k with entries := r, lastGet := some now })

/-! ### Crates -/

/-- Replaces, or removes, the crate with a number. -/
def State.setCrate (s : State) (c : Crate) : State := { s with crates := s.crates.map (fun k => if k.num = c.num then c else k) }
def State.dropCrate (s : State) (n : Nat) : State := { s with crates := s.crates.filter (fun k => k.num ≠ n) }
def State.crateAt (s : State) (n : Nat) : Option Crate := s.crates.find? (fun k => k.num == n)

/-- Whether two byte ranges meet. -/
def meets (a n b m : Nat) : Bool := decide (a < b + m ∧ b < a + n)

/-- A move of a cell changes. -/
def State.modMove (s : State) (c : CellId) (id : Nat) (f : Move → Move) : State :=
  s.modCell c (fun k => { k with moves := k.moves.map (fun m => if m.id = id then f m else m) })
def State.moveAt (s : State) (c : CellId) (id : Nat) : Option Move := (s.cell c).moves.find? (fun m => m.id == id)

/-- Bytes that arrive for a destination belong to a line that the move still has (R708). -/
def State.moveWants (s : State) (c : CellId) (id dst : Nat) : Bool :=
  match s.moveAt c id with
  | none => false
  | some m => m.pieces.any (fun p => decide (p.dst ≤ dst ∧ dst < p.dst + p.n))

/-- R454, R478, R484: a crate of a move is lost, flushed or stalled: the status in ST of its engine, and the move will put no token. -/
def State.moveLost (s : State) (c : CellId) (id : Nat) (code : Nat) : State :=
  match s.moveAt c id with
  | none => s
  | some m => (s.modMove c id (fun m => { m with lost := true })).lateSt m.owner code

/-- What the loss (CRATE_LOST), the flush (FLUSHED) or the stall (CDC_STALL) of a crate does to its issuer (R454, R478, R484). -/
def State.lostFor (s : State) (w : CrateBy) (code : Nat) : State :=
  match w with
  | .move c id => s.moveLost c id code
  | .moveTok e => s.lateSt e code
  | .eng e => (s.setSt e code).setHold e .none
  | .host h => s.setSt (.host h) code
  | .loft d f =>
    match (s.lofts[d]).fills.find? (fun k => k.num == f) with
    | none => s
    | some k =>
      let s := { s with lofts := s.lofts.set d { s.lofts[d] with fills := (s.lofts[d]).fills.filter (fun k => k.num ≠ f) } }
      s.moveLost k.cell k.move code
  | .pdma e ch b => s.pdmaBreak e ch code (some b)
  | .pdmaOld _ _ _ => s
  | .unit => s

/-- A load of a host core that was held ends in DATA_ERROR: no data came, or marked data (R118, R454; log entry 69). The trap is that of the load. -/
def HostCore.loadFails (k : HostCore) (num : Nat) : HostCore :=
  match k.hold with
  | .hostRead m _ _ _ ea => if m = num then { k with hold := .none, pc := k.pc - 4 }.takeExc (excData ea.toNat) 0 else k
  | _ => k

/-- A put of a lost crate that waits at its queue may or may not enter it. -/
def Queue.orphan (q : Queue) (n : Nat) (stays : Bool) : Queue :=
  { q with waiting := if stays then q.waiting.map (fun p => if p.who = .crate n then { p with who := .unit } else p)
                      else q.waiting.filter (fun p => p.who ≠ .crate n) }

/-- A crate ends without its answer, with a status: the bytes of a WR are undefined, unless a flush or a stall meets only the ACK of one that is
performed (R478); the entry of a TPUT may be in its queue: one that has arrived there may
still enter, and one on its way may still arrive (R454). -/
def State.endCrate (s : State) (c : Crate) (code : Nat) : State :=
  let s := s.dropCrate c.num
  let s := match c.req with
    | .wr => if c.kind = CrateKind.ack ∧ code ≠ 17 then s else s.spoil c.pa c.len
    | .rd => match c.who with | .pdmaOld _ _ _ => if (winOf c.dest).isSome then s else s.spoil c.dest c.len | _ => s
    | .tput =>
      let (b, s) := s.drawBool
      if (s.queueAt c.q).waiting.any (fun p => p.who == Putter.crate c.num) then s.setQueueAt c.q ((s.queueAt c.q).orphan c.num b)
      else if c.kind = CrateKind.tput ∧ b then s.offer c.q .unit c.val
      else s
    | _ => s
  let s := match c.who with | .host h => s.modHost h (fun k => k.loadFails c.num) | _ => s
  s.lostFor c.who code

/-- R454: a crate is declared lost. -/
def State.loseCrate (s : State) (c : Crate) : State := ((s.d2dErr c.src 0).count (.d2d c.src) 0x18 15 0 1).endCrate c 17

/-- The module on which a die places a crate toward a neighbour: any in service, as a free choice says; none while all retrain (R448, R451). -/
def State.pickModule (s : State) (a b : Fin 7) : Option (Fin 10) :=
  let ms := s.edgeServing a b
  (ms[Config.freeNat s.free % max 1 ms.length]?).map (Fin.ofNat 10)

/-- A crate is sent, or lost at once where an edge of its route is lost or a die of it fenced (R448, R454). -/
def State.sendCrate (s : State) (c : Crate) : State :=
  let route := s.route c.src (c.route.headD c.src)
  let c := { c with num := s.crateNext, cur := c.src, route := route, back := (c.src :: route.dropLast).reverse,
                    modl := s.pickModule c.src (route.headD c.src), path := c.src :: route }
  let s := { s with crateNext := s.crateNext + 1, free := s.free + 1 }
  let code := s.crossCode c.src (route.headD c.src)
  if !s.routeOk c.src route then s.loseCrate c
  else if code ≠ 0 then s.endCrate c code
  else { s with crates := s.crates ++ [c] }

/-- The marked parts of a crate's data: all of it, where the crate carries the mark (R445). -/
def Crate.markParts (c : Crate) : List (Nat × Nat) := if c.mark then [(0, c.data.length)] else []

/-- A crate with nothing filled in but its kind, issuer and dies. -/
def crateOf (kind : CrateKind) (who : CrateBy) (src dst : Fin 7) : Crate :=
  { num := 0, kind := kind, req := kind, who := who, src := src, cur := src, route := [dst], back := [], pa := 0, len := 0, data := [],
    mark := false, dest := 0, q := 0, val := 0, scope := .sys, timedOut := false, modl := none, path := [], passed := [] }

/-- The bytes of a Loft line that a write covers, and the state of its 64-bit words: one that a marked part reaches is marked, one written whole
is clean (R168, R214, R219). -/
def LoftLine.put (k : LoftLine) (pa : Nat) (data : List Byte) (parts : List (Nat × Nat)) : LoftLine :=
  let base := k.line * 128
  { k with
    data := k.data.zipIdx.map (fun p => if pa ≤ base + p.2 then (data[base + p.2 - pa]?).getD p.1 else p.1),
    ecc := (List.range 16).foldl (fun l w =>
      let g := base + 8 * w
      if parts.any (fun p => meets (pa + p.1) p.2 g 8) then sparseSet (fun _ => Ecc.clean) w .marked l
      else if pa ≤ g ∧ g + 8 ≤ pa + data.length then sparseSet (fun _ => Ecc.clean) w .clean l
      else l) k.ecc }

/-- R214: a write by a die to a remote address updates the Loft line that holds it, also while EN is 0 (DESIGN CHOICE, log entry 129). -/
def State.loftThrough (s : State) (src : Fin 7) (pa : Nat) (data : List Byte) (parts : List (Nat × Nat)) : State :=
  if h : src.val < 4 then
    let l := s.lofts[src.val]
    { s with lofts := s.lofts.set src.val { l with lines := l.lines.map (fun k => k.put pa data parts) } }
  else s

/-- A write of a unit of a die that its MMU has translated: through the die's Loft where it is remote (R214). -/
def State.dieWrite (s : State) (d : Fin 4) (pa : Nat) (data : List Byte) (parts : List (Nat × Nat)) : State :=
  ((if (dieOf pa).val = d.val then s else s.loftThrough (Fin.ofNat 7 d) pa data parts).write pa data).markParts pa parts

/-- R445, R446: WR crates for bytes bound for another die, cut at 256-byte boundaries; a crate is marked where a marked part of the data lies in it. `fuel` bounds the cuts. -/
def State.sendWr (s : State) (who : CrateBy) (src : Fin 7) (scope : Scope) (pa : Nat) (data : List Byte) (parts : List (Nat × Nat)) : Nat → State
  | 0 => s
  | fuel + 1 =>
    if data.isEmpty then s
    else
      let n := crateRoom pa data.length
      let s := s.sendCrate { crateOf .wr who src (dieOf pa) with pa := pa, len := n, data := data.take n, mark := parts.any (fun p => decide (p.1 < n)), scope := scope }
      s.sendWr who src scope (pa + n) (data.drop n) (partsAfter n parts) fuel

/-- RD crates for bytes of another die, whose data go to `dest`. -/
def State.sendRd (s : State) (who : CrateBy) (src : Fin 7) (pa dest n : Nat) : Nat → State
  | 0 => s
  | fuel + 1 =>
    if n = 0 then s
    else
      let k := crateRoom pa n
      let s := s.sendCrate { crateOf .rd who src (dieOf pa) with pa := pa, len := k, dest := dest }
      s.sendRd who src (pa + k) (dest + k) (n - k) fuel

/-- Bytes that reach an inbound buffer of the acoustic engine count as arrived (R397, R690). -/
def State.acoArrive (s : State) (pa n : Nat) : State :=
  if 0xF401800000 ≤ pa ∧ pa < 0xF401890000 then
    let b : Fin 2 := Fin.ofNat 2 ((pa - 0xF401800000) / 0x48000)
    { s with aco := { s.aco with got := s.aco.got.set b (s.aco.got[b] + n) } }
  else s

/-- Whose direct stores the bytes are that a PDMA channel writes into the hub's memory: fences and tokens order them (R24, R501). -/
def CrateBy.stores : CrateBy → Option StoreBy
  | .pdma e ch _ => some (.pdma e ch)
  | .pdmaOld e ch _ => some (.pdma e ch)
  | _ => none

/-- The status of what a die writes into its own part of the address map: into its DRAM, or on the hub into a peripheral's window or port, while the
crossing there is held or stalled; 0 where it is not (R478, R479, R484). -/
def State.landCut (s : State) (src : Fin 7) (pa : Nat) : Nat :=
  if h : src.val < 4 then (if pa < 0x4000000000 then s.memCut ⟨src.val, h⟩ else 0)
  else match winOf pa with
    | some w => s.perCut (winDom w)
    | none => if inAcoPort pa then s.perCut (some 11) else 0

/-- Bytes reach their destination: memory of the issuing die, or WR crates to another die. What meets a held or stalled crossing is not written, and what
owns it ends with the status. On a compute die the access reaches its unit (R544). -/
def State.land (s : State) (who : CrateBy) (src : Fin 7) (scope : Scope) (pa : Nat) (data : List Byte) (parts : List (Nat × Nat)) : State :=
  if dieOf pa = src ∧ s.landCut src pa ≠ 0 then s.lostFor who (s.landCut src pa)
  else if dieOf pa = src then match winOf pa with
    | some w => (s.winPush w data).1
    | none =>
      let s := s.reachAt pa
      match who.stores with
      | some w => if inAcoPort pa then ((s.write pa data).markParts pa parts).acoArrive pa data.length else s.store w pa data parts
      | none => ((s.write pa data).markParts pa parts).acoArrive pa data.length
  else
    (s.loftThrough src pa data parts).sendWr who src scope pa data parts (data.length + 1)

/-- Bytes of a move reach their destination at the move's scope, where it still has their line (R708); where its source and destination overlap,
they are undefined (R120, R168). -/
def State.moveLand (s : State) (c : CellId) (id : Nat) (dst : Nat) (data : List Byte) (parts : List (Nat × Nat)) : State :=
  match s.moveAt c id with
  | none => s
  | some m =>
    if !s.moveWants c id dst then s
    else
      let (data, s) := if m.overlap then s.freeBytes data.length else (data, s)
      s.land (.move c id) (Fin.ofNat 7 c.die) m.scope dst data parts

/-- A put toward another die (R175, R209). -/
def State.sendPut (s : State) (who : CrateBy) (src : Fin 7) (scope : Scope) (q : BitVec 15) (v : W32) : State :=
  s.sendCrate { crateOf .tput who src (Fin.ofNat 7 (s.queueCell q).die) with q := q, val := v, scope := scope, len := 4 }

/-- A put of a unit or of a move's completion token: into a queue of its own die, or as a crate (R209). -/
def State.putToken (s : State) (who : Putter) (by_ : CrateBy) (src : Fin 7) (scope : Scope) (q : BitVec 15) (v : W32) : State :=
  if (s.queueCell q).die.val = src.val then s.offer q who v else s.sendPut by_ src scope q v

/-! ### Loft -/

/-- R215: whether a mask covers a line. -/
def maskCovers (mask : W32) (line : Nat) (group : Fin 16) : Bool :=
  mask.getLsbD (dieOf (line * 128)).val && mask.getLsbD (16 + group.val)

/-- The first scan of a list starts: the fills requested before it that it covers will be installed invalid (R218). -/
def Loft.startScan (l : Loft) : Loft :=
  match l.scans with
  | [] => l
  | (_, mask) :: _ => { l with fills := l.fills.map (fun f => if maskCovers mask f.line f.group then { f with dead := true } else f) }

/-- R217: an invalidation arrives at a Loft; it starts at once where no other runs, and waits for its turn otherwise. Its number is the result. -/
def State.loftScan (s : State) (d : Fin 4) (mask : W32) : Nat × State :=
  let s := s.reach d 17
  let l := s.lofts[d]
  let n := { l with scans := l.scans ++ [(l.scanNext, mask)], scanNext := l.scanNext + 1 }
  (l.scanNext, { s with lofts := s.lofts.set d (if l.scans.isEmpty then n.startScan else n) })

/-- Whether a scan has completed. -/
def State.scanDone (s : State) (d : Fin 4) (n : Nat) : Bool := !(s.lofts[d]).scans.any (fun p => p.1 == n)

/-- LOFT_SCAN_DONE: the running scan has invalidated every line it covers, and the next one starts (R217). -/
def State.loftScanDone (s : State) (d : Fin 4) : State :=
  let l := s.lofts[d]
  match l.scans with
  | [] => s
  | (_, mask) :: r =>
    { s with lofts := s.lofts.set d ({ l with scans := r, lines := l.lines.filter (fun k => !maskCovers mask k.line k.group) } : Loft).startScan }

/-- The 64-bit words of a line that `n` bytes from an offset touch, and the state of one. -/
def loftWords (off n : Nat) : List Nat := (List.range 16).filter (fun w => meets off n (8 * w) 8)
def LoftLine.eccAt (k : LoftLine) (w : Nat) : Ecc := sparseGet (fun _ => Ecc.clean) w k.ecc

/-- The parts of a read of a line that are marked. -/
def LoftLine.parts (k : LoftLine) (off n : Nat) : List (Nat × Nat) :=
  ((loftWords off n).filter (fun w => k.eccAt w == .marked)).map (fun w => (max (8 * w) off - off, min (8 * w + 8) (off + n) - max (8 * w) off))

/-- A line leaves a Loft. -/
def Loft.remove (l : Loft) (line : Nat) : Loft := { l with lines := l.lines.filter (fun k => k.line ≠ line) }

/-- A lookup of `n` bytes of a line that a Loft may hold (R213): a line found may have been replaced before. A single-bit error is corrected; an
uncorrectable one invalidates the line, which is counted and then fetched again (R219, R224). -/
def State.loftLookup (s : State) (d : Fin 4) (line off n : Nat) : Option LoftLine × State :=
  let s := s.reach d 17
  match (s.lofts[d]).lines.find? (fun k => k.line == line) with
  | none => (none, s)
  | some k =>
    let (b, s) := s.drawBool
    let l := s.lofts[d]
    let ws := loftWords off n
    if !b then (none, { s with lofts := s.lofts.set d (l.remove line) })
    else if ws.any (fun w => k.eccAt w == .double) then
      (none, { s with lofts := s.lofts.set d (l.remove line) }.count (.loft d) 8 15 0 1)
    else
      let k' := { k with ecc := k.ecc.filter (fun p => !(p.2 == .single && ws.contains p.1)) }
      (some k', { s with lofts := s.lofts.set d { l with lines := l.lines.map (fun x => if x.line = line then k' else x) } })

/-- The set of a line, 16 ways wide (R213). Which 14 bits of the line number select it the spec does not say: the low ones (DESIGN CHOICE, log
entry 113). -/
def loftSet (line : Nat) : Nat := line % 16384

/-- A line enters its set; where all 16 ways are taken, one of them, as a free choice says, is displaced (R213). -/
def Loft.install (l : Loft) (k : LoftLine) (pick : Nat) : Loft :=
  let l := l.remove k.line
  let ways := l.lines.filter (fun x => loftSet x.line == loftSet k.line)
  let l := if ways.length < 16 then l else match ways[pick % ways.length]? with | some v => l.remove v.line | none => l
  { l with lines := k :: l.lines }

end Sys2Proof.Machine
end

