-- ==== Sys2Proof/Machine/Move.lean ====
section
/-! DEFINITION. Moves (R166 to R170, R709), scalar moves to the local store (R171), and Shelf slots (R248 to R260, R708). -/

namespace Sys2Proof.Machine

/-- Whether an address lies in DRAM or in a memory of R186; other addresses of a window are registers or nothing. -/
def isMem (pa : Nat) : Bool :=
  if pa < 0xF000000000 then true
  else if pa < 0xF400000000 then
    let o := pa % 0x1000000
    decide (pa % 0x100000000 < 0x10000000) &&
      (decide (o < 0x600000) || decide (0x800000 ≤ o ∧ o < 0x810000) || decide (0x900000 ≤ o ∧ o < 0x980000) ||
        decide (0xA00000 ≤ o ∧ o < 0xA80000))
  else decide (0xF500000000 ≤ pa ∧ pa < 0xF700000000 ∧ 0x80000000 ≤ pa % 0x100000000 ∧ pa % 0x100000000 < 0x88000000)

/-! ### Descriptors -/

/-- The address of Shelf offset 0 of a cell (R186). -/
def shelfBase (c : CellId) (sh : Nat) : Nat := cellBase c.num + 0xA00000 + sh * 0x40000

/-- SLOTS and SLOT_UNITS of a Shelf (R263). -/
def State.shelfSlots (s : State) (c : CellId) (sh : Nat) : Nat := s.fld (cellBlk c) (0x200 + 4 * sh) 6 0
def State.shelfUnits (s : State) (c : CellId) (sh : Nat) : Nat := s.fld (cellBlk c) (0x200 + 4 * sh) 26 16

/-- A move descriptor (R167). -/
structure Desc where
  srcSp : Nat
  src : Nat
  dstSp : Nat
  dst : Nat
  len : Nat
  count : Nat
  cons : Nat
  sstr : Int
  dstr : Int
  deriving DecidableEq, Repr

/-- The fields of a descriptor word by word, as a number of 256 bits. -/
def descOf (v : Nat) : Desc :=
  { src := v % 2 ^ 48, srcSp := v / 2 ^ 48 % 16, dst := v / 2 ^ 64 % 2 ^ 48, dstSp := v / 2 ^ 112 % 16, len := v / 2 ^ 128 % 2 ^ 24,
    count := v / 2 ^ 160 % 65536, cons := v / 2 ^ 176 % 4, sstr := sgn 32 (v / 2 ^ 192), dstr := sgn 32 (v / 2 ^ 224) }

/-- The reserved bits of a descriptor are 0. -/
def descClean (v : Nat) : Bool :=
  v / 2 ^ 52 % 2 ^ 12 == 0 && v / 2 ^ 116 % 2 ^ 12 == 0 && v / 2 ^ 152 % 256 == 0 && v / 2 ^ 178 % 2 ^ 14 == 0

/-- An address of a space has no bit set that must be 0 (R167). -/
def spaceOk (sp a : Nat) : Bool := match sp with | 0 => true | 1 => decide (a < 2 ^ 23) | 2 => decide (a < 2 ^ 40) | _ => false

/-- The cell and the Shelf of a SHELF address, and its offset (R167). -/
def shelfOf (die : Fin 4) (a : Nat) : CellId × Nat × Nat := (⟨die, Fin.ofNat 16 (a / 2 ^ 19)⟩, a / 2 ^ 18 % 2, a % 2 ^ 18)

/-- R249: the slots of the lines of a move into a tracked Shelf, none where a condition is violated. -/
def trackSlots (d : Desc) (sh off slots units : Nat) : Option (List (Fin 128)) :=
  let sz := units * 256
  let k := off / sz
  let step := d.dstr.toNat / sz
  if d.cons = 0 ∨ sz = 0 ∨ off % sz ≠ 0 ∨ d.dstr ≤ 0 ∨ d.dstr.toNat % sz ≠ 0 ∨ sz < d.len ∨ slots ≤ k + (d.count - 1) * step then none
  else some ((List.range d.count).map (fun i => Fin.ofNat 128 (sh * 64 + k + i * step)))

/-- R167, R248, R249: a descriptor's check: none where it raises ILLEGAL_OPERAND, otherwise the consumer of a move into a tracked Shelf. -/
def State.descCheck (s : State) (die : Fin 4) (v : Nat) : Option (Option (CellId × List (Fin 128))) :=
  let d := descOf v
  if !descClean v || !spaceOk d.srcSp d.src || !spaceOk d.dstSp d.dst || d.len == 0 || d.count == 0 then none
  else if d.dstSp = 1 then
    let (c, sh, off) := shelfOf die d.dst
    let c := s.mainOf c
    let slots := s.shelfSlots c sh
    if slots = 0 then (if d.cons = 0 then some none else none)
    else (trackSlots d sh off slots (s.shelfUnits c sh)).map (fun l => some (c, l))
  else if d.cons = 0 then some none
  else none

/-! ### Pieces of lines -/

/-- Byte `k` of line `i` of an end that is no virtual address: its package address and the bytes of its store that follow, or the address
of the fault (R118, log entry 16). -/
def localAt (c : CellId) (e : MoveEnd) (i k : Nat) : Except Nat (Nat × Nat) :=
  if e.sp = 0 then
    let a : Int := e.base + i * e.str + k
    if 0 ≤ a ∧ a ≤ lsLast then .ok (lsBase c + a.toNat, lsLast + 1 - a.toNat) else .error (a % 2 ^ 32).toNat
  else
    let (x, sh, off) := shelfOf c.die e.base
    let a : Int := off + i * e.str + k
    if 0 ≤ a ∧ a < 2 ^ 18 then .ok (shelfBase x sh + a.toNat, 2 ^ 18 - a.toNat) else .error ((e.base + i * e.str + k) % 2 ^ 32).toNat

/-- The virtual address of byte `k` of line `i`, within 2^40 (R111, R167). -/
def vaAt (e : MoveEnd) (i k : Nat) : Nat := ((e.base + i * e.str + k : Int) % 2 ^ 40).toNat

/-- Where a byte of an end lies: its package address, the bytes that follow it in its page or store, its Loft group and the pages
translated; or the exception. -/
def State.endAt (s : State) (c : CellId) (eng : Engine) (e : MoveEnd) (acc : Acc) (pages : List Page) (i k : Nat) :
    Except Exc (Nat × Nat × Fin 16 × List Page) × State :=
  if e.sp = 2 then
    let va := vaAt e i k
    let m : Fin 5 := ⟨c.die, by omega⟩
    match s.missNoted c (s.transIn m (s.level eng == .user) acc pages va) with
    | (.ok (p, ps), s) =>
      let pa := p.phys va
      if isMem pa then (.ok (pa, min (p.room va) (2 ^ 40 - va), p.grp, ps), s) else (.error (excAccess va), s)
    | (.error (cause, lvl, _), s) => (.error (excTrans va), s.mmuFault m c.idx (engCode eng) cause lvl va)
  else
    match localAt c e i k with
    | .ok (pa, room) => (.ok (pa, room, 0, pages), s)
    | .error a => (.error (excAccess a), s)

/-- The progress of translating a move: pieces in order, and the pages that it has translated (R195). -/
structure Cut where
  pieces : List Piece
  pages : List Page
  deriving DecidableEq, Repr

/-- The pieces of line `i` from byte `k` on, `n` bytes left; `fuel` bounds their number. -/
def cutLine (c : CellId) (eng : Engine) (a b : MoveEnd) (i : Nat) : Nat → Nat → Nat → Cut → State → (Option Exc × Cut) × State
  | 0, _, _, u, s => ((none, u), s)
  | fuel + 1, k, n, u, s =>
    if n = 0 then ((none, u), s)
    else match s.endAt c eng a .read u.pages i k with
    | (.error x, s) => ((some x, u), s)
    | (.ok (pa, ra, g, ps), s) =>
      match s.endAt c eng b .write ps i k with
      | (.error x, s) => ((some x, { u with pages := ps }), s)
      | (.ok (pb, rb, _, ps), s) =>
        let m := min n (min ra rb)
        cutLine c eng a b i fuel (k + m) (n - m) ⟨u.pieces ++ [⟨i, pa, pb, m, g⟩], ps⟩ s

/-- The pieces of lines `i` on, `n` lines left. At a fault the lines before the faulting one remain, with their number (R169). -/
def cutLines (c : CellId) (eng : Engine) (a b : MoveEnd) (len : Nat) : Nat → Nat → Cut → State → (Option Exc × Nat × Cut) × State
  | 0, i, u, s => ((none, i, u), s)
  | n + 1, i, u, s =>
    match cutLine c eng a b i (len + 1) 0 len u s with
    | ((some x, v), s) => ((some x, i, { u with pages := v.pages }), s)
    | ((none, u), s) => cutLines c eng a b len n (i + 1) u s

/-- Whether source and destination of a move overlap (R168). -/
def piecesOverlap (l : List Piece) : Bool := l.any (fun p => l.any (fun q => meets p.src p.n q.dst q.n))

/-- Whether destination pieces overlap among themselves, so that the order of their bytes shows (R168). -/
def dstOverlap : List Piece → Bool
  | [] => false
  | p :: r => r.any (fun q => meets p.dst p.n q.dst q.n) || dstOverlap r

/-! ### Progress of a move -/

/-- Whether a piece is read and written inside the die of its cell. -/
def localPiece (c : CellId) (p : Piece) : Bool := (dieOf p.src).val == c.die.val

/-- A read of a piece's bytes, with the parts of it that are marked and carry their mark onward (R168). -/
def State.readPiece (s : State) (pa n : Nat) : (List Byte × List (Nat × Nat)) × State :=
  let s := s.touch pa n
  ((s.bytes pa n, s.markedParts pa n), s)

/-- The remote reads of a piece: through the Loft with LOFT = 1 and the Loft in use (R168, R213), and as RD crates otherwise. -/
def State.requestLine (s : State) (c : CellId) (id : Nat) (grp : Fin 16) (pa dst n : Nat) : State :=
  let line := pa / 128
  let d := c.die
  match s.loftLookup d line (pa % 128) n with
  | (some k, s) =>
    let s := s.perfDue c (fun p => { p with hits := p.hits + 1 })
    s.moveLand c id dst ((k.data.drop (pa % 128)).take n) (k.parts (pa % 128) n)
  | (none, s) =>
    let s := s.perfDue c (fun p => { p with misses := p.misses + 1 })
    let l := s.lofts[d]
    let f : LoftFill := { num := l.fillNext, line := line, group := grp, data := none, dead := false, cell := c, move := id, off := pa % 128,
                          n := n, dst := dst }
    let s := { s with lofts := s.lofts.set d { l with fills := l.fills ++ [f], fillNext := l.fillNext + 1 } }
    s.sendRd (.loft d f.num) (Fin.ofNat 7 d) (line * 128) 0 128 2

def State.requestLines (s : State) (c : CellId) (id : Nat) (grp : Fin 16) (pa dst n : Nat) : Nat → State
  | 0 => s
  | fuel + 1 =>
    if n = 0 then s
    else
      let k := min n (128 - pa % 128)
      (s.requestLine c id grp pa dst k).requestLines c id grp (pa + k) (dst + k) (n - k) fuel

/-- Whether the Loft may serve a read of the cell's die (R23, R213, R223). -/
def State.loftUsed (s : State) (c : CellId) (loft : Bool) (pa : Nat) : Bool :=
  loft && (s.reg (.loft c.die) 0).getLsbD 0 && decide (pa < 0x5000000000) && (dieOf pa).val != c.die.val

/-- The traffic of a piece that leaves its cell is charged to the cell's port (R509). -/
def State.chargePiece (s : State) (c : CellId) (p : Piece) : State :=
  let own := fun (a : Nat) => decide (cellBase c.num ≤ a ∧ a < cellBase c.num + 0x1000000)
  if own p.src && own p.dst then s else s.charge (Fin.ofNat 5 c.die) c.idx p.n

/-- What starts for a piece when its line may be sent: its remote reads, or its WR crates toward another die. A piece inside the die is
copied when its line is performed. -/
def State.startPiece (s : State) (c : CellId) (m : Move) (p : Piece) : State :=
  let d : Fin 7 := Fin.ofNat 7 c.die
  let s := s.chargePiece c p
  if localPiece c p then
    if dieOf p.dst = d then s
    else
      let ((data, parts), s) := (s.reachAt p.src).readPiece p.src p.n
      s.moveLand c m.id p.dst data parts
  else if s.loftUsed c m.loft p.src then s.requestLines c m.id p.grp p.src p.dst p.n (p.n + 1)
  else s.sendRd (.move c m.id) d p.src p.dst p.n (p.n + 1)

/-- The pieces of one line. -/
def Move.line (m : Move) (i : Nat) : List Piece := m.pieces.filter (fun p => p.line == i)

/-- A Shelf slot (R250). -/
def State.slot (s : State) (c : CellId) (n : Fin 128) : Slot := (s.cell c).slots[n]
def State.setSlot (s : State) (c : CellId) (n : Fin 128) (x : Slot) : State := s.modCell c (fun k => { k with slots := k.slots.set n x })

def SlotSt.code : SlotSt → Nat | .free => 0 | .filling => 1 | .ready => 2

/-- CELL_SHELF_SLOT_n (R267). -/
def Slot.word (k : Slot) : W32 := BitVec.ofNat 32 (k.fills.toNat * 256 + k.st.code * 16 + k.count.toNat)

/-- R708: the claims of the lines from `n` on, which a stopped move has not sent, are withdrawn. -/
def State.withdraw (s : State) (c : CellId) (m : Move) (n : Nat) : State :=
  match m.shelf with
  | none => s
  | some (t, l) =>
    (l.zipIdx.filter (fun p => decide (n ≤ p.2))).foldl (fun s p =>
      let x := s.slot t p.1
      let x := { x with waiting := x.waiting.filter (fun k => !(k.cell == c && k.id == m.id)) }
      s.setSlot t p.1 (if m.granted.contains p.2 then { x with st := .free, freeAt := some (s.cell t).cycle } else x)) s

/-- Whether a piece reads or writes the DRAM of its own die. -/
def Piece.ownDram (d : Fin 4) (p : Piece) : Bool :=
  let own := some (d.castLE (by omega) : Fin 5)
  dramWin p.src == own || dramWin p.dst == own

/-- A move that meets the held or stalled crossing toward its die's DRAM ends with the status, and its pieces there are not performed (R478, R484). -/
def State.cutMove (s : State) (c : CellId) (id : Nat) : State :=
  match s.moveAt c id with
  | none => s
  | some m =>
    if s.memCut c.die ≠ 0 && m.pieces.any (fun p => p.ownDram c.die) then
      (s.moveLost c id (s.memCut c.die)).modMove c id (fun m => { m with pieces := m.pieces.filter (fun p => !p.ownDram c.die) })
    else s

/-- R169, R708: a move stops before line `n`: it keeps its earlier lines and puts no token; where they are all performed, it ends. -/
def State.stopMove (s : State) (c : CellId) (id n : Nat) : State :=
  match s.moveAt c id with
  | none => s
  | some m =>
    let s := s.withdraw c m n
    if (List.range n).all m.filled.contains then s.modCell c (fun k => { k with moves := k.moves.filter (fun m => m.id ≠ id) })
    else s.modMove c id (fun m => { m with
      count := n, requested := min m.requested n, pieces := m.pieces.filter (fun p => decide (p.line < n)), rest := none, shelf := m.shelf.map (fun p => (p.1, p.2.take n)),
      tok := none })

/-- A move translates up to `k` more of its lines, and what is not gated by claims starts. At a fault it stops before the faulting line; the
result is the exception, to be raised for the MOVE (R169, R195). -/
def State.moveLines (s : State) (c : CellId) (id k : Nat) : Option Exc × State :=
  match s.moveAt c id with
  | none => (none, s)
  | some m =>
    match m.rest with
    | none => (none, s)
    | some r =>
      let ((x, n, u), s) := cutLines c m.owner r.src r.dst r.len (min k (r.total - r.next)) r.next ⟨[], m.pages⟩ s
      let all := m.pieces ++ u.pieces
      let m := { m with pieces := all, pages := u.pages, overlap := piecesOverlap all, rest := if r.total ≤ n then none else some { r with next := n } }
      let s := (s.modMove c id (fun _ => m)).cutMove c id
      let ps := if s.memCut c.die = 0 then u.pieces else u.pieces.filter (fun p => !p.ownDram c.die)
      let s := if m.shelf.isSome then s else ps.foldl (fun s p => s.startPiece c m p) s
      (x, if x.isSome then s.stopMove c id n else s)

/-- Lines that a move translates after its issue: a fault is raised against its engine then (R169). -/
def State.moveLate (s : State) (c : CellId) (id k : Nat) : State :=
  match (s.moveAt c id).bind (fun m => m.rest.map (fun r => (m.owner, r))) with
  | none => s
  | some (e, r) => match s.moveLines c id k with | (none, s) => s | (some x, s) => s.raise e 0 r.pc r.word x

/-- R250: lines are requested in order, each after its own claim and its predecessor's are granted, and once its pages are translated. -/
def State.requestGranted (s : State) (c : CellId) (id : Nat) : Nat → State
  | 0 => s
  | n + 1 =>
    match s.moveAt c id with
    | none => s
    | some m =>
      if m.requested < m.count ∧ m.granted.contains m.requested ∧ (m.requested = 0 ∨ m.granted.contains (m.requested - 1)) then
        let s := match m.rest with | some r => if r.next ≤ m.requested then s.moveLate c id (m.requested + 1 - r.next) else s | none => s
        match s.moveAt c id with
        | none => s
        | some m =>
          if m.count ≤ m.requested then s
          else
            let s := (m.line m.requested).foldl (fun s p => s.startPiece c m p) s
            (s.modMove c id (fun m => { m with requested := m.requested + 1 })).requestGranted c id n
      else s

/-- The copy of a piece inside the die; where source and destination of the move overlap, every destination becomes undefined (R120, R168). The
access reaches the cells at both ends (R544). -/
def State.copyPiece (s : State) (c : CellId) (overlap : Bool) (p : Piece) : State :=
  if overlap then s.spoil p.dst p.n
  else if !(localPiece c p && (dieOf p.dst).val == c.die.val) then s
  else
    let ((data, parts), s) := ((s.reachAt p.src).reachAt p.dst).readPiece p.src p.n
    (s.write p.dst data).markParts p.dst parts

/-- A free order of pieces. -/
def insFree (k : Nat) (p : Piece × Nat) : List (Piece × Nat) → List (Piece × Nat)
  | [] => [p]
  | q :: r => if Config.freeNat (k + p.2) < Config.freeNat (k + q.2) then p :: q :: r else q :: insFree k p r
def freeOrder (k : Nat) (l : List Piece) : List Piece := (l.zipIdx.foldl (fun acc p => insFree k p acc) []).map (·.1)

/-- The copies of pieces inside the die, in no defined order where their destinations overlap (R168). -/
def State.copyPieces (s : State) (c : CellId) (overlap : Bool) (l : List Piece) : State :=
  if dstOverlap l then
    let o := freeOrder s.free l
    o.foldl (fun s p => s.copyPiece c overlap p) { s with free := s.free + l.length }
  else l.foldl (fun s p => s.copyPiece c overlap p) s

/-- Whether crates or Loft fills of a move are outstanding for a range of destinations, or for any where `n` is 0. -/
def State.moveBusy (s : State) (c : CellId) (id : Nat) (dst n : Nat) : Bool :=
  s.crates.any (fun k => k.who == .move c id && (n == 0 || meets k.dest k.len dst n || k.kind == .wr || k.kind == .ack)) ||
    (s.lofts[c.die]).fills.any (fun f => f.cell == c && f.move == id && (n == 0 || meets f.dst f.n dst n))

/-- Bytes of a move inside its die may be performed before the others: a free choice names one byte of one move, or none (R205, R212). -/
def State.earlyByte (s : State) : State :=
  if s.cells.toList.all (fun k => k.moves.isEmpty) then s
  else
    let pick := fun (i n : Nat) => Config.freeNat (s.free + i) % max 1 n
    let s : State := { s with free := s.free + 4 }
    let c := cellOfNum (Fin.ofNat 64 (pick 0 64))
    match (s.cell c).moves[pick 1 (s.cell c).moves.length]? with
    | none => s
    | some m =>
      let ps := m.pieces.filter (fun p => localPiece c p && (dieOf p.dst).val == c.die.val && (m.shelf.isNone || (decide (p.line < m.requested) && !m.filled.contains p.line)))
      match ps[pick 2 ps.length]? with
      | none => s
      | some p =>
        let i := pick 3 (p.n + 1)
        if m.overlap || s.memCut c.die != 0 || p.n ≤ i || s.eccAt (p.src + i) != .clean then s
        else s.write (p.dst + i) [s.byte (p.src + i)]

/-! ### MOVE -/

/-- R170: a cell's move unit holds at most 32 moves. -/
def moveMax : Nat := 32

/-- R166 to R169: a move is issued: its descriptor is read and checked, and its lines are cut at page boundaries, and their remote pieces sent, for
a free number of lines at once: each page is translated at the first line in it, now or later (R195). A fault stops the move at the faulting line;
the lines before it are written, and no token is put. -/
def opMove (e : Engine) (d a : Reg) (scope : Scope) (tok loft : Bool) (w2 : W32) : Op :=
  let c := cellOf e
  { slot := 0, ext := true,
    legal := !isHost e && (if tok then !w2.getLsbD 15 else w2 == 0) && (isSeq e || d == 0), uses := [a],
    check := fun _ => if isSeq e && aregBad d then some excOperand else none,
    holds := fun s => decide (moveMax ≤ (s.cell c).moves.length),
    act := fun s =>
      let o := (s.xw e a).toNat
      if o % 32 ≠ 0 then .error (s, excAccess o)
      else do
        let (v, s) ← s.lsRead e o 32
        let some shelf := s.descCheck c.die v | .error (s, excOperand)
        let g := descOf v
        let base := fun (sp x : Nat) => if sp = 2 ∧ isSeq e then ((s.av c d).toNat + x) % 2 ^ 40 else x
        let rest : MoveRest :=
          { src := ⟨g.srcSp, base g.srcSp g.src, g.sstr⟩, dst := ⟨g.dstSp, base g.dstSp g.dst, g.dstr⟩, len := g.len, next := 0, total := g.count,
            pc := s.pc e, word := wordOf (.move e d a scope tok loft w2) }
        let k := s.cell c
        let m : Move :=
          { id := k.moveNext, owner := e, scope := scope,
            tok := if tok then some (BitVec.ofNat 15 w2.toNat, BitVec.ofNat 16 (w2.toNat / 65536)) else none,
            loft := loft, count := g.count, cons := BitVec.ofNat 2 g.cons, pieces := [], rest := some rest, shelf := shelf,
            arrived := 0, granted := [], requested := 0, filled := [], overlap := false, pages := [], lost := false, drains := false }
        let s := s.setCell c { k with moveNext := k.moveNext + 1, moves := k.moves ++ [m] }
        let now := if (g.srcSp = 2 ∨ g.dstSp = 2) && (s.portHeld (Fin.ofNat 5 c.die) c.idx || s.portHeld (Fin.ofNat 5 c.die) 17) then 0
          else if g.srcSp = 2 ∨ g.dstSp = 2 then Config.freeNat s.free % (g.count + 1) else g.count
        match { s with free := s.free + 1 }.moveLines c m.id now with
        | (some x, s) => .error (s, x)
        | (none, s) => .ok (s, .fall) }

/-- MOVE_COMPLETE: the bytes of a move are performed, and its token is put unless a crate of it was lost (R169, R209, R454). It does not complete
while the port of its cell holds requests (R511). The token of a paired main whose pair has not agreed does not leave it (R535). -/
def State.moveComplete (s : State) (c : CellId) (id : Nat) : State :=
  let s := match s.moveAt c id with
    | some m => if m.shelf.isSome || m.rest.isNone then s else s.unlessHeld (Fin.ofNat 5 c.die) c.idx fun s => s.unlessHeld (Fin.ofNat 5 c.die) 17 fun s => s.moveLate c id m.count
    | none => s
  let s := s.cutMove c id
  match s.moveAt c id with
  | none => s
  | some m =>
    if s.moveBusy c id 0 0 || m.rest.isSome || s.portOwes (Fin.ofNat 5 c.die) c.idx || (m.shelf.isSome && !(List.range m.count).all m.filled.contains) then s
    else
      let s := if m.shelf.isSome then s else s.copyPieces c m.overlap m.pieces
      let s := s.perfDue c (fun p => { p with moves := p.moves + (m.pieces.foldl (fun a p => a + p.n) 0 + 63) / 64 })
      let s := s.modCell c (fun k => { k with moves := k.moves.filter (fun m => m.id ≠ id) })
      match m.tok with
      | some (q, v) => if m.lost || (s.cell c).pairStopped then s else (s.charge (Fin.ofNat 5 c.die) c.idx 4).putToken (.mv m.owner) (.moveTok m.owner) (Fin.ofNat 7 c.die) m.scope q (v.setWidth 32)
      | none => s

/-- The data of a fill are those that memory holds: no write was performed since they were read, and none of the die's own is on its way (R214, R216). -/
def State.fillCurrent (s : State) (d : Fin 4) (line : Nat) (data : List Byte) : Bool :=
  s.bytes (line * 128) 128 == data && !s.crates.any (fun k => k.kind == .wr && k.src.val == d.val && meets k.pa k.len (line * 128) 128)

/-- LOFT_FILL_RETURN: the i-th fill whose data are back answers its move and is installed, unless a scan covers it, its data are marked or are no
longer those of memory (R216, R218, log entry 17). -/
def State.loftFillReturn (s : State) (d : Fin 4) (i : Nat) : State :=
  let l := s.lofts[d]
  match (l.fills.filter (fun f => f.data.isSome))[i]? with
  | none => s
  | some f =>
    match f.data with
    | none => s
    | some (data, mark) =>
      let keep := !f.dead && !mark && s.fillCurrent d f.line data && (s.reg (.loft d) 0).getLsbD 0
      let l := { l with fills := l.fills.filter (fun k => k.num ≠ f.num) }
      let l := if keep then l.install ⟨f.line, f.group, data, []⟩ (Config.freeNat s.free) else l
      let s := { s with lofts := s.lofts.set d l, free := s.free + 1 }
      s.moveLand f.cell f.move f.dst ((data.drop f.off).take f.n) (if mark then [(0, f.n)] else [])

/-! ### Scalar moves -/

/-- R171: LDS reads a local store word with a variable latency: on a sequencer at its issue or later, as a free choice says, since later accesses
are not ordered behind it (R205); STS writes one. -/
def opLds (e : Engine) (d a b : Reg) : Op :=
  { slot := 1, legal := !isHost e, uses := [d, a, b],
    act := fun s =>
      let o := (s.xw e a + s.xw e b).toNat
      if o % 4 ≠ 0 || !lsIn o 4 then .error (s, excAccess o)
      else
        let (now, s) := if isSeq e && d != 0 then s.drawBool else (true, s)
        if now then do
          let (v, s) ← s.lsRead e o 4
          .ok (s.setVar e 1 d (BitVec.ofNat 32 v), .fall)
        else .ok (s.awaitVar e 1 d (some (o, s.pc e, wordOf (.lds e d a b))), .fall) }
def opSts (e : Engine) (d a b : Reg) : Op :=
  { slot := 1, legal := !isHost e, uses := [d, a, b],
    act := fun s => do
      let s ← s.lsWrite e (s.xw e a + s.xw e b).toNat 4 (s.xw e d).toNat
      .ok (s, .fall) }

/-- The read of an LDS that was not made at its issue: its value awaits VARIABLE_RESULT_WRITE; marked data raise DATA_ERROR, and nothing is
written (R118). -/
def State.lateRead (s : State) (c : CellId) (i o pc : Nat) (w : W32) : State :=
  let pends := (s.cell c).seq.pendV
  match pends[i]? with
  | none => s
  | some p =>
    match s.lsRead (.seq c) o 4 with
    | .error (s, x) => (s.modSeq c (fun q => { q with pendV := removeNth i pends })).raise (.seq c) 1 pc w x
    | .ok (v, s) => s.modSeq c (fun q => { q with pendV := setNth i { p with val := some (BitVec.ofNat 32 v), read := none } pends })

/-- Every read that a sequencer has issued is performed (R207). -/
def State.lateReads (s : State) (c : CellId) : Nat → State
  | 0 => s
  | fuel + 1 =>
    let pends := (s.cell c).seq.pendV
    match pends.findIdx? (fun p => p.val.isNone && p.read.isSome) with
    | none => s
    | some i =>
      match (pends[i]?).bind (·.read) with
      | none => s
      | some (o, pc, w) => (s.lateRead c i o pc w).lateReads c fuel
def State.readsDone (s : State) (e : Engine) : State := match e with | .seq c => s.lateReads c (s.cell c).seq.pendV.length | _ => s

/-! ### Shelf slots -/

/-- A Shelf fault of a cell: its bit, its slot and its report (R256, R257, R264, R265). -/
def State.shelfFault (s : State) (c : CellId) (bit : W32) (n : Fin 128) : State :=
  ((s.orReg (cellBlk c) 0x208 bit).setReg (cellBlk c) 0x20C (BitVec.ofNat 32 n.val)).report (.shelf c)

/-- A slot selector (R252): its slot and expected fills, or none where it is an operand fault. -/
def State.selector (s : State) (c : CellId) (v : W32) (fills : Bool) : Option (Fin 128 × BitVec 4) :=
  let sh := bits v 6 6
  if v.getLsbD 7 || bits v 31 12 != 0 || (!fills && bits v 11 8 != 0) || decide (s.shelfSlots c sh ≤ bits v 5 0) then none
  else some (Fin.ofNat 128 (bits v 6 0), BitVec.ofNat 4 (bits v 11 8))

/-- R253: SWAIT holds its engine until its slot is READY with the expected fills. -/
def opSwait (e : Engine) (d a : Reg) : Op :=
  { slot := 1, legal := !isHost e, uses := [d, a],
    act := fun s =>
      match s.selector (cellOf e) (s.xw e a) true with
      | none => .error (s, excOperand)
      | some (n, f) => .ok ((s.awaitVar e 1 d).pushHold e (.swait n f d), .fall) }

/-- R254: SREL acts first as FENCE REL at CELL scope, which holds its engine. -/
def opSrel (e : Engine) (a : Reg) : Op :=
  { slot := 1, legal := !isHost e, uses := [a],
    act := fun s =>
      match s.selector (cellOf e) (s.xw e a) false with
      | none => .error (s, excOperand)
      | some (n, _) => .ok (s.pushHold e (.srel n), .fall) }

/-- R252: SSTAT reads a slot's state. -/
def opSstat (e : Engine) (d a : Reg) : Op :=
  { slot := 1, legal := !isHost e, uses := [d, a],
    act := fun s =>
      match s.selector (cellOf e) (s.xw e a) false with
      | none => .error (s, excOperand)
      | some (n, _) => .ok (s.setVar e 1 d (s.slot (cellOf e) n).word, .fall) }

/-- The release of an SREL (R254, R257). -/
def State.release (s : State) (c : CellId) (n : Fin 128) : State :=
  let k := s.slot c n
  let now := (s.cell c).cycle
  if k.st = .ready then
    let v := k.count - 1
    s.setSlot c n (if v = 0 then { k with count := v, st := .free, freeAt := some now, relAt := some now } else { k with count := v, relAt := some now })
  else s.shelfFault c 1 n

/-- An SREL is applied in this cycle: no other one of the slot was, and no engine of its cell that comes before has one that waits (R75, R255). -/
def State.releaseTurn (s : State) (e : Engine) (n : Fin 128) : Bool :=
  let c := cellOf e
  (s.slot c n).relAt != some (s.cell c).cycle &&
    (match e with
     | .slv x => (s.cell c).seq.hold != .srel n && !((s.cell c).slv.toList.take x.core).any (fun v => v.hold == .srel n)
     | _ => true)

/-- A claim takes a FREE slot. -/
def State.takeSlot (s : State) (c : CellId) (n : Fin 128) (k : Claim) : State :=
  let x := s.slot c n
  ((s.setSlot c n { x with st := .filling, takenAt := some (s.cell c).cycle }).modMove k.cell k.id (fun m => { m with granted := k.line :: m.granted })).requestGranted k.cell k.id
    ((match s.moveAt k.cell k.id with | some m => m.count | none => 0) + 1)

/-- A claim joins those that wait at a slot of cell `c`: behind all that arrived before it, and in the order of R75 among those of its cycle (R250). -/
def insClaim (c : CellId) (k : Claim) : List Claim → List Claim
  | [] => [k]
  | x :: r => if x.at_ = k.at_ ∧ k.cell = c ∧ x.cell ≠ c then k :: x :: r else x :: insClaim c k r

/-- CLAIM_ARRIVAL: the next claim of a move arrives at its slot: it takes a FREE slot, or waits there; one that finds the slot freed in its own cycle
is granted in the next (R250, R255). Where the slot was taken in the current cycle, it counts as one of the next, so that the order of R75 holds. -/
def State.claimArrival (s : State) (c : CellId) (id : Nat) : State :=
  match s.moveAt c id with
  | none => s
  | some m =>
    match m.shelf with
    | none => s
    | some (t, l) =>
      match l[m.arrived]? with
      | none => s
      | some n =>
        let s := s.modMove c id (fun m => { m with arrived := m.arrived + 1 })
        let x := s.slot t n
        let now := (s.cell t).cycle
        let k : Claim := ⟨c, id, m.arrived, if x.takenAt = some now then now + 1 else now⟩
        if x.st = .free ∧ x.waiting.isEmpty ∧ x.freeAt ≠ some now then s.takeSlot t n k else s.setSlot t n { x with waiting := insClaim t k x.waiting }

/-- CLAIM_GRANT: the oldest claim waiting at a FREE slot takes it, not in the cycle in which it was freed (R250, R255, R708). -/
def State.claimGrant (s : State) (c : CellId) (n : Fin 128) : State :=
  let x := s.slot c n
  match x.waiting with
  | [] => s
  | k :: r =>
    if x.st = .free ∧ x.freeAt ≠ some (s.cell c).cycle ∧ k.at_ ≤ (s.cell c).cycle then (s.setSlot c n { x with waiting := r }).takeSlot c n k else s

/-- The lines of a move that may be performed in their slots: requested, not yet performed, and with no byte still on its way (R251). -/
def State.fillable (s : State) (c : CellId) (m : Move) : List Nat :=
  if s.portOwes (Fin.ofNat 5 c.die) c.idx then [] else
  (List.range m.requested).filter (fun i => !m.filled.contains i && !(m.line i).any (fun p => s.moveBusy c m.id p.dst p.n))

/-- LINE_FILL_COMPLETE: every byte of a line of a move is performed in its slot, which becomes READY; which of the lines that may be first is a free
choice (R251). -/
def State.lineFillComplete (s : State) (c : CellId) (id : Nat) : State :=
  let s := s.cutMove c id
  match s.moveAt c id with
  | none => s
  | some m =>
    match m.shelf with
    | none => s
    | some (t, l) =>
      let ready := s.fillable c m
      match ready[Config.freeNat s.free % max 1 ready.length]? with
      | none => s
      | some i =>
        match l[i]? with
        | none => s
        | some n =>
          let s := { s with free := s.free + 1 }.copyPieces c m.overlap (m.line i)
          let x := s.slot t n
          (s.setSlot t n { x with st := .ready, count := m.cons, fills := x.fills + 1 }).modMove c id (fun m => { m with filled := i :: m.filled })

/-- Whether a limit of CELL_TQ_WAIT_LIMIT is in force (R76, R88). -/
def State.waitLimit (s : State) (c : CellId) : Bool := decide (s.fld (cellBlk c) 0x1C 15 0 ≠ 0)

/-- CLAIM_TIMEOUT: a claim of a move that waits at its slot times out and stops the move. Of the lines that may have been sent, a free
number has been: they complete, and the claims of the others are withdrawn (R250, R256, R708). -/
def State.claimTimeout (s : State) (c : CellId) (id : Nat) : State :=
  match s.moveAt c id with
  | none => s
  | some m =>
    match m.shelf with
    | none => s
    | some (t, l) =>
      match (l.take m.arrived).zipIdx.find? (fun p => !m.granted.contains p.2) with
      | none => s
      | some (n, _) =>
        if !s.waitLimit t then s
        else
          let least := m.filled.foldl (fun a i => max a (i + 1)) 0
          let j := least + Config.freeNat s.free % (m.requested - least + 1)
          (({ s with free := s.free + 1 }.stopMove c id j).shelfFault t 4 n).lateSt m.owner 16

/-- SWAIT_TIMEOUT: an SWAIT that still waits completes without its acquire (R253, R256). -/
def State.swaitTimeout (s : State) (e : Engine) : State :=
  match s.hold e with
  | .swait n f d =>
    let c := cellOf e
    if !s.waitLimit c || ((s.slot c n).st == .ready && (s.slot c n).fills == f) then s
    else (((s.setHold e .none).shelfFault c 2 n).setSt e 16).deliver e d (status 0x10 n)
  | _ => s

/-- SWAIT completes when its slot is READY with the expected fills (R253). -/
def State.swaitDone (s : State) (e : Engine) (n : Fin 128) (f : BitVec 4) (d : Reg) : State :=
  let x := s.slot (cellOf e) n
  if x.st = .ready ∧ x.fills = f then ((s.readsDone e).setHold e .none).deliver e d (status 0 n) else s

/-! ### Meanings -/

/-- MOVE. -/
def execMove (e : Engine) (d a : Reg) (scope : Scope) (tok loft : Bool) (w2 : BitVec 32) (s : State) : Out :=
  .next (runOp e (wordOf (.move e d a scope tok loft w2)) (opMove e d a scope tok loft w2) s)
/-- LDS. -/
def execLds (e : Engine) (d a b : Reg) (s : State) : Out := .next (runOp e (wordOf (.lds e d a b)) (opLds e d a b) s)
/-- STS. -/
def execSts (e : Engine) (d a b : Reg) (s : State) : Out := .next (runOp e (wordOf (.sts e d a b)) (opSts e d a b) s)
/-- SWAIT. -/
def execSwait (e : Engine) (d a : Reg) (s : State) : Out := .next (runOp e (wordOf (.swait e d a)) (opSwait e d a) s)
/-- SREL. -/
def execSrel (e : Engine) (a : Reg) (s : State) : Out := .next (runOp e (wordOf (.srel e a)) (opSrel e a) s)
/-- SSTAT. -/
def execSstat (e : Engine) (d a : Reg) (s : State) : Out := .next (runOp e (wordOf (.sstat e d a)) (opSstat e d a) s)

/-! ### Meanings of events -/

/-- MOVE_COMPLETE. -/
def execMoveComplete (c : CellId) (id : Nat) (s : State) : Out := .next (s.onDie c.die fun s => s.moveComplete c id)
/-- LOFT_FILL_RETURN. -/
def execLoftFillReturn (d : Fin 4) (i : Nat) (s : State) : Out := .next (s.onDie d fun s => s.loftFillReturn d i)
/-- CLAIM_ARRIVAL. -/
def execClaimArrival (c : CellId) (id : Nat) (s : State) : Out := .next (s.onDie c.die fun s => s.claimArrival c id)
/-- CLAIM_GRANT. -/
def execClaimGrant (c : CellId) (slot : Fin 128) (s : State) : Out := .next (s.onDie c.die fun s => s.claimGrant c slot)
/-- LINE_FILL_COMPLETE. -/
def execLineFillComplete (c : CellId) (id : Nat) (s : State) : Out := .next (s.onDie c.die fun s => s.lineFillComplete c id)
/-- CLAIM_TIMEOUT. -/
def execClaimTimeout (c : CellId) (id : Nat) (s : State) : Out := .next (s.onDie c.die fun s => s.claimTimeout c id)
/-- SWAIT_TIMEOUT. -/
def execSwaitTimeout (e : Engine) (s : State) : Out := .next (s.onEngine e fun s => s.swaitTimeout e)
/-- LOFT_SCAN_DONE. -/
def execLoftScanDone (d : Fin 4) (s : State) : Out := .next (s.onDie d fun s => s.loftScanDone d)

end Sys2Proof.Machine
end

