-- ==== Sys2Proof/Machine/Attention.lean ====
section
/-! DEFINITION. The attention unit: the Larder engine and the normaliser (R72, R268 to R298, R304). -/

namespace Sys2Proof.Machine

/-- Field [hi:lo] of a little-endian run. -/
def fieldOf (v hi lo : Nat) : Nat := v / 2 ^ lo % 2 ^ (hi + 1 - lo)

/-! ### ATT.KV -/

/-- The ATT.KV descriptor of R276 as an operation, none where it raises ILLEGAL_OPERAND. -/
def kvOf (v : Nat) (d : Reg) : Option KvOp :=
  let seqn := fieldOf v 7 0
  let store := fieldOf v 8 8 = 1
  let t := fieldOf v 9 9 = 1
  let ew := fieldOf v 10 10
  let rowl := fieldOf v 14 11
  let stream := fieldOf v 63 32
  let first := fieldOf v 87 64
  let count := fieldOf v 106 96
  let ls := fieldOf v 159 128
  let lss := fieldOf v 191 160
  let rb := 2 ^ rowl
  let lines := if t then rb / (ew + 1) else count
  let width := if t then count * (ew + 1) else rb
  if fieldOf v 31 15 ≠ 0 ∨ fieldOf v 95 88 ≠ 0 ∨ fieldOf v 127 107 ≠ 0 ∨ fieldOf v 255 192 ≠ 0 ∨ (store ∧ t) ∨ rowl < 5 ∨ 11 < rowl ∨
      stream % 65536 ≠ 0 ∨ count = 0 ∨ 1024 < count ∨ ls % 32 ≠ 0 ∨ lss % 32 ≠ 0 ∨ 2 ^ 32 < stream + (first + count) * rb ∨ lss < width ∨
      lsLast < ls + (lines - 1) * lss + width - 1 then none
  else some
    { d := d, store := decide store, transpose := decide t, ew := ew + 1, rb := rb, va := 0x100000000 * (seqn + 1) + stream + first * rb,
      count := count, ls := ls, lss := lss, pages := [], dropped := none, seqn := BitVec.ofNat 8 seqn, drains := false }

/-- R277: the pages of an ATT.KV are translated in address order: the pages, the first fault that is not DROPPED, and the number of DROPPED
pages with the range word of the lowest. -/
def kvPages (c : CellId) (m : Fin 5) (user : Bool) (acc : Acc) : Nat → Nat → List Page × Option (Nat × Nat × Nat) × Nat × W32 → State →
    (List Page × Option (Nat × Nat × Nat) × Nat × W32) × State
  | 0, _, r, s => (r, s)
  | n + 1, va, (ps, flt, k, w), s =>
    match s.missNoted c (s.translate m user acc va) with
    | (.page p, s) => kvPages c m user acc n (va + 65536) (ps ++ [p], flt, k, w) s
    | (.fault f l r, s) =>
      if f = 3 then kvPages c m user acc n (va + 65536) (ps, flt, k + 1, if k = 0 then r else w) s
      else kvPages c m user acc n (va + 65536) (ps, (match flt with | some x => some x | none => some (f, l, va)), k, w) s

/-- The most ATT.KV that the Larder engine holds (R269). -/
def kvMax : Nat := 4

/-- R276, R277: ATT.KV reads its descriptor and translates its pages at issue. A fifth is held until an entry frees (log entry 18). -/
def opAttKv (c : CellId) (d a : Reg) : Op :=
  { slot := 3, uses := [d, d + 1, a], check := fun _ => if d.val = 31 then some excOperand else none,
    holds := fun s => decide (kvMax ≤ (s.cell c).kv.length) || s.portHeld (Fin.ofNat 5 c.die) 17,
    act := fun s =>
      let o := s.off c a
      if o % 32 ≠ 0 then .error (s, excAccess o)
      else do
        let (v, s) ← s.lsOperand c o 32
        let some k := kvOf (leNat v) d | .error (s, excOperand)
        let last := k.va + k.count * k.rb - 1
        let m : Fin 5 := ⟨c.die, by omega⟩
        let user := (s.cell c).level == .user
        let ((ps, flt, n, w), s) :=
          kvPages c m user (if k.store then .write else .read) (last / 65536 + 1 - k.va / 65536) (k.va / 65536 * 65536) ([], none, 0, 0) s
        match flt with
        | some (cause, lvl, va) => .error (s.mmuFault m c.idx 0x42 cause lvl va, excTrans va)
        | none =>
          match ps.find? (fun p => !isMem p.pa) with
          | some p => .error (s, excAccess p.va)
          | none =>
            let k := { k with pages := ps, dropped := if n = 0 then none else some (n, w) }
            let s := s.modCell c (fun q => { q with kv := q.kv ++ [k] })
            let s := if n = 0 then (List.range k.count).foldl (fun s _ => s.charge m c.idx k.rb) s else s
            .ok ((s.awaitVar (.seq c) 3 d).awaitVar (.seq c) 3 (d + 1), .fall) }

/-- The bytes of one row of an ATT.KV between its page and the local store (R277, R279); marks are carried onward (R168). Every page is a
64 KiB leaf (R273), so each row lies in one of the pages translated. Of a row that is cut off from the DRAM of its die nothing is stored, and what is
loaded is undefined (R478, R484). -/
def State.kvRow (s : State) (c : CellId) (k : KvOp) (cut : Bool) (i : Nat) : State :=
  let va := k.va + i * k.rb
  match pageLookup k.pages va with
  | none => s
  | some p =>
    let pa := p.phys va
    let ls := lsBase c + k.ls
    let cut := cut && dramWin pa == some (c.die.castLE (by omega) : Fin 5)
    if k.store then
      if cut then s else
      let ((data, parts), s) := s.readPiece (ls + i * k.lss) k.rb
      s.dieWrite c.die pa data parts
    else
      let ((data, parts), s) := if cut then (let (l, s) := s.freeBytes k.rb; ((l, []), s)) else s.readPiece pa k.rb
      if k.transpose then
        (List.range (k.rb / k.ew)).foldl (fun s e =>
          s.write (ls + e * k.lss + i * k.ew) ((data.drop (e * k.ew)).take k.ew)
            (parts.any (fun p => decide (p.1 < (e + 1) * k.ew ∧ e * k.ew < p.1 + p.2)))) s
      else (s.write (ls + i * k.lss) data).markParts (ls + i * k.lss) parts

/-- ATT_KV_COMPLETE: the oldest ATT.KV moves its rows and writes its status (R277, R278, R303), unless the port of its cell holds requests (R511). -/
def State.attKvComplete (s : State) (c : CellId) : State :=
  match (s.cell c).kv with
  | [] => s
  | k :: r =>
    if s.portOwes (Fin.ofNat 5 c.die) c.idx then s else
    let s := s.modCell c (fun q => { q with kv := r, syncCover := q.syncCover.map (· - 1) })
    let s := if k.dropped.isSome then s else s.perfDue c (fun p => { p with larder := p.larder + (k.count * k.rb + 63) / 64 })
    let e : Engine := .seq c
    match k.dropped with
    | some (n, w) =>
      let b := Blk.att c.num
      let s := (((s.attFlag c 4).count b 0x008 15 0 1).setReg b 0x00C w).setReg b 0x010 (k.seqn.setWidth 32)
      ((s.lateSt e 3).deliver e k.d (status 3 n)).deliver e (k.d + 1) w
    | none =>
      let s := (List.range k.count).foldl (fun s i => s.kvRow c k (s.memCut c.die != 0) i) s
      (s.deliver e k.d (status 0 0)).deliver e (k.d + 1) 0

/-- R290: ATT.SYNC holds the sequencer while an earlier ATT.KV is outstanding. -/
def opAttSync (c : CellId) : Op :=
  { slot := 3, act := fun s => .ok (if (s.cell c).kv.isEmpty then s else s.pushHold (.seq c) .attSync, .fall) }

/-- ATT_SYNC_GO: a write of GO starts the register form, or sets OVERRUN (R290, R304). -/
def State.attSyncGo (s : State) (c : CellId) : State :=
  match (s.cell c).syncCover with
  | some _ => s.orReg (.att c.num) 0x014 0x40000000#32
  | none => s.modCell c (fun k => { k with syncCover := some k.kv.length })

/-- ATT_SYNC_RETURN: an ATT.SYNC whose ATT.KV have all completed returns, in either form (R290). -/
def State.attSyncReturn (s : State) (c : CellId) : State :=
  let s := if (s.cell c).seq.hold = .attSync ∧ (s.cell c).kv.isEmpty then s.setHold (.seq c) .none else s
  if (s.cell c).syncCover = some 0 then s.modCell c (fun k => { k with syncCover := none }) else s

/-! ### Normalisation -/

/-- A quotient to 2^-200 of relative error. -/
def FV.quot : FV → FV → FV
  | .nan, _ => .nan
  | _, .nan => .nan
  | .inf _, .inf _ => .nan
  | .inf s, .fin t _ _ => .inf (s != t)
  | .fin s _ _, .inf t => .fin (s != t) 0 0
  | .fin s m e, .fin t n k =>
    if n = 0 then (if m = 0 then .nan else .inf (s != t))
    else
      let h := Nat.log2 n + 200
      .fin (s != t) (m * 2 ^ h / n) (e - k - h)

/-- e^v for a finite v ≤ 0, 0 far below the FP32 range. -/
def expLow (v : FV) : FV := if v.ltRat (-1270) 10 then .fin false 0 0 else expApprox v

/-- An FP32 value drawn for a result, held to a bound around the exact value (log entry 9). -/
def bounded (cand : W32) (ok : FV → Bool) (exact : FV) : W32 := if ok (f32 cand) then cand else toF32 exact

/-- |v − w| × den ≤ num × t. -/
def errOk (num den : Nat) (v w t : FV) : Bool :=
  match v with
  | .fin .. => !(((FV.fin false num 0).mul t.abs).lt ((FV.fin false den 0).mul (v.add w.neg).abs))
  | _ => false

/-- The outcome of a row: elements, statistics, and the branches it took. -/
structure NormRow where
  out : List W32
  m : W32
  l : W32
  nan : Bool
  empty : Bool
  pinf : Bool
  deriving DecidableEq, Repr

def fNegInf : W32 := 0xFF800000#32
def fPosInf : W32 := 0x7F800000#32
def fNan : W32 := 0x7FC00000#32
def fOne : W32 := 0x3F800000#32

/-- The largest of FP32 values that are no NaN. -/
def maxOf (l : List W32) : W32 := l.foldl (fun a v => if (f32 a).lt (f32 v) then v else a) fNegInf

/-- The exponential of an FP32 difference far enough below 0 that it is correctly rounded (R69); none in the range where it is within 2 ulp. -/
def expFixed (d : W32) : Option W32 :=
  match f32 d with
  | .inf true => some 0
  | v => if v.ltRat (-873) 10 then some (toF32 (expLow v)) else none

/-- The exponent of the lowest set bit of a finite nonzero value. -/
def FV.lowBit : FV → Int
  | .fin _ m e => e + (Nat.log2 ((m ^^^ (m - 1)) / 2 + 1) : Nat)
  | _ => 0

/-- A sum of FP32 terms with a rounding at each addition, where its order does not matter: at most two terms that are not zero, or every partial sum
exact. -/
def sumFixed (l : List W32) : Option W32 :=
  let nz := (l.map f32).filter (fun v => !v.eqv (.fin false 0 0))
  let low := nz.foldl (fun a v => min a v.lowBit) 200
  let size := nz.foldl (fun (a : FV) v => a.add v.abs) (.fin false 0 0)
  if nz.all FV.isFin && (decide (nz.length ≤ 2) || size.lt (.fin false 1 (low + 24))) then some (l.foldl f32Add 0x80000000#32) else none

/-- R292 to R294: row `r` of scaled scores with their masks, on a cell. exp(0) and recip(1) are exactly 1 (R293): where all that is added to the
largest scores' ones is below half an ulp of 1, the sum is their number, and where that is 1 each weight is its exponential: of the largest score
exactly 1, of one below the range of R69 correctly rounded. Equal scores have equal weights. -/
def normRow (cell r : Nat) (z : List (W32 × Bool)) : NormRow :=
  let n := z.length
  let live := z.map (fun p => !p.2 && p.1 != fNegInf)
  let lz := (z.zip live).filterMap (fun p => if p.2 then some p.1.1 else none)
  if lz.any (fun v => (f32 v).isNan) then ⟨List.replicate n fNan, fNan, fNan, true, false, false⟩
  else if lz.isEmpty then ⟨List.replicate n 0, fNegInf, 0, false, true, false⟩
  else if lz.contains fPosInf then
    let j := lz.count fPosInf
    let v := toF32 ((FV.fin false 1 0).quot (FV.fin false j 0))
    ⟨(z.zip live).map (fun p => if p.2 && p.1.1 == fPosInf then v else 0), fPosInf, toF32 (FV.fin false j 0), false, false, true⟩
  else
    let m := maxOf lz
    let ex := fun (v : W32) => expLow ((f32 v).add (f32 m).neg)
    let l := lz.foldl (fun a v => a.add (ex v)) (.fin false 0 0)
    let cand := Config.normCand cell (BitVec.ofNat 32 r :: z.flatMap (fun p => [p.1, if p.2 then 1 else 0]))
    let ones := lz.countP (fun v => (ex v).eqv (.fin false 1 0))
    let rest := (lz.filter (fun v => !(ex v).eqv (.fin false 1 0))).foldl (fun (a : FV) v => a.add (ex v)) (FV.fin false 0 0)
    let flat := (rest.mul (.fin false 65537 (-16))).lt (.fin false 1 (-24))
    let out := (z.zip live).map (fun p =>
      if !p.2 then 0
      else if flat && ones == 1 && (ex p.1.1).eqv (.fin false 1 0) then fOne
      else
        let x := (ex p.1.1).quot l
        let d := f32Sub p.1.1 m
        match if flat && ones == 1 && (f32 d).eqv ((f32 p.1.1).add (f32 m).neg) then expFixed d else none with
        | some v => v
        | none => bounded (cand (lz.findIdx (fun v => (f32 v).eqv (f32 p.1.1)))) (fun c => withinUlp 6 c x) x)
    ⟨out, m, if flat then toF32 (.fin false ones 0) else bounded (cand n) (fun c => errOk n (2 ^ 24 - n) c l l) l, false, false, false⟩

/-- An FP32 result in a destination format of R291: its code and its bytes. -/
def dfmtBytes (f : Nat) : Nat := match f with | 0 => 4 | 3 => 1 | _ => 2
def dfmtCode (f : Nat) (v : W32) : Nat :=
  match f with
  | 0 => v.toNat
  | 1 => (toF16 (f32 v)).toNat
  | 2 => (toBf16 (f32 v)).toNat
  | _ => match f32 v with
    | .nan => 0x7F
    | .inf s => fE4m3.signBit s + fE4m3.maxMag
    | .fin s m e => fE4m3.signBit s + min (fE4m3.rneMag m e) fE4m3.maxMag

/-- A row of codes as bytes. -/
def rowBytes (f : Nat) (l : List W32) : List Byte := toLe (l.length * dfmtBytes f) (packCodes (8 * dfmtBytes f) (l.map (dfmtCode f)))

/-- The parameter block of ATT.NORM (R291). -/
structure NormCfg where
  src : Nat
  dst : Nat
  srcs : Nat
  dsts : Nat
  scale : W32
  n : Nat
  rows : Nat
  nvalid : Nat
  coff : Int
  mask : Nat
  stats : Nat
  sfmt : Nat
  dfmt : Nat
  causal : Bool
  masken : Bool
  partial_ : Bool
  void : Bool
  sten : Bool
  deriving DecidableEq, Repr

def normCfg (v : Nat) : NormCfg :=
  { src := fieldOf v 31 0, dst := fieldOf v 63 32, srcs := fieldOf v 95 64, dsts := fieldOf v 127 96, scale := BitVec.ofNat 32 (fieldOf v 159 128),
    n := fieldOf v 172 160, rows := fieldOf v 181 176 + 1, nvalid := fieldOf v 223 192, coff := sgn 32 (fieldOf v 255 224),
    mask := fieldOf v 287 256, stats := fieldOf v 319 288, sfmt := fieldOf v 320 320, dfmt := fieldOf v 322 321,
    causal := fieldOf v 323 323 == 1, masken := fieldOf v 324 324 == 1, partial_ := fieldOf v 325 325 == 1, void := fieldOf v 326 326 == 1,
    sten := fieldOf v 327 327 == 1 }

/-- R291: every field in its range and every reserved bit 0. -/
def normOk (v : Nat) : Bool :=
  let g := normCfg v
  fieldOf v 175 173 == 0 && fieldOf v 191 182 == 0 && fieldOf v 351 328 == 0 && v / 2 ^ 352 == 0 && decide (1 ≤ g.n ∧ g.n ≤ 4096) &&
    [g.src, g.dst, g.srcs, g.dsts, g.mask].all (fun x => x % 32 == 0) && g.stats % 8 == 0

/-- The scores of row `r` with their masks, read from the local store. -/
def normRead (c : CellId) (g : NormCfg) (r : Nat) (s : State) : Ex (List (W32 × Bool) × State) := do
  let e := if g.sfmt = 0 then 4 else 2
  let (b, s) ← s.lsOperand c (g.src + r * g.srcs) (g.n * e)
  let (m, s) ← if g.masken then s.lsOperand c (g.mask + r * 32 * ((g.n + 255) / 256)) ((g.n + 7) / 8) else .ok ([], s)
  let x := leNat b
  let mk := leNat m
  .ok ((List.range g.n).map (fun k =>
    let w := elemAt x (8 * e) k
    let v := if e = 4 then f32 (BitVec.ofNat 32 w) else fF16.decode w
    let z := toF32 ((f32 g.scale).mul v)
    (z, decide (g.nvalid ≤ k) || (g.causal && decide ((r : Int) + g.coff < k)) || (g.masken && elemAt mk 1 k == 1))), s)

/-- The rows of ATT.NORM in order: each is read in full before it is written (R295); the number of empty rows is the result. -/
def normRows (c : CellId) (g : NormCfg) : Nat → Nat → State → Ex (Nat × State)
  | 0, _, s => .ok (0, s)
  | n + 1, r, s => do
    let (z, s) ← normRead c g r s
    let o := normRow c.num r z
    let s := s.write (lsBase c + g.dst + r * g.dsts) (rowBytes g.dfmt o.out)
    let s := if g.sten then s.write (lsBase c + g.stats + 8 * r) (toLe 4 o.m.toNat ++ toLe 4 o.l.toNat) else s
    let s := s.attFlag c ((if o.nan then 1 else 0) ||| (if o.pinf then 2 else 0))
    let s := if o.empty && !g.partial_ && !g.void then s.count (.att c.num) 0x004 31 0 1 else s
    let (k, s) ← normRows c g n (r + 1) s
    .ok (k + (if o.empty then 1 else 0), s)

/-- The bytes that ATT.NORM names as its destination. -/
def NormCfg.ranges (g : NormCfg) : List (Nat × Nat) :=
  (List.range g.rows).map (fun r => (g.dst + r * g.dsts, g.n * dfmtBytes g.dfmt)) ++ (if g.sten then [(g.stats, 8 * g.rows)] else [])

/-- R291: the tile is normalised in place with one stride, or source and destination do not overlap. -/
def NormCfg.placed (g : NormCfg) : Bool :=
  let src := (List.range g.rows).map (fun r => (g.src + r * g.srcs, g.n * if g.sfmt = 0 then 4 else 2))
  (g.src == g.dst && g.srcs == g.dsts) || !src.any (fun p => g.ranges.any (fun q => meets p.1 p.2 q.1 q.2))

/-- Ranges of the local store become undefined. -/
def State.spoilRanges (s : State) (c : CellId) (l : List (Nat × Nat)) : State := l.foldl (fun s r => s.spoilLs c r.1 r.2) s

/-- What both normaliser instructions do once their rows are written: the status awaits its event, and an instruction issued before the
normaliser has finished leaves the results of both undefined (R119, R120). -/
def State.normIssued (s : State) (c : CellId) (d : Reg) (occ detail : Nat) (merge spoilt : Bool) (dst : List (Nat × Nat)) : State :=
  let k := s.cell c
  let busy := decide (k.cycle < k.attFree)
  let old := if busy then k.norm.map (fun o => { o with spoilt := true }) else k.norm
  let o : NormOp := { d := d, detail := BitVec.ofNat 16 detail, merge := merge, dst := dst, spoilt := busy }
  let s := s.setCell c { k with norm := old ++ [o], attFree := k.cycle + occ }
  let s := if busy || spoilt then s.spoilRanges c dst else s
  let s := if busy then k.norm.foldl (fun s o => s.spoilRanges c o.dst) s else s
  s.awaitVar (.seq c) 3 d

/-- R291 to R295: ATT.NORM. -/
def opAttNorm (c : CellId) (d a : Reg) : Op :=
  { slot := 3, uses := [d, a],
    act := fun s =>
      let o := s.off c a
      if o % 32 ≠ 0 then .error (s, excAccess o)
      else do
        let (v, s) ← s.lsOperand c o 64
        if !normOk (leNat v) then .error (s, excOperand)
        else
          let g := normCfg (leNat v)
          match g.ranges.find? (fun r => !lsIn r.1 r.2) with
          | some r => .error (s, excOffset r.1)
          | none =>
            let (k, s) ← normRows c g g.rows 0 s
            .ok (s.normIssued c d (g.rows * 3 * ((g.n + 31) / 32) + 16) k false (!g.placed) g.ranges, .fall) }

/-! ### Merging -/

/-- The parameter block of ATT.MERGE (R296). -/
structure MergeCfg where
  kp : Nat
  rows : Nat
  d : Nat
  dfmt : Nat
  void : Bool
  sten : Bool
  dst : Nat
  dsts : Nat
  os : Nat
  stats : Nat
  parts : List (Nat × Nat)
  deriving DecidableEq, Repr

def mergeCfg (v : Nat) : MergeCfg :=
  { kp := fieldOf v 4 0, rows := fieldOf v 13 8 + 1, d := fieldOf v 24 16, dfmt := fieldOf v 26 25, void := fieldOf v 27 27 == 1,
    sten := fieldOf v 28 28 == 1, dst := fieldOf v 63 32, dsts := fieldOf v 95 64, os := fieldOf v 127 96, stats := fieldOf v 159 128,
    parts := (List.range (fieldOf v 4 0)).map (fun i => (fieldOf v (287 + 64 * i) (256 + 64 * i), fieldOf v (319 + 64 * i) (288 + 64 * i))) }

/-- The fixed words of the block are in their ranges. -/
def mergeOk (v : Nat) : Bool :=
  let g := mergeCfg v
  decide (2 ≤ g.kp ∧ g.kp ≤ 16 ∧ 1 ≤ g.d ∧ g.d ≤ 256 ∧ g.dfmt < 3) && fieldOf v 7 5 == 0 && fieldOf v 15 14 == 0 && fieldOf v 31 29 == 0 &&
    fieldOf v 255 160 == 0 && g.dst % 32 == 0 && g.dsts % 32 == 0 && g.os % 32 == 0 && g.stats % 8 == 0

/-- R297, R298: one row of partials: statistics m, l and elements of each, on a cell. The FP32 steps fix a weight whose statistic is the largest or
lies below it out of the range of R69, and l where every weight is fixed and the order of their sum does not matter; so they do each element where l
is 1, whose reciprocal is exact (R293). -/
def mergeRow (cell r d : Nat) (ps : List (W32 × W32 × List W32)) : NormRow :=
  let isN := fun (v : W32) => (f32 v).isNan
  let zero : FV := .fin false 0 0
  if ps.any (fun p => isN p.1 || isN p.2.1 || p.2.2.any isN) then ⟨List.replicate d fNan, fNan, fNan, true, false, false⟩
  else
    let live := ps.filter (fun p => zero.lt (f32 p.2.1))
    if live.isEmpty then ⟨List.replicate d 0, fNegInf, 0, false, true, false⟩
    else
      let m := maxOf (live.map (·.1))
      let w := fun (p : W32 × W32 × List W32) =>
        if (f32 p.1).eqv (f32 m) then f32 p.2.1 else (f32 p.2.1).mul (match (f32 p.1).add (f32 m).neg with | .inf _ => zero | x => expLow x)
      let ws := live.map (fun p => if (f32 p.1).eqv (f32 m) then some p.2.1 else (expFixed (f32Sub p.1 m)).map (fun e => f32Mul p.2.1 e))
      let wl := ws.filterMap id
      let l := live.foldl (fun a p => a.add (w p)) zero
      let num := 2 * ps.length + 6
      let cand := Config.normCand cell (BitVec.ofNat 32 r :: ps.flatMap (fun p => p.1 :: p.2.1 :: p.2.2))
      let lf := if ws.all Option.isSome then sumFixed wl else none
      let lw := match lf with | some v => v | none => bounded (cand d) (fun v => l.isFin && errOk num (2 ^ 24) v l l) l
      let out := (List.range d).map (fun c =>
        let at_ := fun (p : W32 × W32 × List W32) => f32 ((p.2.2[c]?).getD 0)
        let x := (live.foldl (fun a p => a.add ((w p).mul (at_ p))) zero).quot l
        let t := (live.foldl (fun a p => a.add ((w p).mul (at_ p).abs)) zero).quot l
        match if lf == some fOne then sumFixed ((wl.zip live).map (fun p => toF32 ((f32 p.1).mul (at_ p.2)))) else none with
        | some v => v
        | none => bounded (cand c) (fun v => x.isFin && errOk num (2 ^ 24) v x t) x)
      ⟨out, m, lw, false, false, m == fPosInf⟩

/-- FP32 words of the local store. -/
def readWords (c : CellId) (off n : Nat) (s : State) : Ex (List W32 × State) := do
  let (b, s) ← s.lsOperand c off (4 * n)
  let x := leNat b
  .ok ((List.range n).map (fun k => BitVec.ofNat 32 (elemAt x 32 k)), s)

/-- Row `r` of every partial. -/
def mergeRead (c : CellId) (g : MergeCfg) (r : Nat) : List (Nat × Nat) → State → Ex (List (W32 × W32 × List W32) × State)
  | [], s => .ok ([], s)
  | (o, st) :: t, s => do
    let (q, s) ← readWords c (st + 8 * r) 2 s
    let (v, s) ← readWords c (o + r * g.os) g.d s
    let (l, s) ← mergeRead c g r t s
    .ok (((q[0]?).getD 0, (q[1]?).getD 0, v) :: l, s)

def mergeRows (c : CellId) (g : MergeCfg) : Nat → Nat → State → Ex State
  | 0, _, s => .ok s
  | n + 1, r, s => do
    let (ps, s) ← mergeRead c g r g.parts s
    let o := mergeRow c.num r g.d ps
    let s := s.write (lsBase c + g.dst + r * g.dsts) (rowBytes g.dfmt o.out)
    let s := if g.sten then s.write (lsBase c + g.stats + 8 * r) (toLe 4 o.m.toNat ++ toLe 4 o.l.toNat) else s
    let s := s.attFlag c ((if o.nan then 1 else 0) ||| (if o.pinf then 2 else 0))
    let s := if o.empty && !g.void then s.count (.att c.num) 0x004 31 0 1 else s
    mergeRows c g n (r + 1) s

def MergeCfg.ranges (g : MergeCfg) : List (Nat × Nat) :=
  (List.range g.rows).map (fun r => (g.dst + r * g.dsts, g.d * dfmtBytes g.dfmt)) ++ (if g.sten then [(g.stats, 8 * g.rows)] else [])

/-- R296 to R298: ATT.MERGE. -/
def opAttMerge (c : CellId) (d a : Reg) : Op :=
  { slot := 3, uses := [d, a],
    act := fun s =>
      let o := s.off c a
      if o % 32 ≠ 0 then .error (s, excAccess o)
      else do
        let (h, s) ← s.lsOperand c o 32
        if !mergeOk (leNat h) then .error (s, excOperand)
        else
          let (v, s) ← s.lsOperand c o (32 + 8 * (mergeCfg (leNat h)).kp)
          let g := mergeCfg (leNat v)
          match g.ranges.find? (fun r => !lsIn r.1 r.2) with
          | some r => .error (s, excOffset r.1)
          | none =>
            let s ← mergeRows c g g.rows 0 s
            .ok (s.normIssued c d (g.rows * g.kp * (2 + (g.d + 31) / 32) + 16) 0 true false g.ranges, .fall) }

/-- ATT_NORM_COMPLETE and ATT_MERGE_COMPLETE: the oldest instruction of the normaliser writes its status (R295, R298). -/
def State.normComplete (s : State) (c : CellId) (merge : Bool) : State :=
  match (s.cell c).norm with
  | [] => s
  | o :: r =>
    if o.merge != merge then s
    else
      let s := s.modCell c (fun k => { k with norm := r })
      if o.spoilt then { s.deliver (.seq c) o.d (Config.freeVal 32 s.free) with free := s.free + 1 }
      else s.deliver (.seq c) o.d (status 0 o.detail.toNat)

/-! ### Meanings -/

/-- ATT_KV. -/
def execAttKv (c : CellId) (d a : Reg) (s : State) : Out := .next (runOp (.seq c) (wordOf (.attKv c d a)) (opAttKv c d a) s)
/-- ATT_NORM. -/
def execAttNorm (c : CellId) (d a : Reg) (s : State) : Out := .next (runOp (.seq c) (wordOf (.attNorm c d a)) (opAttNorm c d a) s)
/-- ATT_MERGE. -/
def execAttMerge (c : CellId) (d a : Reg) (s : State) : Out := .next (runOp (.seq c) (wordOf (.attMerge c d a)) (opAttMerge c d a) s)
/-- ATT_SYNC. -/
def execAttSync (c : CellId) (s : State) : Out := .next (runOp (.seq c) (wordOf (.attSync c)) (opAttSync c) s)

/-! ### Meanings of events -/

/-- ATT_KV_COMPLETE. -/
def execAttKvComplete (c : CellId) (s : State) : Out := .next (s.onDie c.die fun s => s.attKvComplete c)
/-- ATT_SYNC_GO. -/
def execAttSyncGo (c : CellId) (s : State) : Out := .next (s.onDie c.die fun s => s.attSyncGo c)
/-- ATT_SYNC_RETURN. -/
def execAttSyncReturn (c : CellId) (s : State) : Out := .next (s.onDie c.die fun s => s.attSyncReturn c)
/-- ATT_NORM_COMPLETE. -/
def execAttNormComplete (c : CellId) (s : State) : Out := .next (s.onDie c.die fun s => s.normComplete c false)
/-- ATT_MERGE_COMPLETE. -/
def execAttMergeComplete (c : CellId) (s : State) : Out := .next (s.onDie c.die fun s => s.normComplete c true)

end Sys2Proof.Machine
end

