-- ==== Sys2Proof/Machine/Control.lean ====
section
/-! DEFINITION. Fences, status and tokens (R133, R172 to R176, R207 to R209), control, branches and loops (R177 to R181), and the system
instructions of the host cores (R121 to R126). -/

namespace Sys2Proof.Machine

/-! ### Fences and status -/

/-- Scopes by width (R206). -/
def Scope.width : Scope → Nat | .cell => 0 | .die => 1 | .pkg => 2 | .sys => 3

/-- The narrowest scope that observes a write of a cell to a package address (R206), as its width. -/
def destWidth (c : CellId) (pa : Nat) : Nat :=
  if cellBase c.num ≤ pa ∧ pa < cellBase c.num + 0x1000000 then 0
  else if (dieOf pa).val = c.die.val then 1
  else if (dieOf pa).val < 4 ∨ dramWin pa = some 4 then 2 else 3

/-- The destination of a move as a scope: of its lines that are cut, and of the next one (R206, R208). -/
def State.moveWidth (s : State) (c : CellId) (m : Move) : Nat :=
  let next := match m.rest with
    | none => 0
    | some r => match (s.endAt c m.owner r.dst .write m.pages r.next 0).1 with | .ok (pa, _) => destWidth c pa | .error _ => 0
  m.pieces.foldl (fun w p => max w (destWidth c p.dst)) next

/-- R208: the moves of an engine that a fence at a scope waits for have completed: those whose tag is that scope or narrower, but not one that goes
beyond it. Of a host core, the crates of its stores (R210). -/
def State.movesDone (s : State) (e : Engine) (sc : Scope) : Bool :=
  match e with
  | .host h => !s.crates.any (fun k => k.who == .host h)
  | _ =>
    let c := cellOf e
    !(s.cell c).moves.any (fun m => m.owner == e && decide (Scope.width m.scope ≤ Scope.width sc) && decide (s.moveWidth c m ≤ Scope.width sc))

/-- R173, R207: FENCE holds its engine until it completes; a masked acquire at PKG or SYS scope starts a Loft invalidation. -/
def opFence (e : Engine) (a : Reg) (sc : Scope) (kind : Fin 4) (m : Bool) : Op :=
  { slot := 0, legal := m || a == 0, uses := [a],
    check := fun _ => if kind = 3 ∨ (isHost e ∧ (m ∨ Scope.width sc < 2)) then some excOperand else none,
    act := fun s =>
      match engCell e with
      | none => .ok (s.pushHold e (.fence sc kind none), .fall)
      | some c =>
        if m ∧ 2 ≤ Scope.width sc ∧ kind ≠ 1 then
          let (n, s) := s.loftScan c.die (s.xw e a)
          .ok (s.pushHold e (.fence sc kind (some n)), .fall)
        else .ok (s.pushHold e (.fence sc kind none), .fall) }

/-- R93, R173: a fetch reads the bytes that are written when it is made (DESIGN CHOICE, log entry 123); IFENCE takes its idle cycles. -/
def opIfence (_e : Engine) : Op := { slot := 0, act := fun s => .ok (s, .fallIdle) }

/-- ST of an engine as a STAT now returns it, and its clear, which leaves the statuses of the current cycle (R133). -/
def State.st (s : State) : Engine → W32
  | .seq c => let q := (s.cell c).seq; stSeen q.st q.stNew q.stAt (s.cell c).cycle
  | .slv x => let q := s.slvAt x; stSeen q.st q.stNew q.stAt (s.cell x.cell).cycle
  | .host h => s.hosts[h].st
def State.clearSt (s : State) (e : Engine) : State :=
  match e with
  | .seq c => let n := (s.cell c).cycle; s.modSeq c (fun q => { q with st := 0, stNew := if q.stAt < n then 0 else q.stNew })
  | .slv x => let n := (s.cell x.cell).cycle; s.modSlv x (fun q => { q with st := 0, stNew := if q.stAt < n then 0 else q.stNew })
  | .host h => s.modHost h (fun c => { c with st := 0 })

/-- Every ST bit that stands, those of the current cycle among them. -/
def State.stAll (s : State) (e : Engine) : W32 :=
  s.st e ||| (match e with | .seq c => (s.cell c).seq.stNew | .slv x => (s.slvAt x).stNew | .host _ => 0)

/-- R133, R709: STAT reads ST and clears it; on a sequencer the result is written at the end of the issue cycle. -/
def opStat (e : Engine) (d : Reg) : Op :=
  { slot := 0, uses := [d], act := fun s => .ok ((s.clearSt e).setX e 0 1 d ((s.st e).setWidth 64), .fall) }

/-- R172, R173: LOFT.INV starts a Loft invalidation and holds its engine until it completes. -/
def opLoftInv (e : Engine) (a : Reg) : Op :=
  { slot := 0, legal := !isHost e, uses := [a],
    act := fun s =>
      let (n, s) := s.loftScan (cellOf e).die (s.xw e a)
      .ok (s.pushHold e (.loftInv n), .fall) }

/-! ### Tokens -/

/-- The die of an engine. -/
def engDie (e : Engine) : Fin 7 := match engCell e with | some c => Fin.ofNat 7 c.die | none => 4

/-- R175: TPUT holds its engine: first its release, then its put. -/
def opTput (e : Engine) (a : Reg) (sc : Scope) (q : BitVec 15) : Op :=
  { slot := 0, uses := [a], act := fun s => .ok (s.pushHold e (.put q sc (s.xw e a)), .fall) }

/-- The put of a TPUT whose release has completed; that of a paired main whose pair has not agreed does not leave it (R535). -/
def State.tputRelease (s : State) (e : Engine) (q : BitVec 15) (sc : Scope) (v : W32) : State :=
  if (match engCell e with | some c => (s.cell c).pairStopped | none => false) then s
  else if (s.queueCell q).die.val = (engDie e).val then
    (s.offer q (.eng e) v).setHold e (.putWait q)
  else (s.setHold e (.putAck s.crateNext)).sendPut (.eng e) (engDie e) sc q v

/-- The queue number names the engine's own cell (R176). -/
def ownQueue (c : CellId) (q : BitVec 15) : Bool := decide (q.toNat / 512 = c.die.val * 16 + c.idx.val)

/-- Every access that an engine has issued is performed (R207). -/
def State.releaseAll (s : State) (e : Engine) : State := (s.readsDone e).performAll (fun k => k.who == .eng e)

/-- A get that finds an entry takes it, and then acts as an acquire at its scope (R74, R209). -/
def State.take (s : State) (e : Engine) (q : BitVec 15) (d : Reg) (sc : Scope) : Option State :=
  match (s.queueAt q).get? (s.queueNow q) with
  | none => none
  | some (v, k) => some ((((s.setQueueAt q k).readsDone e).acquire sc).deliver e d v)

/-- PDMA_HO_CFG_d: the queue that the hub's port drains, where it is enabled (R516). -/
def State.hoQueue (s : State) (d : Fin 4) : Option (BitVec 15) :=
  let v := s.reg (.pdma 0) (0x40 + 16 * d)
  if v.getLsbD 31 && decide (bits v 14 13 = d) then some (BitVec.ofNat 15 v.toNat) else none

/-- R176: TGET takes the oldest entry, or holds its engine until one arrives; a handover queue is not its to take (R506). -/
def opTget (e : Engine) (d : Reg) (sc : Scope) (q : BitVec 15) : Op :=
  { slot := 0, legal := !isHost e, uses := [d],
    check := fun s => if ownQueue (cellOf e) q && s.hoQueue (cellOf e).die != some q then none else some excOperand,
    act := fun s =>
      let s := s.awaitVar e 0 d
      match (if s.hold e = .none then s.take e q d sc else none) with
      | some s => .ok (s, .fall)
      | none => .ok (s.pushHold e (.get (Fin.ofNat 512 q.toNat) d sc), .fall) }

/-- The queue number of a queue of an engine's own cell. -/
def queueNum (c : CellId) (q : Fin 512) : BitVec 15 := BitVec.ofNat 15 ((c.die * 16 + c.idx) * 512 + q)

/-- What the end of a waiting put does to its issuer: accepted, or timed out with status TQ_TIMEOUT (R76, R133, R175, R450). -/
def State.putEnds (s : State) (w : Putter) (timedOut : Bool) : State :=
  match w with
  | .eng e => (if timedOut then s.setSt e 2 else s).setHold e .none
  | .mv e => if timedOut then s.lateSt e 2 else s
  | .crate n =>
    match s.crateAt n with
    | none => s
    | some c => s.setCrate { c with kind := .ack, timedOut := timedOut, route := c.back }
  | .unit => s

/-- TOKEN_PUT_ACCEPT: the first put that waits at a queue is accepted, at most one in an ARR cycle of its cell (R74, R75). -/
def State.tokenPutAccept (s : State) (q : BitVec 15) : State :=
  let k := s.queueAt q
  let now := s.queueNow q
  match k.accepts now with
  | none => s
  | some p => (s.setQueueAt q { k with entries := k.entries ++ [p.val], waiting := k.waiting.drop 1, lastPut := some now }).putEnds p.who false

/-- TOKEN_GET_TAKE: a held get takes an entry (R74). -/
def State.tokenGetTake (s : State) (e : Engine) : State :=
  match s.hold e with
  | .get q d sc => ((s.take e (queueNum (cellOf e) q) d sc).map (fun s => s.setHold e .none)).getD s
  | _ => s

/-- A token timeout of a cell is recorded and reported (R76, R85, R89). -/
def State.tqRecord (s : State) (c : CellId) (q : BitVec 15) (get : Bool) : State :=
  ((s.orReg (cellBlk c) 0x010 8#32).setReg (cellBlk c) 0x020 (BitVec.ofNat 32 ((if get then 2 ^ 31 else 0) + q.toNat))).report (.tqTimeout c)

/-- The die at which a wait for a token ends: that of the queue, or of the engine (R76). -/
def State.waitDie (s : State) : TqWaiter → Fin 4
  | .putAt q => (s.queueCell q).die
  | .getBy e => (cellOf e).die

/-- TQ_TIMEOUT: the first put waiting at a full queue, or a get held at an empty one, completes with TQ_TIMEOUT (R76). The limit, the error bit and
the record are those of the cell that owns the queue, for a put of another cell of the die too (DESIGN CHOICE, log entry 21). -/
def State.tqTimeout (s : State) (w : TqWaiter) : State :=
  match w with
  | .putAt q =>
    let k := s.queueAt q
    match k.waiting with
    | [] => s
    | p :: r =>
      let c := s.queueCell q
      if s.waitLimit c ∧ queueDepth ≤ k.entries.length then ((s.setQueueAt q { k with waiting := r }).tqRecord c q false).putEnds p.who true else s
  | .getBy e =>
    match s.hold e with
    | .get q d _ =>
      let c := cellOf e
      if s.waitLimit c ∧ (s.queueAt (queueNum c q)).entries = [] then (((s.setHold e .none).tqRecord c (queueNum c q) true).setSt e 2).deliver e d 0 else s
    | _ => s

/-! ### Control -/

def opNop (_e : Engine) : Op := { slot := 0, act := fun s => .ok (s, .fall) }

/-- R177: HALT stops a cell engine, and makes a host core wait for an interrupt. -/
def opHalt (e : Engine) : Op :=
  { slot := 0, check := fun s => if isHost e && s.level e == .user then some excPriv else none, act := fun s => .ok (s, .stop) }

/-- R128, R130, R650: BRK raises BREAKPOINT before its issue. -/
def opBrk (_e : Engine) : Op := { slot := 0, check := fun _ => some excBreak, act := fun s => .ok (s, .fall) }

/-- R108: JOIN. -/
def opJoin (x : SlvId) : Op := { slot := 0, act := fun s => .ok (s.modSlv x (fun k => { k with bcast := true }), .fall) }

/-- The unit u of R177, in bytes. -/
def unitOf (e : Engine) : Nat := if isSeq e then 16 else 4

/-- The offset that follows an instruction, as a register value. -/
def linkOf (s : State) (e : Engine) : W64 := BitVec.ofNat 64 (s.pc e + unitOf e)

/-- R177: JALR. -/
def opJalr (e : Engine) (d a : Reg) : Op :=
  { slot := 0, uses := [d, a], act := fun s => .ok (s.setX e 0 1 d (linkOf s e), .jump (s.x e a).toNat) }

/-- R178: the target of a branch. -/
def branchTo (s : State) (e : Engine) (i : BitVec 16) : Nat :=
  (BitVec.ofNat 64 (s.pc e) + i.signExtend 64 * BitVec.ofNat 64 (unitOf e)).toNat

/-- A conditional branch. -/
def opBranch (e : Engine) (a : Reg) (i : BitVec 16) (c : W64 → Bool) : Op :=
  { slot := 0, uses := [a], act := fun s => .ok (s, if c (s.x e a) then .jump (branchTo s e i) else .fall) }

/-- The sign of a register of an engine. -/
def negX (e : Engine) (v : W64) : Bool := if isHost e then v.getLsbD 63 else v.getLsbD 31

def opB (e : Engine) (i : BitVec 16) : Op := { slot := 0, act := fun s => .ok (s, .jump (branchTo s e i)) }
def opBeqz (e : Engine) (a : Reg) (i : BitVec 16) : Op := opBranch e a i (fun v => v == 0)
def opBnez (e : Engine) (a : Reg) (i : BitVec 16) : Op := opBranch e a i (fun v => v != 0)
def opBltz (e : Engine) (a : Reg) (i : BitVec 16) : Op := opBranch e a i (fun v => negX e v)
def opBgez (e : Engine) (a : Reg) (i : BitVec 16) : Op := opBranch e a i (fun v => !negX e v)
def opBl (e : Engine) (i : BitVec 16) : Op :=
  { slot := 0, uses := [31], act := fun s => .ok (s.setX e 0 1 31 (linkOf s e), .jump (branchTo s e i)) }
/-- R178: BCNZ decrements the counter when it branches. -/
def opBcnz (c : CellId) (n : Fin 4) (i : BitVec 16) : Op :=
  { slot := 0,
    act := fun s =>
      let v := (s.cell c).seq.c[n]
      if v ≠ 0 then .ok (s.later c 0 1 (.c n) ((v - 1).setWidth 40), .jump (branchTo s (.seq c) i)) else .ok (s, .fall) }

/-- The loops of an engine with their counters. -/
def State.loopState (s : State) : Engine → List Loop × Vector (BitVec 24) 4
  | .seq c => ((s.cell c).seq.loops, (s.cell c).seq.c)
  | .slv x => ((s.slvAt x).loops, (s.slvAt x).c)
  | .host _ => ([], Vector.replicate 4 0)
def State.setLoops (s : State) (e : Engine) (l : List Loop) (c : Vector (BitVec 24) 4) : State :=
  match e with
  | .seq x => s.modSeq x (fun q => { q with loops := l, c := c })
  | .slv x => s.modSlv x (fun k => { k with loops := l, c := c })
  | .host _ => s

/-- R180: LOOP. A count of 0 branches past the end of its body, and so out of the loops around it that end there. -/
def opLoop (e : Engine) (n : Fin 4) (a : Reg) (i : BitVec 16) : Op :=
  { slot := 0, legal := !isHost e, uses := [a],
    check := fun s =>
      let (l, _) := s.loopState e
      if i = 0 ∨ l.any (fun k => k.n == n) ∨ 4 ≤ l.length then some excOperand else none,
    act := fun s =>
      let (l, c) := s.loopState e
      let cnt : BitVec 24 := (s.x e a).setWidth 24
      let c := c.set n cnt
      let first := s.pc e + unitOf e
      let last := s.pc e + i.toNat * unitOf e
      if cnt = 0 then .ok (s.setLoops e l c, .jump (last + unitOf e))
      else .ok (s.setLoops e (⟨n, BitVec.ofNat 32 first, BitVec.ofNat 32 last⟩ :: l) c, .fall) }

/-- R180: LOOP_END is the last bundle or instruction of the innermost body, with no other effect. -/
def State.atLoopEnd (s : State) (e : Engine) : Bool :=
  match (s.loopState e).1 with
  | [] => false
  | l :: _ => decide (l.last.toNat = s.pc e)

/-! ### Host system instructions -/

/-- R124: the target level of a system call. -/
def opSyscall (h : Fin 8) (word : W32) : Op :=
  { slot := 0,
    act := fun s =>
      let c := s.hosts[h]
      let t := c.trap (c.level != .user) (c.pc + 4) 8 (word.setWidth 64) 0
      .ok ({ s with hosts := s.hosts.set h t }, .jump t.pc.toNat) }

/-- R123, R125: RET restores the saved level and enable. A saved level of 2, which is reserved, raises PRIVILEGE_FAULT (DESIGN CHOICE, log entry 108). -/
def opRet (h : Fin 8) : Op :=
  { slot := 0,
    check := fun s =>
      let c := s.hosts[h]
      let r := if c.level = .monitor then c.mon else c.sup
      let lv := (r[4]).toNat % 4
      if c.level = .user ∨ c.level.code < lv ∨ lv = 2 then some excPriv else none,
    act := fun s =>
      let c := s.hosts[h]
      let mon := c.level == .monitor
      let r := if mon then c.mon else c.sup
      let lv := (r[4]).toNat % 4
      let r' := r.set 6 (if (r[4]).getLsbD 2 then 1 else 0)
      let c := if mon then { c with mon := r' } else { c with sup := r' }
      let c := { c with level := if lv = 0 then .user else if lv = 1 then .supervisor else .monitor }
      .ok ({ s with hosts := s.hosts.set h c }, .jump (r[1]).toNat) }

/-- A system register number (R126): its level and index, 0x000 being the current level. -/
inductive SysReg where
  | cur
  | sup (i : Fin 7)
  | mon (i : Fin 7)
  deriving DecidableEq, Repr

def sysReg (n : Nat) : Option SysReg :=
  if n = 0 then some .cur
  else if h : 0x10 ≤ n ∧ n < 0x17 then some (.sup ⟨n - 0x10, by omega⟩)
  else if h : 0x20 ≤ n ∧ n < 0x27 then some (.mon ⟨n - 0x20, by omega⟩)
  else none

/-- R126: the exception of an access to a system register. A write of the current level, which no level may make, raises PRIVILEGE_FAULT (DESIGN
CHOICE, log entry 108). -/
def sysCheck (lv : Level) (n : Nat) (write : Bool) : Option Exc :=
  match sysReg n with
  | none => some excOperand
  | some .cur => if write then some excPriv else none
  | some (.sup _) => if lv = .user then some excPriv else none
  | some (.mon _) => if lv = .monitor then none else some excPriv

/-- The bits that a system register holds (R126). -/
def sysMask (i : Fin 7) : W64 :=
  match i.val with
  | 0 => 0xFFFFFFFFFFFFFF00#64
  | 2 => 0x80000000000000FF#64
  | 4 => 7#64
  | 6 => 1#64
  | _ => 0xFFFFFFFFFFFFFFFF#64

def opSrd (h : Fin 8) (d a : Reg) : Op :=
  { slot := 0, check := fun s => sysCheck s.hosts[h].level (s.x (.host h) a).toNat false,
    act := fun s =>
      let c := s.hosts[h]
      let v : W64 := match sysReg (s.x (.host h) a).toNat with
        | some (.sup i) => c.sup[i]
        | some (.mon i) => c.mon[i]
        | _ => BitVec.ofNat 64 c.level.code
      .ok (s.setX (.host h) 0 1 d v, .fall) }
def opSwr (h : Fin 8) (a b : Reg) : Op :=
  { slot := 0, check := fun s => sysCheck s.hosts[h].level (s.x (.host h) a).toNat true,
    act := fun s =>
      let v := s.x (.host h) b
      .ok (s.modHost h (fun c =>
        match sysReg (s.x (.host h) a).toNat with
        | some (.sup i) => { c with sup := c.sup.set i (v &&& sysMask i) }
        | some (.mon i) => { c with mon := c.mon.set i (v &&& sysMask i) }
        | _ => c), .fall) }

/-- R124: whether a host core takes an interrupt now. -/
def HostCore.takes (c : HostCore) (toMon : Bool) : Bool :=
  if toMon then (c.mon[6]).getLsbD 0
  else match c.level with
    | .user => true
    | .supervisor => (c.sup[6]).getLsbD 0
    | .monitor => false

/-- HOST_INTERRUPT: an interrupt arrives, or is pending; it ends a wait, and is taken as a trap between instructions where R124 allows
it. The information word of an interrupt is left open by R126. -/
def State.hostInterrupt (s : State) (h : Fin 8) (num : BitVec 8) (toMon : Bool) : State :=
  let s := (s.raiseIrq h num toMon).modHost h (fun c => { c with waiting := false })
  let c := s.hosts[h]
  if c.takes toMon && c.hold == .none then
    let s := s.modHost h (fun c =>
      { c.trap toMon c.pc (BitVec.ofNat 64 (2 ^ 63 + num.toNat)) (Config.freeVal 64 s.free) 0x100 with irq := c.irq.erase (num, toMon) })
    { s with free := s.free + 1 }
  else s

/-! ### Meanings -/

/-- FENCE. -/
def execFence (e : Engine) (a : Reg) (scope : Scope) (kind : Fin 4) (m : Bool) (s : State) : Out :=
  .next (runOp e (wordOf (.fence e a scope kind m)) (opFence e a scope kind m) s)
/-- IFENCE. -/
def execIfence (e : Engine) (s : State) : Out := .next (runOp e (wordOf (.ifence e)) (opIfence e) s)
/-- STAT. -/
def execStat (e : Engine) (d : Reg) (s : State) : Out := .next (runOp e (wordOf (.stat e d)) (opStat e d) s)
/-- LOFT_INV. -/
def execLoftInv (e : Engine) (a : Reg) (s : State) : Out := .next (runOp e (wordOf (.loftInv e a)) (opLoftInv e a) s)
/-- TPUT. -/
def execTput (e : Engine) (a : Reg) (scope : Scope) (q : BitVec 15) (s : State) : Out :=
  .next (runOp e (wordOf (.tput e a scope q)) (opTput e a scope q) s)
/-- TGET. -/
def execTget (e : Engine) (d : Reg) (scope : Scope) (q : BitVec 15) (s : State) : Out :=
  .next (runOp e (wordOf (.tget e d scope q)) (opTget e d scope q) s)
/-- NOP. -/
def execNop (e : Engine) (s : State) : Out := .next (runOp e (wordOf (.nop e)) (opNop e) s)
/-- HALT. -/
def execHalt (e : Engine) (s : State) : Out := .next (runOp e (wordOf (.halt e)) (opHalt e) s)
/-- BRK. -/
def execBrk (e : Engine) (s : State) : Out := .next (runOp e (wordOf (.brk e)) (opBrk e) s)
/-- JOIN. -/
def execJoin (x : SlvId) (s : State) : Out := .next (runOp (.slv x) (wordOf (.join x)) (opJoin x) s)
/-- JALR. -/
def execJalr (e : Engine) (d a : Reg) (s : State) : Out := .next (runOp e (wordOf (.jalr e d a)) (opJalr e d a) s)
/-- SYSCALL. -/
def execSyscall (h : Fin 8) (s : State) : Out := .next (runOp (.host h) (wordOf (.syscall h)) (opSyscall h (wordOf (.syscall h))) s)
/-- RET. -/
def execRet (h : Fin 8) (s : State) : Out := .next (runOp (.host h) (wordOf (.ret h)) (opRet h) s)
/-- SRD. -/
def execSrd (h : Fin 8) (d a : Reg) (s : State) : Out := .next (runOp (.host h) (wordOf (.srd h d a)) (opSrd h d a) s)
/-- SWR. -/
def execSwr (h : Fin 8) (a b : Reg) (s : State) : Out := .next (runOp (.host h) (wordOf (.swr h a b)) (opSwr h a b) s)
/-- B. -/
def execB (e : Engine) (imm : BitVec 16) (s : State) : Out := .next (runOp e (wordOf (.b e imm)) (opB e imm) s)
/-- BEQZ. -/
def execBeqz (e : Engine) (a : Reg) (imm : BitVec 16) (s : State) : Out :=
  .next (runOp e (wordOf (.beqz e a imm)) (opBeqz e a imm) s)
/-- BNEZ. -/
def execBnez (e : Engine) (a : Reg) (imm : BitVec 16) (s : State) : Out :=
  .next (runOp e (wordOf (.bnez e a imm)) (opBnez e a imm) s)
/-- BLTZ. -/
def execBltz (e : Engine) (a : Reg) (imm : BitVec 16) (s : State) : Out :=
  .next (runOp e (wordOf (.bltz e a imm)) (opBltz e a imm) s)
/-- BGEZ. -/
def execBgez (e : Engine) (a : Reg) (imm : BitVec 16) (s : State) : Out :=
  .next (runOp e (wordOf (.bgez e a imm)) (opBgez e a imm) s)
/-- BL. -/
def execBl (e : Engine) (imm : BitVec 16) (s : State) : Out := .next (runOp e (wordOf (.bl e imm)) (opBl e imm) s)
/-- BCNZ. -/
def execBcnz (c : CellId) (n : Fin 4) (imm : BitVec 16) (s : State) : Out :=
  .next (runOp (.seq c) (wordOf (.bcnz c n imm)) (opBcnz c n imm) s)
/-- LOOP. -/
def execLoop (e : Engine) (n : Fin 4) (a : Reg) (imm : BitVec 16) (s : State) : Out :=
  .next (runOp e (wordOf (.loop e n a imm)) (opLoop e n a imm) s)
/-- LOOP_END. -/
def execLoopEnd (e : Engine) (s : State) : Out := .next (if s.atLoopEnd e then runOp e (wordOf (.nop e)) (opNop e) s else s)

/-! ### Meanings of events -/

/-- TOKEN_PUT_ACCEPT. -/
def execTokenPutAccept (q : BitVec 15) (s : State) : Out := .next (s.onDie (s.queueCell q).die fun s => s.tokenPutAccept q)
/-- TOKEN_GET_TAKE. -/
def execTokenGetTake (e : Engine) (s : State) : Out := .next (s.onEngine e fun s => s.tokenGetTake e)
/-- TQ_TIMEOUT. -/
def execTqTimeout (w : TqWaiter) (s : State) : Out := .next (s.onDie (s.waitDie w) fun s => s.tqTimeout w)
/-- HOST_INTERRUPT. -/
def execHostInterrupt (h : Fin 8) (num : BitVec 8) (toMonitor : Bool) (s : State) : Out := .next (s.hostInterrupt h num toMonitor)

end Sys2Proof.Machine
end

