-- ==== Sys2Proof/Machine/Path.lean ====
section
/-! DEFINITION. The path units (R341 to R375): probes, sweeps, updates, operations and their completion. -/

namespace Sys2Proof.Machine

/-! ### Submission -/

/-- What a descriptor read after the fence of a submission has found (R356, R361, R362): the operation, or a breach of its layout. -/
def planDesc (v : Nat) (commit : Bool) (c : CellId) (lv : Level) (desc : Nat) : Option PathOp :=
  let cand := fieldOf v 31 0
  let res := fieldOf v 63 32
  let ncand := fieldOf v 72 64
  let nrank := fieldOf v 83 80
  if fieldOf v 79 73 ≠ 0 ∨ fieldOf v 95 84 ≠ 0 ∨ fieldOf v 159 143 ≠ 0 ∨ v / 2 ^ 160 ≠ 0 ∨ cand % 32 ≠ 0 ∨ res % 32 ≠ 0 ∨ ncand = 0 ∨
      (if commit then 8 < ncand ∨ nrank ≠ 0 else 256 < ncand ∨ nrank = 0 ∨ 8 < nrank ∨ fieldOf v 127 112 ≠ 0) ∨
      !lsIn cand (32 * ncand) ∨ !lsIn res (32 + 16 * ncand) then none
  else some
    { ticket := none, kind := if commit then .commit else .plan, cell := c.idx, level := lv, desc := desc, cand := cand, res := res,
      ncand := ncand, nrank := nrank, budget := fieldOf v 111 96, basegen := BitVec.ofNat 16 (fieldOf v 127 112),
      cq := BitVec.ofNat 15 (fieldOf v 142 128), batch := 0, clear := false, newgen := 0 }

/-- R362: an update descriptor; its COUNT is kept as `ncand`. -/
def updDesc (v : Nat) (c : CellId) (lv : Level) (desc : Nat) : Option PathOp :=
  if fieldOf v 63 48 ≠ 0 ∨ fieldOf v 94 84 ≠ 0 ∨ fieldOf v 127 112 ≠ 0 ∨ v / 2 ^ 143 ≠ 0 then none
  else some
    { ticket := none, kind := .upd, cell := c.idx, level := lv, desc := desc, cand := 0, res := 0, ncand := fieldOf v 83 64, nrank := 0,
      budget := 0, basegen := 0, cq := BitVec.ofNat 15 (fieldOf v 142 128), batch := fieldOf v 47 0, clear := fieldOf v 95 95 == 1,
      newgen := BitVec.ofNat 16 (fieldOf v 111 96) }

def State.path (s : State) (d : Fin 4) : PathUnit := s.paths[d]
def State.modPath (s : State) (d : Fin 4) (f : PathUnit → PathUnit) : State := { s with paths := s.paths.set d (f s.paths[d]) }

/-- The operations queued or running (R356). -/
def PathUnit.depth (u : PathUnit) : Nat :=
  u.queue.length + (if u.run.isSome then 1 else 0) + (if u.inter.isSome then 1 else 0) + u.ended.length

def pathDepthMax : Nat := 16

/-- R355, R356: PLAN, COMMIT and UPD act first as FENCE REL at DIE scope, which holds the engine. -/
def opPath (e : Engine) (k : PathKind) (d a : Reg) (word : W32) : Op :=
  { slot := 1, legal := !isHost e, uses := [d, a],
    act := fun s => .ok ((s.awaitVar e 1 d).pushHold e (.path k (s.xw e a) d (s.pc e) word), .fall) }

/-- A queued operation enters its unit. -/
def PathUnit.submit (u : PathUnit) (op : PathOp) : PathUnit :=
  { u with ticketNext := u.ticketNext + 1, queue := u.queue ++ [{ op with ticket := some u.ticketNext }] }

/-- The submission that follows the fence (R356): the descriptor is read and checked, then EN, then the depth. -/
def State.pathSubmit (s : State) (e : Engine) (k : PathKind) (desc : W32) (d : Reg) (pc : Nat) (word : W32) : State :=
  let c := cellOf e
  let o := desc.toNat
  let s := (s.setHold e .none).reach c.die 16
  if k ≠ .upd ∧ o % 32 ≠ 0 then s.raise e 1 pc word excOperand
  else if !lsIn o 32 then s.raise e 1 pc word (excAccess o)
  else
    let pa := lsBase c + o
    let s := s.touch pa 32
    if s.isMarked pa 32 then s.raise e 1 pc word (excData o)
    else
      let v := s.num pa 32
      match (match k with | .upd => updDesc v c (s.level e) o | _ => planDesc v (k == .commit) c (s.level e) o) with
      | none => s.raise e 1 pc word excOperand
      | some op =>
        if s.fld (.path c.die) 0 0 0 = 0 then (s.setSt e 0x0D).deliver e d (status 0x0D 0)
        else if pathDepthMax ≤ (s.path c.die).depth then (s.setSt e 0x0F).deliver e d (status 0x0F 0)
        else (s.modPath c.die (fun u => u.submit op)).deliver e d (status 0 (s.path c.die).ticketNext.toNat)

/-- R355, R370: PATH.ABORT sends its ticket to the unit. Its result is of variable latency: a sequencer holds s[d] as pending (R115), and a sliver
core, which executes in order, waits for it (R117). -/
def opPathAbort (e : Engine) (d a : Reg) : Op :=
  { slot := 1, legal := !isHost e, uses := [d, a],
    act := fun s =>
      if bits (s.xw e a) 31 16 ≠ 0 then .error (s, excOperand)
      else
        let s := (s.awaitVar e 1 d).modPath (cellOf e).die (fun u => { u with aborts := u.aborts ++ [(e, d, (s.xw e a).setWidth 16)] })
        .ok (if isSeq e then s else s.pushHold e (.abort d), .fall) }

/-- R355: PATH.GEN reads the generation. -/
def opPathGen (e : Engine) (d : Reg) : Op :=
  { slot := 1, legal := !isHost e, uses := [d],
    act := fun s => .ok (s.setVar e 1 d ((s.path (cellOf e).die).gen.setWidth 32), .fall) }

/-! ### Memory of an operation -/

/-- The MMU of a path unit. -/
def pathMmu (d : Fin 4) : Fin 5 := ⟨d, by omega⟩

/-- A translation of a path operation (R359, R710): the page, or the fault recorded with ENGINE 0x41. A page that is no memory counts as
outside the map. R341 keeps the table in the die's own usable DRAM; one that is mapped elsewhere is read and written there all the same, at once and
with no crate (DESIGN CHOICE, log entry 125). -/
def State.pathPage (s : State) (d : Fin 4) (r : PathRun) (acc : Acc) (va : Nat) : Option Page × PathRun × State :=
  let va := va % 2 ^ 48
  match s.transIn (pathMmu d) (r.op.level == .user) acc r.pages va with
  | (.ok (p, ps), s) =>
    if isMem (p.phys va) then (some p, { r with pages := ps }, s) else (none, r, s.mmuFault (pathMmu d) r.op.cell 0x41 5 0 va)
  | (.error (c, l, _), s) => (none, r, s.mmuFault (pathMmu d) r.op.cell 0x41 c l va)

/-- `n` bytes at a virtual address in one page, with their mark. -/
def State.pathRead (s : State) (d : Fin 4) (r : PathRun) (va n : Nat) : Option (Nat × Bool) × PathRun × State :=
  match s.pathPage d r .read va with
  | (none, r, s) => (none, r, s)
  | (some p, r, s) =>
    let pa := p.phys (va % 2 ^ 48)
    let s := (s.charge (pathMmu d) 16 n).touch pa n
    (some (s.num pa n, s.isMarked pa n), r, s)

/-- PATH_TABLE_BASE and PATH_PRIM_BASE (R373). -/
def State.pathTable (s : State) (d : Fin 4) : Nat := (s.reg (.path d) 0x0C).toNat + s.fld (.path d) 0x10 15 0 * 2 ^ 32
def State.pathPrims (s : State) (d : Fin 4) : Nat := (s.reg (.path d) 0x14).toNat + s.fld (.path d) 0x18 15 0 * 2 ^ 32

/-- A set: eight ways of key and leaf (R342). -/
abbrev PSet := List (BitVec 64 × BitVec 64)

def psetOf (v : Nat) : PSet := (List.range 8).map (fun i => (BitVec.ofNat 64 (v / 2 ^ (128 * i)), BitVec.ofNat 64 (v / 2 ^ (128 * i + 64))))
def PSet.bytes (l : PSet) : List Byte := l.flatMap (fun p => toLe 8 p.1.toNat ++ toLe 8 p.2.toNat)

/-- Fields of a leaf (R342). -/
def leafState (v : BitVec 64) : Nat := v.toNat % 4
def leafGen (v : BitVec 64) : BitVec 16 := BitVec.ofNat 16 (v.toNat / 2 ^ 48)
def PSet.sat (l : PSet) : Bool := match l with | [] => false | p :: _ => p.2.getLsbD 2

/-- R344. -/
def expired (age : Nat) (gen leaf : BitVec 16) : Bool := decide (age ≠ 0 ∧ age < (gen - leaf).toNat)

/-- R343: the set of a key. -/
def voxHash (k : BitVec 64) : Nat := (k * 0x9E3779B97F4A7C15#64).toNat / 2 ^ 46

/-- The key of a level and voxel indices (R342). -/
def voxKey (l : Nat) (x y z : Int) : BitVec 64 :=
  BitVec.ofNat 64 (l * 2 ^ 62) ||| (BitVec.ofInt 21 x).setWidth 64 <<< 41 ||| (BitVec.ofInt 21 y).setWidth 64 <<< 20 |||
    (BitVec.ofInt 20 z).setWidth 64

/-! ### Probes -/

/-- The outcome of a probe of a point. -/
inductive Probe where
  | free
  /-- A hit: the key, the generation of the leaf where one was met, POISON and RANGE. -/
  | hit (key : BitVec 64) (gen : Option (BitVec 16)) (poison range : Bool)
  | fault
  deriving DecidableEq, Repr

/-- inv[L] of R345 in FP32. -/
def voxInv (l : Nat) : W32 := match l with | 0 => 0x41200000#32 | 1 => 0x40A00000#32 | 2 => 0x40200000#32 | _ => 0x3FA00000#32

/-- An index at a level, when in the signed range of `w` bits. -/
def voxIdx (w l : Nat) (x : W32) : Option Int :=
  match (f32 (f32Mul x (voxInv l))).floor with
  | none => none
  | some i => if -(2 ^ (w - 1)) ≤ i ∧ i < 2 ^ (w - 1) then some i else none

/-- The three indices of a point. -/
def voxAt (l : Nat) (x y z : W32) : Option (BitVec 64) :=
  match voxIdx 21 l x, voxIdx 21 l y, voxIdx 20 l z with
  | some a, some b, some c => some (voxKey l a b c)
  | _, _, _ => none

/-- R345, R348: the levels of a probe, coarsest first. -/
def State.probe (s : State) (d : Fin 4) (x y z : W32) : List Nat → PathRun → Probe × PathRun × State
  | [], r => (.free, r, s)
  | l :: ls, r =>
    match voxAt l x y z with
    | none => (.hit 0 none false true, r, s)
    | some k =>
      match s.pathRead d r (s.pathTable d + voxHash k * 128) 128 with
      | (none, r, s) => (.fault, r, s)
      | (some (v, mark), r, s) =>
        let r := { r with probes := r.probes + 1 }
        let s := s.modPath d (fun u => { u with probes := u.probes + 1 })
        if mark then (.hit k none true false, r, s)
        else
          let t := psetOf v
          let gen := (s.path d).gen
          let age := s.fld (.path d) 8 15 0
          match t.find? (fun p => p.1 == k && leafState p.2 != 0 && !expired age gen (leafGen p.2)) with
          | some p => if leafState p.2 ≠ 2 ∨ l = 0 then (.hit k (some (leafGen p.2)) false false, r, s) else s.probe d x y z ls r
          | none => if t.sat then (.hit k none false false, r, s) else (.free, r, s)

/-! ### Sweeps -/

/-- π × 2^256. -/
def piFix : Nat := 363771576891766324280234942777729862653393377328392429958772151117938894466185

/-- Sine and cosine in 2^-256 units of an angle θ × 2^-256 below π/2, by their series: term, index and the two sums. -/
def trigSeries (th : Nat) : Nat → Nat → Nat → Int → Int → Int × Int
  | 0, _, _, sn, cs => (sn, cs)
  | n + 1, k, t, sn, cs =>
    let v : Int := if k / 2 % 2 = 0 then (t : Int) else -(t : Int)
    trigSeries th n (k + 1) (t * th / 2 ^ 256 / (k + 1)) (if k % 2 = 1 then sn + v else sn) (if k % 2 = 0 then cs + v else cs)

/-- A fixed-point number of 256 fraction bits in FP32, to nearest even. -/
def fixF32 (i : Int) : W32 := toF32 (.fin (decide (i < 0)) i.natAbs (-256))

/-- R354: cosine and sine of hd / 65,536 turns, correctly rounded to FP32. -/
def headTrig (hd : Nat) : W32 × W32 :=
  let q := hd / 16384 % 4
  let r := hd % 16384
  let (sn, cs) := if r = 0 then (0, (2 ^ 256 : Int)) else trigSeries (piFix * r / 32768) 60 0 (2 ^ 256) 0 0
  match q with
  | 0 => (fixF32 cs, fixF32 sn)
  | 1 => (fixF32 (-sn), fixF32 cs)
  | 2 => (fixF32 (-cs), fixF32 (-sn))
  | _ => (fixF32 sn, fixF32 (-cs))

/-- A primitive of a chain (R352). -/
structure Prim where
  list : Nat
  count : Nat
  entry : Nat
  exit : Nat
  ex : Int
  ey : Int
  edh : Nat
  deriving DecidableEq, Repr

def primOf (v : Nat) : Prim :=
  ⟨fieldOf v 31 0, fieldOf v 47 32, fieldOf v 63 48, fieldOf v 79 64, sgn 16 (fieldOf v 95 80), sgn 16 (fieldOf v 111 96),
    fieldOf v 127 112⟩

/-- A sweep on its way: pose, the arc before the primitive and the clear arc in centimetres, the sample index, the samples still to be
resolved. -/
structure Sweep where
  x : W32
  y : W32
  z : W32
  hd : Nat
  arc0 : Nat
  last : Nat
  idx : Nat
  left : Nat
  deriving DecidableEq, Repr

/-- How a sweep ended: every sample free, stopped, or a hit or fault at a sample. -/
inductive SwEnd where
  | clear | stopped
  | at_ (p : Probe)
  deriving DecidableEq, Repr

/-- The factor c of R354, and a signed number of centimetres in FP32. -/
def cmF32 : W32 := 0x3C23D70A#32
def intF32 (i : Int) : W32 := toF32 (.ofInt i)

/-- The samples of one primitive, in order (R354). -/
def State.sweepPrim (s : State) (d : Fin 4) (p : Prim) : List Nat → Sweep → PathRun → (SwEnd × Sweep) × PathRun × State
  | [], w, r => ((.clear, w), r, s)
  | k :: ks, w, r =>
    if w.left = 0 then ((.stopped, w), r, s)
    else match s.pathRead d r (s.pathPrims d + p.list + 8 * k) 8 with
    | (none, r, s) => ((.at_ .fault, w), r, s)
    | (some (v, mark), r, s) =>
      if mark then ((.at_ (.hit 0 none true false), w), r, s)
      else
        let (cs, sn) := headTrig w.hd
        let lx := f32Mul (intF32 (sgn 16 v)) cmF32
        let ly := f32Mul (intF32 (sgn 16 (v / 2 ^ 16))) cmF32
        let px := f32Add w.x (f32Sub (f32Mul cs lx) (f32Mul sn ly))
        let py := f32Add w.y (f32Add (f32Mul sn lx) (f32Mul cs ly))
        let pz := f32Add w.z (f32Mul (intF32 (sgn 16 (v / 2 ^ 32))) cmF32)
        match s.probe d px py pz [3, 2, 1, 0] r with
        | (.free, r, s) => s.sweepPrim d p ks { w with last := w.arc0 + fieldOf v 63 48, idx := w.idx + 1, left := w.left - 1 } r
        | (o, r, s) => ((.at_ o, w), r, s)

/-- The pose after a primitive (R354). -/
def Sweep.next (w : Sweep) (p : Prim) : Sweep :=
  let (cs, sn) := headTrig w.hd
  let ex := intF32 p.ex
  let ey := intF32 p.ey
  { w with
    x := f32Add w.x (f32Sub (f32Mul (f32Mul cs ex) cmF32) (f32Mul (f32Mul sn ey) cmF32)),
    y := f32Add w.y (f32Add (f32Mul (f32Mul sn ex) cmF32) (f32Mul (f32Mul cs ey) cmF32)),
    hd := (w.hd + p.edh) % 65536, arc0 := w.last }

/-- The primitives of a chain in order. -/
def State.sweepChain (s : State) (d : Fin 4) : List Prim → Sweep → PathRun → (SwEnd × Sweep) × PathRun × State
  | [], w, r => ((.clear, w), r, s)
  | p :: ps, w, r =>
    match s.sweepPrim d p (List.range p.count) w r with
    | ((.clear, w), r, s) => s.sweepChain d ps (w.next p) r
    | o => o

/-- The chain of a candidate record whose own fields are legal, or none (R353). -/
def candChain (v count : Nat) : Option (List Nat) :=
  let n := fieldOf v 115 112
  let ps := (List.range 8).map (fun i => fieldOf v (143 + 16 * i) (128 + 16 * i))
  if n = 0 ∨ 8 < n ∨ fieldOf v 127 116 ≠ 0 ∨ (ps.take n).any (fun p => decide (count ≤ p)) ∨ (ps.drop n).any (fun p => p != 0) then none
  else some (ps.take n)

/-- The directory entries of a chain: none at a translation fault; a marked entry makes the candidate INVALID. -/
def State.readPrims (s : State) (d : Fin 4) : List Nat → PathRun → Option (List Prim × Bool) × PathRun × State
  | [], r => (some ([], false), r, s)
  | n :: ns, r =>
    match s.pathRead d r (s.pathPrims d + 16 * n) 16 with
    | (none, r, s) => (none, r, s)
    | (some (v, mark), r, s) =>
      match s.readPrims d ns r with
      | (none, r, s) => (none, r, s)
      | (some (l, m), r, s) => (some (primOf v :: l, m || mark), r, s)

/-- The joints of a chain (R353). -/
def chainJoins : List Prim → Bool
  | p :: q :: r => p.exit == q.entry && chainJoins (q :: r)
  | _ => true

def chainOk (l : List Prim) : Bool :=
  l.all (fun p => p.list % 8 == 0 && decide (1 ≤ p.count ∧ p.count ≤ 4096)) && decide ((l.map (·.count)).sum ≤ 4096) && chainJoins l

/-- A distance in metres from centimetres, in FP32. -/
def metres (cm : Nat) : W32 := toF32 ((FV.fin false cm 0).quot (.fin false 100 0))

/-- A candidate that is not swept. -/
def candNone (outcome : BitVec 2) (poison : Bool) : CandRec :=
  { outcome := outcome, poison := poison, newer := false, range := false, idx := 0, arc := 0, key := 0, part := false }

/-- R363: NEWER. -/
def isNewer (base : BitVec 16) (g : Option (BitVec 16)) : Bool :=
  match g with
  | none => false
  | some g => let n := (g - base).toNat; decide (1 ≤ n ∧ n ≤ 32767)

/-- The record of a sweep (R363). -/
def sweepRec (base : BitVec 16) (o : SwEnd) (w : Sweep) : CandRec :=
  let arc := metres w.last
  match o with
  | .clear => { candNone 1 false with arc := arc, part := true }
  | .at_ (.hit k g p rg) =>
    { outcome := 2, poison := p, newer := isNewer base g, range := rg, idx := w.idx, arc := arc, key := k, part := true }
  | _ => { candNone 0 false with arc := arc, part := decide (0 < w.idx) }

/-- POISON of PATH_ERR, with its report (R348, R353). -/
def State.pathPoison (s : State) (d : Fin 4) : State := (s.orReg (.path d) 0x30 4#32).report (.poison d)

/-- One candidate is evaluated, at most `left` of its samples; whether a translation fault ended the operation is the result. -/
def State.sweepCand (s : State) (d : Fin 4) (left : Nat) (r : PathRun) : (CandRec × Bool) × PathRun × State :=
  let c : CellId := ⟨d, r.op.cell⟩
  let pa := lsBase c + r.op.cand + 32 * r.next
  let s := s.touch pa 32
  if s.isMarked pa 32 then ((candNone 3 true, false), r, s.pathPoison d)
  else
    let v := s.num pa 32
    match candChain v (min (s.fld (.path d) 0x1C 12 0) 4096) with
    | none => ((candNone 3 false, false), r, s)
    | some ns =>
      match s.readPrims d ns r with
      | (none, r, s) => ((candNone 0 false, true), r, s)
      | (some (l, mark), r, s) =>
        if mark then ((candNone 3 true, false), r, s.pathPoison d)
        else if !chainOk l then ((candNone 3 false, false), r, s)
        else
          let w : Sweep := ⟨BitVec.ofNat 32 v, BitVec.ofNat 32 (v / 2 ^ 32), BitVec.ofNat 32 (v / 2 ^ 64), fieldOf v 111 96, 0, 0, 0, left⟩
          let ((o, w), r, s) := s.sweepChain d l w r
          let k := sweepRec (if r.op.kind = .commit then r.op.basegen else r.startGen) o w
          ((k, decide (o = .at_ .fault)), r, if k.poison then s.pathPoison d else s)

/-- The end of a plan or commit after the record of a candidate (R365, R367), with no expiry. -/
def PathRun.judge (r : PathRun) : Option (BitVec 8) :=
  match r.op.kind with
  | .plan =>
    if r.rank.length = r.op.nrank then some 0
    else if r.op.ncand ≤ r.next then some (if r.rank.isEmpty then 4 else 0)
    else none
  | _ => if !r.rank.isEmpty then some 0 else if r.op.ncand ≤ r.next then some 0x0C else none

/-- R365, R367: what an expiry gives where nothing else ended the operation. -/
def PathRun.expiry (r : PathRun) : BitVec 8 := if r.op.kind = .plan ∧ !r.rank.isEmpty then 0 else 5

/-- The record of a candidate joins the run. -/
def PathRun.add (r : PathRun) (k : CandRec) : PathRun :=
  { r with recs := r.recs ++ [k], next := r.next + 1,
           rank := if k.outcome = 1 ∧ (r.op.kind = .commit ∨ 0 < r.next) then r.rank ++ [r.next] else r.rank }

/-- The fault of a path operation (R359). -/
def State.pathFaulted (s : State) (d : Fin 4) : State := (s.orReg (.path d) 0x30 2#32).report (.pathFault d)

/-- One whole candidate of a running plan or commit. -/
def State.stepCand (s : State) (d : Fin 4) (r : PathRun) : PathRun × State :=
  let ((k, flt), r, s) := s.sweepCand d 4097 r
  let r := r.add k
  if flt then ({ r with fin := some 0x0D }, s.pathFaulted d)
  else
    match r.judge with
    | some c => ({ r with fin := some c, expired := false }, s)
    | none => (if r.expired then { r with fin := some r.expiry } else r, s)

/-- Candidates of a running operation, until it ends or `n` have been swept. -/
def State.stepCands (s : State) (d : Fin 4) : Nat → PathRun → PathRun × State
  | 0, r => (r, s)
  | n + 1, r =>
    if r.fin.isSome then (r, s)
    else let (r, s) := s.stepCand d r; s.stepCands d n r

/-! ### Updates -/

/-- The pages from a virtual address on, `n` bytes; `fuel` bounds their number. -/
def State.pathPages (s : State) (d : Fin 4) (acc : Acc) (va n : Nat) : Nat → PathRun → Bool × PathRun × State
  | 0, r => (true, r, s)
  | fuel + 1, r =>
    if n = 0 then (true, r, s)
    else match s.pathPage d r acc va with
    | (none, r, s) => (false, r, s)
    | (some p, r, s) =>
      let m := min n (p.room (va % 2 ^ 48))
      s.pathPages d acc (va + m) (n - m) fuel r

/-- The physical address of a byte of an operation whose pages are translated. -/
def PathRun.phys (r : PathRun) (va : Nat) : Nat := match pageLookup r.pages (va % 2 ^ 48) with | some p => p.phys (va % 2 ^ 48) | none => 0

/-- Bytes of R341. -/
def tableBytes : Nat := 0x2000000

/-- R349: a clear makes every entry EMPTY and every SAT 0: every byte of the table becomes 0, and no mark is left, in memory and in the
Loft lines that hold it (R214); the first `n` bytes. -/
def State.pathClear (s : State) (d : Fin 4) (base n : Nat) (r : PathRun) : State :=
  let within := fun (a : Nat) => r.pages.any (fun p =>
    decide (p.pa ≤ a ∧ a < p.pa + p.size ∧ base ≤ p.va + (a - p.pa) ∧ p.va + (a - p.pa) < base + n))
  let s := s.charge (pathMmu d) 16 n
  let wipe := fun (k : LoftLine) =>
    { k with data := k.data.zipIdx.map (fun p => if within (128 * k.line + p.2) then 0 else p.1),
             ecc := k.ecc.filter (fun w => !within (128 * k.line + 8 * w.1)) }
  { s with mem := s.mem.filter (fun c => !within c.1), ecc := s.ecc.filter (fun c => !within c.1),
           stores := s.stores.map (fun k => k.cut within), lofts := s.lofts.set d { s.lofts[d] with lines := (s.lofts[d]).lines.map wipe } }

/-- The first way that satisfies a condition is replaced. -/
def PSet.put (f : BitVec 64 × BitVec 64 → Bool) (v : BitVec 64 × BitVec 64) : PSet → Option PSet
  | [] => none
  | p :: r => if f p then some (v :: r) else (PSet.put f v r).map (p :: ·)

/-- SAT of way 0. -/
def PSet.setSat (l : PSet) (b : Bool) : PSet :=
  match l with
  | [] => []
  | p :: r => (p.1, if b then p.2 ||| 4#64 else p.2 &&& ~~~4#64) :: r

/-- One entry of a batch against its set: the new set, and whether an insert was refused (R349). An EMPTY way holds 0. -/
def PSet.update (t : PSet) (age : Nat) (gen newgen : BitVec 16) (k : BitVec 64) (st cl : Nat) : PSet × Bool :=
  let sat := t.sat
  let v : BitVec 64 × BitVec 64 := (k, BitVec.ofNat 64 (newgen.toNat * 2 ^ 48 + cl * 2 ^ 32 + st))
  let holds := fun (p : BitVec 64 × BitVec 64) => p.1 == k && leafState p.2 != 0
  let free := fun (p : BitVec 64 × BitVec 64) => leafState p.2 == 0
  let old := fun (p : BitVec 64 × BitVec 64) => expired age gen (leafGen p.2)
  let keep := fun (t : PSet) => t.setSat sat
  match PSet.put holds (if st = 0 then (0, 0) else v) t with
  | some t => (keep t, false)
  | none =>
    if st = 0 then (t, false)
    else match PSet.put free v t with
    | some t => (keep t, false)
    | none =>
      match PSet.put old v t with
      | some t => (keep t, false)
      | none => (t.setSat true, true)

/-- The entry `i` of a batch is applied (R349). -/
def State.applyEntry (s : State) (d : Fin 4) (r : PathRun) (i : Nat) : State :=
  let va := r.op.batch + 16 * i
  let s := (List.range 16).foldl (fun s j => s.touch (r.phys (va + j)) 1) (s.charge (pathMmu d) 16 16)
  let v := leNat ((List.range 16).map (fun j => s.byte (r.phys (va + j))))
  let k : BitVec 64 := BitVec.ofNat 64 v
  let pa := r.phys (s.pathTable d + voxHash k * 128)
  let s := (s.charge (pathMmu d) 16 128).touch pa 128
  let mark := s.isMarked pa 128
  let t := if mark then (PSet.setSat (List.replicate 8 (0, 0)) true) else psetOf (s.num pa 128)
  let s := if mark then s.pathPoison d else s
  let (t', full) := t.update (s.fld (.path d) 8 15 0) (s.path d).gen r.op.newgen k (fieldOf v 65 64) (fieldOf v 103 96)
  let s := if full then s.count (.path d) 0x2C 31 0 1 else s
  if mark || t' != t then (s.charge (pathMmu d) 16 128).dieWrite d pa t'.bytes [] else s

/-- R348, R349: an update starts: it is rejected, or it translates its batch and the table, which it writes and for each entry reads (R192), or
faults. -/
def State.startUpd (s : State) (d : Fin 4) (r : PathRun) : PathRun × State :=
  let n := (r.op.newgen - (s.path d).gen).toNat
  if !r.op.clear && (n == 0 || decide (32768 ≤ n)) then ({ r with fin := some 0x0E }, s.orReg (.path d) 0x30 1#32)
  else
    match s.pathPages d .read r.op.batch (16 * r.op.ncand) (r.op.ncand + 2) r with
    | (false, r, s) => ({ r with fin := some 0x0D }, s.pathFaulted d)
    | (true, r, s) =>
      match (if r.op.ncand = 0 then (true, r, s) else s.pathPages d .read (s.pathTable d) tableBytes 8192 r) with
      | (false, r, s) => ({ r with fin := some 0x0D }, s.pathFaulted d)
      | (true, r, s) =>
        match s.pathPages d .write (s.pathTable d) tableBytes 8192 r with
        | (false, r, s) => ({ r with fin := some 0x0D }, s.pathFaulted d)
        | (true, r, s) => ({ r with fin := some 0 }, s)

/-- R349: the clear of the first `clear` bytes of the table, where the update asks for one, then the first `n` entries of the batch. -/
def State.applyUpd (s : State) (d : Fin 4) (r : PathRun) (clear n : Nat) : State :=
  let s := if r.op.clear then s.pathClear d (s.pathTable d) clear r else s
  (List.range n).foldl (fun s i => s.applyEntry d r i) s

/-- An update that ends before its end has written a part of the table that the spec leaves open: some sets of its clear, then some entries. -/
def State.partUpd (s : State) (d : Fin 4) (r : PathRun) : State :=
  let sets := Config.freeNat s.free % (2 ^ 18 + 1)
  let n := Config.freeNat (s.free + 1) % (r.op.ncand + 1)
  { s with free := s.free + 2 }.applyUpd d r (128 * sets) (if r.op.clear ∧ sets < 2 ^ 18 then 0 else n)

/-- An update that ends DONE has applied its whole batch, and GEN changes (R344, R349). -/
def State.endUpd (s : State) (d : Fin 4) (r : PathRun) : State :=
  if r.op.kind = .upd ∧ r.fin = some 0 then
    (s.applyUpd d r tableBytes r.op.ncand).modPath d (fun u => { u with gen := r.op.newgen })
  else s

/-! ### The run of a unit -/

/-- The start of an operation. -/
def startRun (op : PathOp) (gen : BitVec 16) : PathRun :=
  { op := op, next := 0, recs := [], rank := [], startGen := gen, probes := 0, pages := [], fin := none, drains := false, expired := false,
    late := false }

/-- PATH_OP_START: an idle unit starts its oldest operation; a plan at a candidate boundary starts the oldest queued update; and an
operation that runs sweeps up to `n` further candidates, none while an update waits for the boundary (R358, R364, R365). -/
def State.pathOpStart (s : State) (d : Fin 4) (n : Nat) : State :=
  s.unlessHeld (pathMmu d) 16 fun s =>
  s.unlessHeld (pathMmu d) 17 fun s =>
  let u := s.path d
  let upto := fun (op : PathOp) => if op.kind = .plan ∧ u.queue.any (fun o => o.kind == .upd) then min n 1 else n
  match u.run with
  | none =>
    match u.queue with
    | [] => s
    | op :: q =>
      let s := s.modPath d (fun u => { u with queue := q })
      let r := startRun op u.gen
      let (r, s) := if s.memCut d ≠ 0 then ({ r with fin := some (BitVec.ofNat 8 (s.memCut d)) }, s) else if op.kind = .upd then s.startUpd d r else s.stepCands d (upto op) r
      s.modPath d (fun u => { u with run := some r })
  | some r =>
    if u.inter.isSome || r.fin.isSome then s
    else if s.memCut d ≠ 0 then s.modPath d (fun u => { u with run := some { r with fin := some (BitVec.ofNat 8 (s.memCut d)) } })
    else
      match (if r.op.kind = .plan ∧ 0 < r.next then u.queue.find? (fun o => o.kind == .upd) else none) with
      | some op =>
        let s := s.modPath d (fun u => { u with queue := u.queue.erase op })
        let (r', s) := s.startUpd d (startRun op u.gen)
        s.modPath d (fun u => { u with inter := some r' })
      | none =>
        let (r, s) := s.stepCands d (upto r.op) r
        s.modPath d (fun u => { u with run := some r })

/-- The best partial (R365): the greatest clear arc among the candidates after the first that take part, the lowest index on ties. -/
def bestPartial (l : List CandRec) : Option Nat :=
  (l.zipIdx.foldl (fun (b : Option (Nat × W32)) p =>
    if p.2 = 0 ∨ !p.1.part then b
    else match b with
    | none => some (p.2, p.1.arc)
    | some (_, a) => if (f32 a).lt (f32 p.1.arc) then some (p.2, p.1.arc) else b) none).map (·.1)

/-- A record of R363. -/
def CandRec.bytes (k : CandRec) : List Byte :=
  let f := k.outcome.toNat + (if k.poison then 4 else 0) + (if k.newer then 8 else 0) + (if k.range then 16 else 0)
  toLe 2 f ++ toLe 2 k.idx ++ toLe 4 k.arc.toNat ++ toLe 8 k.key.toNat

/-- The final status word (R357). -/
def PathRun.word (r : PathRun) : W32 :=
  status (match r.fin with | some c => c.toNat | none => 1) (match r.op.ticket with | some t => t.toNat | none => 0) r.late

/-- The result area of a plan or commit (R363). -/
def PathRun.result (r : PathRun) (gen : BitVec 16) (elapsed : W32) : List Byte :=
  let recs := r.recs ++ List.replicate (r.op.ncand - r.recs.length) (candNone 0 false)
  let best := bestPartial recs
  let mr := if r.op.kind = .plan then (match recs with | [] => 0 | k :: _ => k.outcome.toNat) else 0
  let flags := (if r.expired && r.fin == some 0 && r.op.kind == .plan then 1 else 0) + (if best.isSome then 2 else 0)
  toLe 4 r.word.toNat ++ toLe 2 r.startGen.toNat ++ toLe 2 gen.toNat ++ toLe 1 r.rank.length ++ toLe 1 (best.getD 255) ++ toLe 1 mr ++
    toLe 1 flags ++ (List.range 8).flatMap (fun i => toLe 1 ((r.rank[i]?).getD 255)) ++ toLe 4 r.probes ++ toLe 4 elapsed.toNat ++
    toLe 4 0 ++ recs.flatMap CandRec.bytes

/-- R357: an ended operation writes its result area, then its token; PATH_FAULT is reported to the JOB_ block (R422). The update of JOB.START has neither. -/
def State.pathFinish (s : State) (d : Fin 4) (r : PathRun) (elapsed : W32) : State :=
  let s := if r.fin = some 0x0D then { s with jobFaults := s.jobFaults ++ [(d, r.op.cell, 0x0D#8)] } else s
  match r.op.ticket with
  | none => s
  | some _ =>
    let base := lsBase ⟨d, r.op.cell⟩
    let s := if r.op.kind = .upd then s.write (base + r.op.desc + 0x18) (toLe 4 r.word.toNat)
      else s.write (base + r.op.res) (r.result (s.path d).gen elapsed)
    s.putToken .unit .unit (Fin.ofNat 7 d) .die r.op.cq r.word

/-- PATH_OP_COMPLETE: the operation that has ended completes: an interleaved update first, then one aborted in the queue, then the one that
runs. -/
def State.pathOpComplete (s : State) (d : Fin 4) (elapsed : W32) : State :=
  s.unlessHeld (pathMmu d) 16 fun s =>
  let u := s.path d
  match u.inter with
  | some r => ((s.modPath d (fun u => { u with inter := none })).endUpd d r).pathFinish d r elapsed
  | none =>
    match u.ended with
    | r :: t => (s.modPath d (fun u => { u with ended := t })).pathFinish d r elapsed
    | [] =>
      match u.run with
      | none => s
      | some r => if r.fin.isNone then s else ((s.modPath d (fun u => { u with run := none })).endUpd d r).pathFinish d r elapsed

/-- The candidate in progress stops after `n` samples: nothing where it has not been reached. -/
def State.partCand (s : State) (d : Fin 4) (n : Nat) (r : PathRun) : PathRun × State :=
  if n = 0 then (r, s)
  else
    let ((k, flt), r, s) := s.sweepCand d n r
    let r := r.add k
    if flt then ({ r with fin := some 0x0D }, s.pathFaulted d) else (r, s)

/-- PATH_BUDGET_EXPIRY: the budget of the running plan or commit expires, with `n` samples of the candidate in progress resolved (R366).
The sweep of a plan's candidate 0 is not stopped. -/
def State.pathBudgetExpiry (s : State) (d : Fin 4) (n : Nat) : State :=
  let u := s.path d
  match u.run with
  | none => s
  | some r =>
    if r.op.kind = .upd ∨ r.fin.isSome then s
    else if r.op.kind = .plan ∧ r.next = 0 then s.modPath d (fun u => { u with run := some { r with expired := true } })
    else
      let (r, s) := if u.inter.isSome then (r, s) else s.partCand d n r
      let r := if r.fin.isSome then r
        else match (if n = 0 ∨ u.inter.isSome ∨ r.recs.getLast?.any (fun k => k.outcome == 0) then none else r.judge) with
        | some c => { r with fin := some c }
        | none => { r with expired := true, fin := some r.expiry }
      s.modPath d (fun u => { u with run := some r })

/-- The abort of the operation that runs. -/
def State.pathAbortRun (s : State) (d : Fin 4) (run : Option PathRun) (is : PathOp → Bool) (late : Bool) (n : Nat)
    (answer : State → Bool → State) : State :=
  match run with
  | none => answer s false
  | some r =>
    if !is r.op then answer s false
    else if r.op.kind = .upd ∨ (late ∧ r.fin.isSome) then
      answer (s.modPath d (fun u => { u with run := some { r with late := true } })) true
    else if r.expired ∧ r.fin.isSome then answer s true
    else
      let (r, s) := if r.fin.isSome then (r, s) else s.partCand d n r
      let r := if r.fin = some 0x0D then r else { r with fin := some 1 }
      answer (s.modPath d (fun u => { u with run := some r })) true

/-- PATH_ABORT_CAPTURE: the unit captures the oldest abort sent (R369, R370). `late`: it falls in the cycle of completion; `n`: the samples
of the candidate in progress resolved. -/
def State.pathAbortCapture (s : State) (d : Fin 4) (late : Bool) (n : Nat) : State :=
  let u := s.path d
  match u.aborts with
  | [] => s
  | (e, x, t) :: rest =>
    let s := s.modPath d (fun u => { u with aborts := rest })
    let is := fun (o : PathOp) => o.ticket == some t
    let answer := fun (s : State) (hit : Bool) =>
      (if s.hold e = .abort x then s.setHold e .none else s).deliver e x (status 0 (if hit then 1 else 0))
    match u.queue.find? is with
    | some op =>
      let r := { startRun op u.gen with fin := some 1 }
      answer (s.modPath d (fun u => { u with queue := u.queue.erase op, ended := u.ended ++ [r] })) true
    | none =>
      match u.inter with
      | some r =>
        if is r.op then answer (s.modPath d (fun u => { u with inter := some { r with late := true } })) true
        else s.pathAbortRun d u.run is late 0 answer
      | none => s.pathAbortRun d u.run is late n answer
/-- FENCE_COMPLETE: what an engine waits for is performed (R173, R175, R207, R221, R254, R356). A release does not wait for the vector accesses that
its own bundle broadcasts to the sliver cores (DESIGN CHOICE, log entry 22). -/
def State.fenceComplete (s : State) (e : Engine) : State :=
  let done := fun (sc : Scope) => s.movesDone e sc
  match s.hold e with
  | .fence sc kind scan =>
    if (kind.val = 0 || done sc) && (match scan with | some n => s.scanDone (cellOf e).die n | none => true) then
      (if kind.val = 0 then (s.readsDone e).acquire sc else if kind.val = 1 then s.releaseAll e else (s.releaseAll e).acquire sc).setHold e .none
    else s
  | .loftInv n => if s.scanDone (cellOf e).die n then s.setHold e .none else s
  | .put q sc v => if done sc then (s.releaseAll e).tputRelease e q sc v else s
  | .srel n => if done .cell && s.releaseTurn e n then ((s.releaseAll e).setHold e .none).release (cellOf e) n else s
  | .path k desc d pc word => if done .die then (s.releaseAll e).pathSubmit e k desc d pc word else s
  | .swait n f d => s.swaitDone e n f d
  | _ => s

/-! ### Meanings -/

/-- PATH_PLAN. -/
def execPathPlan (e : Engine) (d a : Reg) (s : State) : Out :=
  .next (runOp e (wordOf (.pathPlan e d a)) (opPath e .plan d a (wordOf (.pathPlan e d a))) s)
/-- PATH_COMMIT. -/
def execPathCommit (e : Engine) (d a : Reg) (s : State) : Out :=
  .next (runOp e (wordOf (.pathCommit e d a)) (opPath e .commit d a (wordOf (.pathCommit e d a))) s)
/-- PATH_UPD. -/
def execPathUpd (e : Engine) (d a : Reg) (s : State) : Out :=
  .next (runOp e (wordOf (.pathUpd e d a)) (opPath e .upd d a (wordOf (.pathUpd e d a))) s)
/-- PATH_ABORT. -/
def execPathAbort (e : Engine) (d a : Reg) (s : State) : Out := .next (runOp e (wordOf (.pathAbort e d a)) (opPathAbort e d a) s)
/-- PATH_GEN. -/
def execPathGen (e : Engine) (d : Reg) (s : State) : Out := .next (runOp e (wordOf (.pathGen e d)) (opPathGen e d) s)

/-! ### Meanings of events -/

/-- PATH_OP_START. -/
def execPathOpStart (d : Fin 4) (cands : Nat) (s : State) : Out := .next (s.onDie d fun s => s.pathOpStart d cands)
/-- PATH_OP_COMPLETE. -/
def execPathOpComplete (d : Fin 4) (elapsed : BitVec 32) (s : State) : Out := .next (s.onDie d fun s => s.pathOpComplete d elapsed)
/-- PATH_BUDGET_EXPIRY. -/
def execPathBudgetExpiry (d : Fin 4) (samples : Nat) (s : State) : Out := .next (s.onDie d fun s => s.pathBudgetExpiry d samples)
/-- PATH_ABORT_CAPTURE. -/
def execPathAbortCapture (d : Fin 4) (late : Bool) (samples : Nat) (s : State) : Out := .next (s.onDie d fun s => s.pathAbortCapture d late samples)
/-- FENCE_COMPLETE. -/
def execFenceComplete (e : Engine) (s : State) : Out := .next (s.onEngine e fun s => s.fenceComplete e)

end Sys2Proof.Machine
end

