-- ==== Sys2Proof/Machine/Sha512.lean ====
section
/-! DEFINITION. SHA-512 (FIPS 180-4) and HMAC-SHA-512 (RFC 2104), the standards that R620 and R630 name. -/

namespace Sys2Proof.Machine

/-- The largest `r` below 2^bits with r^k ≤ n. -/
def rootNat (k n bits : Nat) : Nat := (List.range bits).reverse.foldl (fun r b => if (r + 2 ^ b) ^ k ≤ n then r + 2 ^ b else r) 0

/-- The first 80 primes: below 410, with no divisor from 2 to 20 but themselves. -/
def shaPrimes : List Nat :=
  (List.range 410).filter (fun p => decide (2 ≤ p) && (List.range 21).all (fun d => decide (d < 2) || decide (p ≤ d) || p % d != 0))

/-- The round constants: the first 64 bits of the fractional parts of the cube roots of the primes; the initial hash: of their square roots. -/
def shaConst : List W64 := shaPrimes.map (fun p => BitVec.ofNat 64 (rootNat 3 (p * 2 ^ 192) 68))
def shaInit : List W64 := (shaPrimes.take 8).map (fun p => BitVec.ofNat 64 (rootNat 2 (p * 2 ^ 128) 70))

/-- The message with its padding: a one bit, zeros, and its length in bits as 16 bytes, most significant first. -/
def shaPad (m : List Byte) : List Byte :=
  m ++ [0x80#8] ++ List.replicate ((239 - m.length % 128) % 128) 0#8 ++ (List.range 16).map (fun i => BitVec.ofNat 8 (8 * m.length / 256 ^ (15 - i)))

/-- A word of eight bytes, most significant first. -/
def shaWord (l : List Byte) : W64 := BitVec.ofNat 64 (l.foldl (fun a b => a * 256 + b.toNat) 0)

/-- The message schedule of a block, its newest word first. -/
def shaSchedule (block : List Byte) : List W64 :=
  (List.range 64).foldl (fun w _ =>
    let a := w.getD 14 0
    let b := w.getD 1 0
    ((b.rotateRight 19 ^^^ b.rotateRight 61 ^^^ b >>> 6) + w.getD 6 0 + (a.rotateRight 1 ^^^ a.rotateRight 8 ^^^ a >>> 7) + w.getD 15 0) :: w)
    ((List.range 16).map (fun i => shaWord ((block.drop (8 * i)).take 8))).reverse

/-- One round on the eight working variables. -/
def shaRound (v : List W64) (kw : W64) : List W64 :=
  match v with
  | [a, b, c, d, e, f, g, h] =>
    let t := h + (e.rotateRight 14 ^^^ e.rotateRight 18 ^^^ e.rotateRight 41) + ((e &&& f) ^^^ (~~~e &&& g)) + kw
    let u := (a.rotateRight 28 ^^^ a.rotateRight 34 ^^^ a.rotateRight 39) + ((a &&& b) ^^^ (a &&& c) ^^^ (b &&& c))
    [t + u, a, b, c, d + t, e, f, g]
  | _ => v

/-- The hash after one more block. -/
def shaBlock (h : List W64) (block : List Byte) : List W64 :=
  List.zipWith (· + ·) h ((List.zipWith (· + ·) shaConst (shaSchedule block).reverse).foldl shaRound h)

/-- SHA-512 of a byte string: 64 bytes. -/
def sha512 (m : List Byte) : List Byte :=
  let p := shaPad m
  let h := (List.range (p.length / 128)).foldl (fun h i => shaBlock h ((p.drop (128 * i)).take 128)) shaInit
  (List.range 64).map (fun i => BitVec.ofNat 8 ((h.getD (i / 8) 0).toNat / 256 ^ (7 - i % 8)))

/-- HMAC-SHA-512 of a message under a key. -/
def hmacSha512 (key m : List Byte) : List Byte :=
  let k := if 128 < key.length then sha512 key else key
  let pad := fun (x : Byte) => (List.range 128).map (fun i => k.getD i 0 ^^^ x)
  sha512 (pad 0x5C#8 ++ sha512 (pad 0x36#8 ++ m))

/-- A digest is 64 bytes. -/
@[simp] theorem sha512_length (m : List Byte) : (sha512 m).length = 64 := by simp [sha512]

end Sys2Proof.Machine
end

