-- ==== Sys2Proof/Machine/Ed25519.lean ====
section
/-! DEFINITION. Ed25519 (RFC 8032), the signature that R410, R620, R630, R632 and R634 name. -/

namespace Sys2Proof.Machine

/-- The prime of the field, the order of the base point, and the constant of the curve. -/
def edP : Nat := 2 ^ 255 - 19
def edL : Nat := 2 ^ 252 + 27742317777372353535851937790883648493

def fMul (a b : Nat) : Nat := a * b % edP
def fAdd (a b : Nat) : Nat := (a + b) % edP
def fSub (a b : Nat) : Nat := (a + edP - b % edP) % edP
/-- Powers in the field, by squaring. -/
def fPow (a e : Nat) : Nat := (List.range 256).reverse.foldl (fun r i => if e.testBit i then fMul (fMul r r) a else fMul r r) 1
def fInv (a : Nat) : Nat := fPow a (edP - 2)
def edD : Nat := fMul (fSub 0 121665) (fInv 121666)

/-- A point in extended homogeneous coordinates: x = X/Z, y = Y/Z, x·y = T/Z. -/
structure EdPt where
  x : Nat
  y : Nat
  z : Nat
  t : Nat
  deriving DecidableEq, Repr

def edZero : EdPt := ⟨0, 1, 1, 0⟩

/-- The sum of two points; the law is complete, and doubles as well. -/
def EdPt.add (p q : EdPt) : EdPt :=
  let a := fMul (fSub p.y p.x) (fSub q.y q.x)
  let b := fMul (fAdd p.y p.x) (fAdd q.y q.x)
  let c := fMul (fMul (fMul 2 p.t) q.t) edD
  let d := fMul (fMul 2 p.z) q.z
  ⟨fMul (fSub b a) (fSub d c), fMul (fAdd d c) (fAdd b a), fMul (fSub d c) (fAdd d c), fMul (fSub b a) (fAdd b a)⟩

/-- A multiple of a point, for scalars below 2^256. -/
def EdPt.mul (p : EdPt) (n : Nat) : EdPt := (List.range 256).reverse.foldl (fun r i => if n.testBit i then (r.add r).add p else r.add r) edZero

/-- Whether two points are the same. -/
def EdPt.eqv (p q : EdPt) : Bool := fMul p.x q.z == fMul q.x p.z && fMul p.y q.z == fMul q.y p.z

/-- A number from bytes, least significant first, and its bytes. -/
def edNat (l : List Byte) : Nat := l.foldr (fun b a => b.toNat + 256 * a) 0
def edBytes (n v : Nat) : List Byte := (List.range n).map (fun i => BitVec.ofNat 8 (v / 256 ^ i))

/-- The x of a point with the given y and the given lowest bit of x, where there is one. -/
def edRecover (y : Nat) (sign : Bool) : Option Nat :=
  let v := fMul (fSub (fMul y y) 1) (fInv (fAdd (fMul edD (fMul y y)) 1))
  let r := fPow v ((edP + 3) / 8)
  let x := if fMul r r = v then r else fMul r (fPow 2 ((edP - 1) / 4))
  if edP ≤ y ∨ fMul x x ≠ v ∨ (x = 0 ∧ sign) then none
  else some (if (x % 2 == 1) == sign then x else edP - x)

/-- A point from its 32 bytes, and its bytes. -/
def edDecode (l : List Byte) : Option EdPt :=
  let n := edNat l
  let y := n % 2 ^ 255
  if l.length ≠ 32 then none
  else (edRecover y (n.testBit 255)).map (fun x => ⟨x, y, 1, fMul x y⟩)
def EdPt.encode (p : EdPt) : List Byte :=
  let i := fInv p.z
  edBytes 32 (fMul p.y i + fMul p.x i % 2 * 2 ^ 255)

/-- The base point: y = 4/5, x even. -/
def edBase : EdPt :=
  let y := fMul 4 (fInv 5)
  let x := (edRecover y false).getD 0
  ⟨x, y, 1, fMul x y⟩

/-- The secret scalar of a private key. -/
def edScalar (sk : List Byte) : Nat := edNat ((sha512 sk).take 32) % 2 ^ 254 / 8 * 8 + 2 ^ 254

/-- The public key of a private key: 32 bytes. -/
def ed25519Pub (sk : List Byte) : List Byte := (edBase.mul (edScalar sk)).encode

/-- The signature of a message: 64 bytes. -/
def ed25519Sign (sk m : List Byte) : List Byte :=
  let r := edNat (sha512 ((sha512 sk).drop 32 ++ m)) % edL
  let rb := (edBase.mul r).encode
  let k := edNat (sha512 (rb ++ ed25519Pub sk ++ m)) % edL
  rb ++ edBytes 32 ((r + k * edScalar sk) % edL)

/-- Verification under a public key, by the equation with the cofactor 8 (log entry 33). -/
def ed25519Verify (pk m sig : List Byte) : Bool :=
  let s := edNat (sig.drop 32)
  match edDecode pk, edDecode (sig.take 32) with
  | some a, some r =>
    let k := edNat (sha512 (sig.take 32 ++ pk ++ m)) % edL
    sig.length == 64 && decide (s < edL) && ((edBase.mul s).mul 8).eqv ((r.add (a.mul k)).mul 8)
  | _, _ => false

@[simp] theorem edBytes_length (n v : Nat) : (edBytes n v).length = n := by simp [edBytes]
@[simp] theorem ed25519Pub_length (sk : List Byte) : (ed25519Pub sk).length = 32 := by simp [ed25519Pub, EdPt.encode]
@[simp] theorem ed25519Sign_length (sk m : List Byte) : (ed25519Sign sk m).length = 64 := by simp [ed25519Sign, EdPt.encode]

end Sys2Proof.Machine
end

