-- ==== Sys2Proof/Machine/Images.lean ====
section
/-! DEFINITION. Job images: their header and sections, their verification under the job keys, and their resident copies (R410 to R412, R581, R621);
the check of a firmware, microcode or configuration image (R619, R620). -/

namespace Sys2Proof.Machine

/-- A word of an image (R410). -/
def State.img (s : State) (img o : Nat) : Nat := s.num (img + o) 4

/-- KIND of an image (R414). -/
def State.jobKindOf (s : State) (img : Nat) : Nat := s.img img 0x10 % 16

/-- The compute dies that an image names. -/
def State.diesOf (s : State) (img : Nat) : List (Fin 4) := (List.finRange 4).filter (fun (d : Fin 4) => (s.jobDies img).testBit d)
/-- Those of them that are not fenced. -/
def State.liveDies (s : State) (img : Nat) : List (Fin 4) := (s.diesOf img).filter (fun (d : Fin 4) => !s.fenced (Fin.ofNat 7 d.val))

/-- The cells of compute dies. -/
def cellsOf (l : List (Fin 4)) : List CellId := l.flatMap (fun d => (List.finRange 16).map (fun c => ⟨d, c⟩))

/-! ### Sections (R411) -/

/-- The entries of the section table: their addresses. -/
def State.sections (s : State) (img : Nat) : List Nat :=
  (List.range (s.img img 0x64 % 2 ^ 16)).map (fun i => img + s.img img 0x60 + 32 * i)

/-- An entry of the section table: the type, the cell, and the section's place in the image, destination and length. -/
structure Section where
  typ : Nat
  die : Nat
  cell : Nat
  src : Nat
  dst : Nat
  len : Nat
  deriving DecidableEq, Repr

def State.sectionAt (s : State) (img e : Nat) : Section :=
  { typ := s.num e 1, die := s.num (e + 1) 1 % 16, cell := s.num (e + 1) 1 / 16, src := img + s.num (e + 4) 8, dst := s.num (e + 12) 8, len := s.num (e + 20) 4 }

/-- Bytes copied as one read and one write, with their mark. -/
def State.copyMem (s : State) (src dst n : Nat) : State :=
  let ((l, parts), s) := s.readPiece src n
  (s.write dst l).markParts dst parts

/-- Where section `i` of an image is resident (R411, R412): a load region and PDMA descriptors at their destination in the DRAM of the die and of the
hub; every other section where hub firmware keeps it in its die's usable DRAM (log entry 59). -/
def Section.resident (x : Section) (img i : Nat) : Nat :=
  if x.typ = 3 then x.die * 0x1000000000 + x.dst % 0x1000000000
  else if x.typ = 4 then 0x4000000000 + x.dst % 0x1000000000
  else x.die * 0x1000000000 + Config.residentAt img i % (cdUsable - min x.len cdUsable + 1) / 64 * 64

/-- A section is copied to its resident place, where that lies in usable DRAM (R412). -/
def State.copySection (s : State) (img i : Nat) (x : Section) : State :=
  let dst := x.resident img i
  if x.len = 0 ∨ 4 ≤ x.die ∨ !dramOk dst || !dramOk (dst + x.len - 1) then s else s.copyMem x.src dst x.len

/-- The sections of an image of the dies given are copied (R412; R581 step 5). -/
def State.copySections (s : State) (img : Nat) (dies : List (Fin 4)) : State :=
  (s.sections img).zipIdx.foldl (fun (s : State) p =>
    let x := s.sectionAt img p.1
    if dies.any (fun d => d.val == x.die) then s.copySection img p.2 x else s) s

/-! ### Verification (R412, R621) -/

/-- The limits of R263 on a Shelf configuration. -/
def shelfCfgOk (v : W32) : Bool :=
  decide (bits v 6 0 ≤ 64 ∧ (bits v 6 0 = 0 ∨ (1 ≤ bits v 26 16 ∧ bits v 26 16 ≤ 1024)) ∧ bits v 6 0 * bits v 26 16 ≤ 1024)

/-- The job key list at the front of a hub firmware body; none where its count is not from 1 to 4 (R621). -/
def jobKeys (body : List Byte) : List (List Byte) :=
  let n := leNat (body.take 4)
  if 1 ≤ n ∧ n ≤ 4 then (List.range n).map (fun k => (body.drop (4 + 32 * k)).take 32) else []

/-- Hub firmware accepts a job image (R412, R621): its SIG verifies under a job key, its SECT_HASH is that of the section table and every section in
table order, and the Shelf configurations of its dies' cells meet the limits of R263. -/
def State.imageVerified (s : State) (keys : List (List Byte)) (img : Nat) : Bool :=
  let table := s.bytes (img + s.img img 0x60) (32 * (s.img img 0x64 % 2 ^ 16))
  let all := (s.sections img).flatMap (fun e => let x := s.sectionAt img e; s.bytes x.src x.len)
  keys.any (fun k => ed25519Verify k (sha512 (s.bytes img 0x180)) (s.bytes (img + 0x180) 64)) &&
    sha512 (table ++ all) == s.bytes (img + 0x80) 64 &&
    (cellsOf (s.diesOf img)).all (fun c => [0, 1].all (fun k => shelfCfgOk (Config.shelfCfg img c.num k)))

/-- Hub firmware verifies an image that it has loaded; where it accepts it, it copies its sections and marks it eligible (R412). -/
def State.admitImage (s : State) (img : Nat) : State :=
  if s.imageVerified s.job.keys img then
    let s := s.copySections img (List.finRange 4)
    { s with job := { s.job with eligible := s.job.eligible ++ [img] } }
  else s

/-! ### Boot images (R619, R620) -/

/-- Key slots that are programmed and not revoked. -/
def Otp.live (o : Otp) : List (Fin 4) := (List.finRange 4).filter (fun (k : Fin 4) => o.prog.getLsbD k && !o.rev.getLsbD k)

/-- In OPEN with no key slot programmed, a ROM starts no image (R627). -/
def Otp.blank (o : Otp) : Bool := o.lc == .open && o.prog == 0

/-- What an image that is accepted tells the die that starts it: the key slot, its version, its entry offset and the hash of header and body. -/
structure BootImage where
  slot : Fin 4
  svn : Nat
  entry : Nat
  hash : List Byte
  body : List Byte
  deriving DecidableEq, Repr

/-- The checks of R620 under the OTP of the verifying die on an image of the type that it loads, with the header of R619: the check that fails first, or
what the image tells. -/
def verifyImage (t : Otp) (typ : Nat) (l : List Byte) : Except Nat BootImage :=
  let num := fun (o n : Nat) => leNat ((l.drop o).take n)
  let slot := num 5 1
  let pub := (l.drop 0x10).take 32
  let body := l.drop 256
  if l.length < 256 ∨ num 0 4 ≠ 0x544F4F42 ∨ num 4 1 ≠ typ ∨ num 7 1 ≠ 0 ∨ 32 < num 6 1 ∨ num 8 4 % 256 ≠ 0 ∨ body.length ≠ num 8 4 ∨
      num 0x70 16 ≠ 0 ∨ num 0xC0 64 ≠ 0 then .error 1
  else if !(t.live.any (fun k => k.val == slot && t.keys[k] == sha512 pub)) then .error 2
  else if num 6 1 < t.svn[Fin.ofNat 5 typ] then .error 3
  else if !ed25519Verify pub (sha512 (l.take 0x80)) ((l.drop 0x80).take 64) then .error 4
  else if sha512 body ≠ (l.drop 0x30).take 64 then .error 5
  else .ok ⟨Fin.ofNat 4 slot, num 6 1, num 0xC 4, sha512 l, body⟩

/-- The images of a type in a directory, in its order. -/
def dirImages (dir : List (Nat × List Byte)) (typ : Nat) : List (List Byte) := (dir.filter (fun e => e.1 == typ)).map (·.2)

/-- A ROM tries images in order and takes the first that is accepted; the last check that failed before it, 0 where none did (R622). -/
def firstImage (t : Otp) (typ : Nat) : List (List Byte) → Nat → Option BootImage × Nat
  | [], err => (none, err)
  | l :: r, err =>
    match verifyImage t typ l with
    | .ok x => (some x, err)
    | .error n => firstImage t typ r n

end Sys2Proof.Machine
end

