-- ==== Sys2Proof/Machine/CellRegs.lean ====
section
/-! DEFINITION. The registers of a cell as software reads and writes them: CELL_ (R81 to R89, R134 to R139, R263 to R267, R558), PERF_
(R665 to R674), ATT_ (R301 to R304); debug control (R649 to R655); CRD and CWR (R171). -/

namespace Sys2Proof.Machine

/-! ### Pairs -/

/-- STATE of the job (R432). -/
def State.jobState (s : State) : Nat := s.fld .job 4 2 0
/-- A job runs: RUNNING, STOPPING, or FAULTED and not yet stopped. -/
def State.jobRuns (s : State) : Bool := s.jobState == 2 || s.jobState == 3 || s.jobState == 5

/-- Entries of a sparse map in [a, a + n) take the place of those in [b, b + n). -/
def copyRange {α : Type} (a b n : Nat) (m : List (Nat × α)) : List (Nat × α) :=
  let out := fun (p : Nat × α) => decide (p.1 < b ∨ b + n ≤ p.1)
  m.filter (fun p => decide (p.1 < b)) ++
    (m.filter (fun p => decide (a ≤ p.1 ∧ p.1 < a + n))).map (fun p => (p.1 - a + b, p.2)) ++
    m.filter (fun p => out p && decide (b ≤ p.1))

/-- When a pair ends, the checker holds what the main holds: cells, memories and registers (log entry 13). -/
def State.unpair (s : State) (d : Fin 4) (k : Fin 8) : State :=
  let m : CellId := ⟨d, Fin.ofNat 16 (2 * k.val)⟩
  let c : CellId := ⟨d, Fin.ofNat 16 (2 * k.val + 1)⟩
  let a := cellBase m.num
  let b := cellBase c.num
  let s := s.performAll (fun k => match k.who with | .eng e => engCell e == some m | _ => false)
  let s := s.setCell c { s.cell m with moves := [], kv := [], queues := [] }
  let regs := [0xC00004, 0xC10000, 0xC20000].foldl (fun r o => copyRange (a + o) (b + o) (if o = 0xC00004 then 0x4FC else 0x10000) r) s.regs
  { s with mem := copyRange a b 0xB00000 s.mem, ecc := copyRange a b 0xB00000 s.ecc, regs := regs }

/-- EN of a pair is set or cleared (R532, R558). -/
def State.setPair (s : State) (d : Fin 4) (k : Fin 8) (on : Bool) : State :=
  let m : CellId := ⟨d, Fin.ofNat 16 (2 * k.val)⟩
  let was := s.pairEn m.num
  let s := s.setFld (cellBlk m) 0x500 0 0 (if on then 1 else 0)
  if was && !on then s.unpair d k else s

/-! ### Debug control -/

/-- HALTED of a cell (R649, R674). -/
def State.dbgHalted (s : State) (c : CellId) : Bool := (s.reg (.perf c.num) 0x404).getLsbD 0

/-- SEL_ERR: a debug command or access was not performed. -/
def State.selErr (s : State) (c : CellId) : State := s.orReg (.perf c.num) 0x404 2#32

/-- DBG_HALT; a HALT while HALTED is 1 has no effect (R649, R651). -/
def State.dbgHaltCmd (s : State) (c : CellId) : State :=
  if s.dbgHalted c then s else (s.modCell c Cell.dbgHalt).orReg (.perf c.num) 0x404 1#32

/-- The engines of a cell run again. -/
def Cell.dbgRun (k : Cell) : Cell :=
  { k with seq := { k.seq with dbg := .run }, slv := k.slv.map (fun v => { v with dbg := .run }) }

/-- DBG_RESUME: refused while HALTED is 0, and after a pair mismatch until the job stops (R649, R655). -/
def State.dbgResumeCmd (s : State) (c : CellId) : State :=
  if !s.dbgHalted c || (s.cell c).pairStopped then s.selErr c
  else (s.modCell c Cell.dbgRun).clrReg (.perf c.num) 0x404 1#32

/-- The engine that PERF_DBG_SEL names. -/
def State.dbgEngine (s : State) (c : CellId) : Option Engine :=
  let v := s.fld (.perf c.num) 0x408 24 18
  if v = 0x40 then some (.seq c) else if v < 0x40 then some (.slv ⟨c, Fin.ofNat 64 v⟩) else none

/-- DBG_STEP: the engine of PERF_DBG_SEL may issue once, and halts again (R649). -/
def State.dbgStepCmd (s : State) (c : CellId) : State :=
  if !s.dbgHalted c || (s.cell c).pairStopped then s.selErr c
  else match s.dbgEngine c with
  | some (.seq c) => s.modSeq c (fun q => { q with dbg := .step })
  | some (.slv x) => s.modSlv x (fun v => { v with dbg := .step })
  | _ => s.selErr c

/-- An engine is halted: by the debugger, by HALT or by an exception. -/
def State.engineHalted (s : State) (e : Engine) : Bool :=
  match e with
  | .seq c => let q := (s.cell c).seq; q.dbg == .halted || q.run == .halted || q.run == .excHalted
  | .slv x => let v := s.slvAt x; v.dbg == .halted || v.run != .running
  | .host _ => false

/-- A word of a vector register, or one replaced. -/
def wordAt (v : W256) (i : Nat) : W32 := lane 32 v i
def setWord (v : W256) (i : Nat) (w : W32) : W256 := ofLanes 32 8 (fun j => if j = i then w else lane 32 v j)

/-- The bits that a program counter holds as a register: 16 on a sequencer and 13 on a sliver core, the low ones 0 (R91, R109). The model keeps a
target beyond the buffer until its fetch raises FETCH_FAULT (R179; log entry 109). -/
def pcBits (e : Engine) (v : Nat) : Nat := match e with | .seq _ => v % 0x10000 / 16 * 16 | .slv _ => v % 0x2000 / 4 * 4 | .host _ => v

/-- A register of an engine by FILE and INDEX (R674), none where the index is out of range. A sliver core's loop counters cannot be read (R180). -/
def State.dbgRead (s : State) (e : Engine) (file idx : Nat) : Option W32 :=
  match file, e with
  | 0, _ => if idx < 32 then some (s.xw e (Fin.ofNat 32 idx)) else none
  | 1, .seq c =>
    let a := (s.cell c).seq.a
    if idx < 16 then some (a[Fin.ofNat 16 idx].setWidth 32) else if idx < 32 then some ((a[Fin.ofNat 16 idx] >>> 32).setWidth 32) else none
  | 2, .seq c => if idx < 4 then some (((s.cell c).seq.c[Fin.ofNat 4 idx]).setWidth 32) else none
  | 3, .slv x => if idx < 256 then some (wordAt (s.slvAt x).v[Fin.ofNat 32 (idx / 8)] (idx % 8)) else none
  | 4, .slv x => if idx < 8 then some (s.pr x (Fin.ofNat 8 idx)) else none
  | 5, _ => if idx < 16384 then some (((s.cell (cellOf e)).tiles[Fin.ofNat 4 (idx / 4096)]).at (idx % 4096)) else none
  | 6, _ => if idx = 0 then some (s.stAll e) else none
  | 7, _ => if idx = 0 then some (BitVec.ofNat 32 (pcBits e (s.pc e))) else none
  | _, _ => none

/-- An element of a tile is written, with its parity (R41). -/
def Tile.put (t : Tile) (i : Nat) (v : W32) : Tile :=
  { t with par := t.par.filter (· ≠ i), elems := match t.undef with
      | none => sparseSet (fun _ => 0#32) i v t.elems
      | some k => sparseSet (fun i => Config.freeTile k i) i v t.elems }

/-- A write of it; register 0 and p0 discard theirs. -/
def State.dbgPut (s : State) (e : Engine) (file idx : Nat) (v : W32) : State :=
  match file, e with
  | 0, .seq c => s.modSeq c (fun q => q.put (.s (Fin.ofNat 32 idx)) (v.setWidth 40))
  | 0, .slv x => s.setX (.slv x) 0 1 (Fin.ofNat 32 idx) (v.setWidth 64)
  | 1, .seq c => s.modSeq c (fun q =>
      let i := Fin.ofNat 16 idx
      let old := q.a[i]
      { q with a := q.a.set i (if idx < 16 then ((old >>> 32) <<< 32) ||| v.setWidth 40 else ((old <<< 8) >>> 8) &&& 0xFFFFFFFF#40 ||| (v.setWidth 40 <<< 32)) })
  | 2, .seq c => s.modSeq c (fun q => { q with c := q.c.set (Fin.ofNat 4 idx) (v.setWidth 24) })
  | 3, .slv x => let r := Fin.ofNat 32 (idx / 8); s.setVr x r (setWord (s.vr x r) (idx % 8) v)
  | 4, .slv x => s.setPr x idx v
  | 5, _ => s.modCell (cellOf e) (fun k =>
      let t := Fin.ofNat 4 (idx / 4096)
      { k with tiles := k.tiles.set t ((k.tiles[t]).put (idx % 4096) v) })
  | 6, .seq c => s.modSeq c (fun q => { q with st := v, stNew := 0 })
  | 6, .slv x => s.modSlv x (fun q => { q with st := v, stNew := 0 })
  | 7, _ => s.setPc e (pcBits e v.toNat)
  | _, _ => s

/-- DBG_DATA_ACCESS: a read, or a write, of the selected register of a halted engine; otherwise a read gives 0, a write does nothing and
SEL_ERR sets (R652). -/
def State.dbgData (s : State) (c : CellId) (wr : Option W32) : W32 × State :=
  let sel := s.reg (.perf c.num) 0x408
  match s.dbgEngine c with
  | none => (0, s.selErr c)
  | some e =>
    if !s.engineHalted e then (0, s.selErr c)
    else match s.dbgRead e (bits sel 17 15) (bits sel 14 0) with
    | none => (0, s.selErr c)
    | some v =>
      match wr with
      | none =>
        let i := bits sel 14 0
        (v, s.parity (cellOf e) true (bits sel 17 15 == 5 && ((s.cell (cellOf e)).tiles[Fin.ofNat 4 (i / 4096)]).par.contains (i % 4096)))
      | some w => (w, s.dbgPut e (bits sel 17 15) (bits sel 14 0) w)

/-! ### Counter registers -/

/-- PERF_CLEAR: the counters and the snapshots go to 0, and no increment of the cycle is added (R667, R671). -/
def State.perfClear (s : State) (c : CellId) : State :=
  s.modCell c (fun k => { k with perf := { k.perf with cnt := Vector.replicate 8 0, snap := Vector.replicate 8 0, ev := { k.perf.ev with cleared := true } } })

/-- PERF_COUNTER_WRITE: half of a counter is written while EN is 0; otherwise WR_ERR sets (R667). -/
def State.perfCounterWrite (s : State) (c : CellId) (i : Fin 8) (hi : Bool) (v : W32) : State :=
  if (s.reg (.perf c.num) 0).getLsbD 0 then s.orReg (.perf c.num) 0 8#32
  else s.modCell c (fun k =>
    let old := k.perf.cnt[i]
    let new : BitVec 48 := if hi then (v.setWidth 16) ++ (old.setWidth 32) else (old.extractLsb' 32 16) ++ v
    { k with perf := { k.perf with cnt := k.perf.cnt.set i new, hiCnt := if hi then k.perf.hiCnt.set i (v &&& 0xFFFF#32) else k.perf.hiCnt } })

/-- The end of the window that is open: the first multiple of LEN × 1,024 ARR cycles, from the cycle in which EN last became 1, that no close has
reached; none while LEN is 0 or EN was never 1 (R668). -/
def State.windowEnd (s : State) (c : CellId) : Option Nat :=
  let len := s.fld (.perf c.num) 0x10 23 0 * 1024
  let p := (s.cell c).perf
  p.enAt.bind (fun t => if len = 0 then none else some (t + ((max p.closed t - t) / len + 1) * len))

/-- PERF_WINDOW_CLOSE: a window whose end is reached closes: the counters go to the snapshots and the sequence advances (R668; DESIGN CHOICE, log
entry 130). -/
def State.perfWindowClose (s : State) (c : CellId) : State :=
  match s.windowEnd c with
  | none => s
  | some t =>
    if (s.cell c).cycle < t then s
    else s.modCell c (fun k => { k with perf := { k.perf with snap := k.perf.cnt, winSeq := k.perf.winSeq + 1, closed := t } })

/-- The high half of a 48-bit count. -/
def hi48 (v : BitVec 48) : W32 := (v.extractLsb' 32 16).setWidth 32

/-- A read that latches (R668): the word read, and the state with the latches filled. -/
def State.latchedRead (s : State) (c : CellId) (r : LatchedReg) : W32 × State :=
  let k := s.cell c
  let p := k.perf
  match r with
  | .cycleLo => (BitVec.ofNat 32 k.cycle, s.setCell c { k with perf := { p with hiCycle := BitVec.ofNat 32 (k.cycle / 2 ^ 32) } })
  | .cntLo i => ((p.cnt[i]).setWidth 32, s.setCell c { k with perf := { p with hiCnt := p.hiCnt.set i (hi48 p.cnt[i]) } })
  | .snapLo i =>
    ((p.snap[i]).setWidth 32, s.setCell c { k with perf := { p with hiSnap := p.hiSnap.set i (hi48 p.snap[i]), seqLatch := p.winSeq } })

/-- SAMPLE_RECORD: the tagged issue completes and its record enters the ring at HEAD (R669, R673). -/
def State.sampleRecord (s : State) (c : CellId) (code : Byte) (conflicts : Nat) (tlb loft : Bool) : State :=
  let k := s.cell c
  match k.perf.tagged with
  | none => s
  | some g =>
    let b := Blk.perf c.num
    let h := s.fld b 0x108 3 0
    let at_ := 0x200 + 16 * h
    let s := s.setReg b at_ (g.word ||| BitVec.ofNat 32 (code.toNat * 2 ^ 24))
    let s := s.setReg b (at_ + 4) (BitVec.ofNat 32 g.issue)
    let s := s.setReg b (at_ + 8) (BitVec.ofNat 32 (min (k.cycle - g.issue) 0xFFFF * 65536 + min g.held 0xFFFF))
    let s := s.setReg b (at_ + 12) (BitVec.ofNat 32 (bit loft * 512 + bit tlb * 256 + min conflicts 0xFF))
    (s.setFld b 0x108 3 0 (h + 1)).modCell c (fun k => { k with perf := { k.perf with tagged := none } })

/-! ### Reads -/

def SeqRun.code : SeqRun → Nat | .idle => 0 | .running => 1 | .halted => 2 | .excHalted => 3

/-- CELL_RUN (R138): a sequencer stopped while it ran reads idle, with the cause in STOP. -/
def Cell.runWord (k : Cell) : W32 :=
  let q := k.seq
  BitVec.ofNat 32 (q.stop.toNat * 16 + k.level.code * 4 + (if q.stop = 0 then q.run.code else 0))

/-- CELL_SLV_EXC (R139). -/
def Cell.slvExc (k : Cell) : BitVec 64 :=
  BitVec.ofNat 64 ((List.finRange 64).foldl (fun a i => if (k.slv[i]).run = .excHalted then a + 2 ^ i.val else a) 0)

/-- A register of the CELL_ block of a cell that is no checker. -/
def State.cellRead (s : State) (c : CellId) (o : Nat) : W32 :=
  let k := s.cell c
  if o = 0x114 then k.runWord
  else if o = 0x118 then k.slvExc.setWidth 32
  else if o = 0x11C then (k.slvExc >>> 32).setWidth 32
  else if 0x300 ≤ o ∧ o < 0x500 ∧ o % 4 = 0 then (k.slots[Fin.ofNat 128 ((o - 0x300) / 4)]).word
  else s.reg (cellBlk c) o

/-- A register of its PERF_ block. A counter's high word reads what the last read of its low word latched, or what was written to it since (R8, R668;
DESIGN CHOICE, log entry 124). -/
def State.perfRead (s : State) (c : CellId) (o : Nat) : W32 × State :=
  let p := (s.cell c).perf
  if o = 0x008 then s.latchedRead c .cycleLo
  else if o = 0x00C then (p.hiCycle, s)
  else if o = 0x014 then (p.seqLatch, s)
  else if 0x40 ≤ o ∧ o < 0xC0 ∧ o % 16 = 4 then s.latchedRead c (.cntLo (Fin.ofNat 8 ((o - 0x40) / 16)))
  else if 0x40 ≤ o ∧ o < 0xC0 ∧ o % 16 = 8 then (p.hiCnt[Fin.ofNat 8 ((o - 0x40) / 16)], s)
  else if 0xC0 ≤ o ∧ o < 0x100 ∧ o % 8 = 0 then s.latchedRead c (.snapLo (Fin.ofNat 8 ((o - 0xC0) / 8)))
  else if 0xC0 ≤ o ∧ o < 0x100 ∧ o % 8 = 4 then (p.hiSnap[Fin.ofNat 8 ((o - 0xC0) / 8)], s)
  else if o = 0x40C then s.dbgData c none
  else (s.reg (.perf c.num) o, s)

/-- A register of its ATT_ block (R304). -/
def State.attRead (s : State) (c : CellId) (o : Nat) : W32 :=
  if o = 0x014 then
    let k := s.cell c
    (s.reg (.att c.num) 0x014 &&& 0x40000000#32) ||| BitVec.ofNat 32 (bit k.syncCover.isSome * 2 ^ 31 + k.kv.length)
  else s.reg (.att c.num) o

/-! ### Writes -/

/-- A software write by the rules of the register's row (R8, R10). -/
def State.plainWrite (s : State) (b : Blk) (o : Nat) (v : W32) : State :=
  match b.row o with
  | none => s
  | some r => s.setReg b o (r.write (s.reg b o) v)

/-- SHELF_CFG_WRITE (R263): refused while a job runs, or with a size out of range. -/
def State.shelfCfgWrite (s : State) (c : CellId) (sh : Fin 2) (v : W32) : State :=
  if s.jobRuns || !shelfCfgOk v then
    s.orReg (cellBlk c) 0x208 8#32
  else s.plainWrite (cellBlk c) (0x200 + 4 * sh) v

/-- A software write of the CELL_ block of a cell that is no checker. -/
def State.cellWrite (s : State) (c : CellId) (o : Nat) (v : W32) : State :=
  if o = 0x008 then s.seed c v
  else if o = 0x200 then s.shelfCfgWrite c 0 v
  else if o = 0x204 then s.shelfCfgWrite c 1 v
  else if o = 0x500 then
    if s.jobRuns || c.idx.val % 2 = 1 then s else s.setPair c.die (Fin.ofNat 8 (c.idx.val / 2)) (v.getLsbD 0)
  else s.plainWrite (cellBlk c) o v

/-- The commands of PERF_DBG_CTRL. -/
def State.dbgCtl (s : State) (c : CellId) (v : W32) : State :=
  let s := if v.getLsbD 0 then s.dbgHaltCmd c else s
  let s := if v.getLsbD 1 then s.dbgResumeCmd c else s
  if v.getLsbD 2 then s.dbgStepCmd c else s

/-- A software write of its PERF_ block. -/
def State.perfWrite (s : State) (c : CellId) (o : Nat) (v : W32) : State :=
  let b := Blk.perf c.num
  if o = 0x000 then
    let was := (s.reg b o).getLsbD 0
    let s := s.plainWrite b o v
    let s := if v.getLsbD 0 && !was then s.modCell c (fun k => { k with perf := { k.perf with enAt := some k.cycle, closed := k.cycle } }) else s
    if v.getLsbD 2 then s.perfClear c else s
  else if 0x40 ≤ o ∧ o < 0xC0 ∧ o % 16 = 4 then s.perfCounterWrite c (Fin.ofNat 8 ((o - 0x40) / 16)) false v
  else if 0x40 ≤ o ∧ o < 0xC0 ∧ o % 16 = 8 then s.perfCounterWrite c (Fin.ofNat 8 ((o - 0x40) / 16)) true v
  else if 0x40 ≤ o ∧ o < 0xC0 ∧ o % 16 = 0 then
    let v := if evCode (bits v 7 0) then v else v &&& 0xFFFFFF00#32
    let i : Fin 8 := Fin.ofNat 8 ((o - 0x40) / 16)
    (s.plainWrite b o v).modCell c (fun k => { k with perf := { k.perf with seen := k.perf.seen.set i (s.shared c.die (bits v 7 0)) } })
  else if o = 0x104 then
    (s.plainWrite b o v).modCell c (fun k => { k with perf := { k.perf with lfsr := if v = 0 then 1 else v } })
  else if o = 0x400 then s.dbgCtl c v
  else if o = 0x40C then (s.dbgData c (some v)).2
  else s.plainWrite b o v

/-- A software write of its ATT_ block (R290, R301 to R304). -/
def State.attWrite (s : State) (c : CellId) (o : Nat) (v : W32) : State :=
  let s := s.plainWrite (.att c.num) o v
  if o = 0x014 ∧ v.getLsbD 0 then s.attSyncGo c else s

/-- A software read of a cell's blocks, with the rules of a checker: its registers are its main's, but for its identity and pairing
(R533, R558, R653). -/
def State.cellBlockRead (s : State) (b : Blk) (o : Nat) : W32 × State :=
  match b with
  | .cell n =>
    let c := cellOfNum n
    if c.idx.val % 2 = 1 ∧ o = 0x500 then (2#32, s)
    else if c.idx.val % 2 = 1 ∧ o = 0x504 then (0, s)
    else (s.cellRead (if o = 0 then c else s.mainOf c) o, s)
  | .perf n => s.perfRead (s.mainOf (cellOfNum n)) o
  | .att n => (s.attRead (s.mainOf (cellOfNum n)) o, s)
  | _ => (0, s)

def State.cellBlockWrite (s : State) (b : Blk) (o : Nat) (v : W32) : State :=
  match b with
  | .cell n =>
    let c := cellOfNum n
    if c.idx.val % 2 = 1 ∧ (o = 0x500 ∨ o = 0x504) then s else s.cellWrite (s.mainOf c) o v
  | .perf n => s.perfWrite (s.mainOf (cellOfNum n)) o v
  | .att n => s.attWrite (s.mainOf (cellOfNum n)) o v
  | _ => s

/-! ### CRD and CWR -/

/-- The block that an offset of CRD or CWR selects, or none where R171 raises ACCESS_FAULT. -/
def crdBlk (c : CellId) (v : W32) : Option Blk :=
  if bits v 31 17 ≠ 0 ∨ v.toNat % 4 ≠ 0 then none else some (if v.getLsbD 16 then .perf c.num else .cell c.num)

/-- R171: CRD and CWR reach the cell's own registers, at Supervisor. -/
def opCrd (e : Engine) (d a : Reg) : Op :=
  { slot := 1, legal := !isHost e, uses := [d, a], check := fun s => if s.level e == .user then some excPriv else none,
    act := fun s =>
      let v := s.xw e a
      match crdBlk (cellOf e) v with
      | none => .error (s, excAccess v.toNat)
      | some b => let (x, s) := s.cellBlockRead b (bits v 15 0); .ok (s.setVar e 1 d x, .fall) }
def opCwr (e : Engine) (a b : Reg) : Op :=
  { slot := 1, legal := !isHost e, uses := [a, b], check := fun s => if s.level e == .user then some excPriv else none,
    act := fun s =>
      let v := s.xw e a
      match crdBlk (cellOf e) v with
      | none => .error (s, excAccess v.toNat)
      | some k => .ok (s.cellBlockWrite k (bits v 15 0) (s.xw e b), .fall) }

/-! ### Meanings -/

/-- CRD. -/
def execCrd (e : Engine) (d a : Reg) (s : State) : Out := .next (runOp e (wordOf (.crd e d a)) (opCrd e d a) s)
/-- CWR. -/
def execCwr (e : Engine) (a b : Reg) (s : State) : Out := .next (runOp e (wordOf (.cwr e a b)) (opCwr e a b) s)

/-! ### Meanings of events -/

/-- DBG_HALT. -/
def execDbgHalt (c : CellId) (s : State) : Out := .next (s.dbgHaltCmd (s.mainOf c))
/-- DBG_RESUME. -/
def execDbgResume (c : CellId) (s : State) : Out := .next (s.dbgResumeCmd (s.mainOf c))
/-- DBG_STEP. -/
def execDbgStep (c : CellId) (s : State) : Out := .next (s.dbgStepCmd (s.mainOf c))
/-- DBG_DATA_ACCESS. -/
def execDbgDataAccess (c : CellId) (wr : Option (BitVec 32)) (s : State) : Out := .next ((s.dbgData (s.mainOf c) wr).2)
/-- PERF_CLEAR. -/
def execPerfClear (c : CellId) (s : State) : Out := .next (s.perfClear (s.mainOf c))
/-- PERF_COUNTER_WRITE. -/
def execPerfCounterWrite (c : CellId) (i : Fin 8) (hi : Bool) (v : BitVec 32) (s : State) : Out := .next (s.perfCounterWrite (s.mainOf c) i hi v)
/-- LATCHED_READ. -/
def execLatchedRead (c : CellId) (r : LatchedReg) (s : State) : Out := .next ((s.latchedRead (s.mainOf c) r).2)
/-- PERF_WINDOW_CLOSE. -/
def execPerfWindowClose (c : CellId) (s : State) : Out := .next (s.onDie c.die fun s => s.perfWindowClose c)
/-- SAMPLE_RECORD. -/
def execSampleRecord (c : CellId) (code : BitVec 8) (conflicts : Nat) (tlbMiss loftMiss : Bool) (s : State) : Out := .next (s.onDie c.die fun s => s.sampleRecord c code conflicts tlbMiss loftMiss)
/-- SAMPLE_SEED_WRITE. -/
def execSampleSeedWrite (c : CellId) (v : BitVec 32) (s : State) : Out := .next (s.perfWrite (s.mainOf c) 0x104 v)
/-- SHELF_CFG_WRITE. -/
def execShelfCfgWrite (c : CellId) (sh : Fin 2) (v : BitVec 32) (s : State) : Out := .next (s.shelfCfgWrite (s.mainOf c) sh v)

end Sys2Proof.Machine
end

