-- ==== Sys2Proof/Machine/Crc.lean ====
section
/-! DEFINITION. The end-to-end header and its CRC-32C (R536), and the CRC-8 of the cross-link (R522). -/

namespace Sys2Proof.Machine

/-- One bit of a reflected CRC-32C register: the Castagnoli polynomial 0x1EDC6F41, reflected. -/
def crc32cBit (c : W32) : W32 := if c.getLsbD 0 then (c >>> 1) ^^^ 0x82F63B78#32 else c >>> 1

/-- One byte. -/
def crc32cByte (c : W32) (b : Byte) : W32 := (List.range 8).foldl (fun c _ => crc32cBit c) (c ^^^ b.setWidth 32)

/-- The register before the first byte, and after bytes. -/
def crcInit : W32 := 0xFFFFFFFF#32
def crcRun (c : W32) (l : List Byte) : W32 := l.foldl crc32cByte c

/-- CRC-32C of bytes (R536). -/
def crc32c (l : List Byte) : W32 := ~~~(crcRun crcInit l)

/-- The 16-byte header of R536. -/
def e2eHeader (ctr ts id flags : Nat) : List Byte := toLe 4 ctr ++ toLe 8 ts ++ toLe 2 id ++ toLe 1 flags ++ [0#8]

/-- Header and payload with their trailer. -/
def withTrailer (l : List Byte) : List Byte := l ++ toLe 4 (crc32c l).toNat

/-- One byte of the CRC-8 of R522: polynomial x^8 + x^2 + x + 1, most significant bit first. -/
def crc8Byte (c b : Byte) : Byte :=
  (List.range 8).foldl (fun (c : Byte) _ => if c.getLsbD 7 then (c <<< 1) ^^^ 0x07#8 else c <<< 1) (c ^^^ b)

/-- The CRC-8 of the 56 low bits of a cross-link frame, taken as seven little-endian bytes from 0 (log entry 52). -/
def crc8 (f : BitVec 64) : Byte := (toLe 7 f.toNat).foldl crc8Byte 0

/-- A list of bytes padded with zeros to a multiple of 256 (R685). -/
def pad256 (l : List Byte) : List Byte := l ++ List.replicate ((256 - l.length % 256) % 256) 0

end Sys2Proof.Machine
end

