-- ==== Sys2Proof/Machine/Trig.lean ====
section
/-! DEFINITION. Levels and triggers of the islands (R4, R5, R521, R526, R528), the VALID outputs and FAULT_N (R523, R550, R551); the modules of a fenced die and the
end of a live readmission (R458, R582). -/

namespace Sys2Proof

/-- The number of an island: 0 SIA, 1 SIB. -/
def Isl.num : Isl → Fin 2 | .sia => 0 | .sib => 1

end Sys2Proof

namespace Sys2Proof.Machine

def State.modIsl (s : State) (i : Fin 2) (f : Island → Island) : State := { s with isl := s.isl.set i (f s.isl[i]) }

/-- L_own: the highest level that an active trigger demands (R5, R521). -/
def Island.own (k : Island) : Nat := k.trigs.foldl (fun m t => max m t.level) 0

/-- The level of the part as an island reports it (R521); SL4, once entered, is left only by reset (R6). -/
def Island.level (k : Island) : Nat := if k.sl4 then 4 else max k.own k.peer

/-- FAULT_N reads low. -/
def State.faultLow (s : State) : Bool := s.faultExt || (s.isl[(0 : Fin 2)]).pull || (s.isl[(1 : Fin 2)]).pull

/-- ARM of an island. -/
def State.armed (s : State) (i : Fin 2) : Bool := (s.reg (.safe i) 4).getLsbD 0

/-- SAFE_SL4_CAUSE is written once (R554). -/
def State.sl4Cause (s : State) (i : Fin 2) (peer : Bool) (id inst : Nat) : State :=
  if (s.reg (.safe i) 0x10).getLsbD 31 then s
  else s.setReg (.safe i) 0x10 (BitVec.ofNat 32 (2 ^ 31 + (if peer then 2 ^ 30 else 0) + id * 256 + inst))

/-- SAFE_TRIG_LO (R554): the IDs that are active; none lies above 31. -/
def Island.trigWord (k : Island) : W32 := BitVec.ofNat 32 ((List.range 32).foldl (fun a n => a + bit (k.trigs.any (fun t => t.id == n)) * 2 ^ n) 0)

/-- A dump slot of the Attic (R656), and the state in its header: 0 EMPTY, 1 WRITING, 2 CAPTURED, 3 COMPLETE, 4 TORN (R658). -/
def atticSlot (k : Nat) : Nat := islBase 0 + 0x84000000 + k * 0x1000000
def State.dumpState (s : State) (k : Nat) : Nat := s.num (atticSlot k + 4) 2 / 256 % 8

/-- R657: the dump begins when SIA first latches SL4: its header reads WRITING. SIA writes none where it does not run, or its clock SFA has stopped. -/
def State.dumpStart (s : State) : State :=
  if s.dump.done || !(s.isl[(0 : Fin 2)]).up || (s.isl[(1 : Fin 2)]).clkStop.contains 15 then s
  else
    let slot : Fin 2 := if s.dumpState 0 = 0 then 0 else 1
    let k := s.isl[(0 : Fin 2)]
    let w := fun (v : W32) => toLe 4 v.toNat
    let seq := s.dump.seq + 1
    let hdr := toLe 4 0x43545441 ++ toLe 4 0x101 ++ w seq ++ toLe 4 0 ++ toLe 8 k.time.toNat ++ w (s.reg (.safe 0) 0x10) ++ w k.trigWord ++ toLe 4 0 ++
      toLe 4 k.before ++ w k.func ++ w k.jobId ++ w (s.reg .hlth 4) ++ List.replicate 0xCC 0
    { (s.write (atticSlot slot) hdr) with dump := { run := some (slot, k.time.toNat), done := true, fails := Vector.replicate 7 [], seq := seq } }

/-- R550: the island is at SL4: it latches it and pulls FAULT_N low. -/
def State.enterSl4 (s : State) (i : Fin 2) : State :=
  let k := s.isl[i]
  let s := match k.trigs.find? (fun t => t.level == 4) with
    | some t => s.sl4Cause i (t.id == 0x17) t.id t.inst
    | none => s.sl4Cause i true 0 0
  let s := if i = 0 ∧ !k.sl4 then s.dumpStart else s
  s.modIsl i (fun k => { k with sl4 := true, pull := true })

/-! ### Modules -/

/-- The link state of a module's end changes. -/
def State.setLink (s : State) (d : Fin 7) (m : Fin 10) (k : Link) : State := { s with links := s.links.set d ((s.links[d]).set m k) }

/-- STATE and CAUSE of a module (R467). -/
def State.setMod (s : State) (d : Fin 7) (m st cause : Nat) : State :=
  (s.setFld (.d2d d) (0x100 + 4 * m) 1 0 st).setFld (.d2d d) (0x100 + 4 * m) 6 3 cause

def stTraining : Nat := 1
def stService : Nat := 2
def stOut : Nat := 3

/-- Whether every module of an edge is out of service, seen from one die. -/
def State.edgeOut (s : State) (a b : Fin 7) : Bool := (edgeMods a b).all (fun m => s.modState a m == stOut)

/-- The dies joined to a die. -/
def neighbours (d : Fin 7) : List (Fin 7) := (List.finRange 7).filter (fun x => joined d x)

/-- Whether a crate's way, from where it is, uses an edge. -/
def usesEdge (a b : Fin 7) : Fin 7 → List (Fin 7) → Bool
  | _, [] => false
  | x, y :: r => (x == a && y == b) || (x == b && y == a) || usesEdge a b y r

/-- Whether a crate goes to, from or through a die. -/
def Crate.meets (c : Crate) (d : Fin 7) : Bool := c.src == d || c.cur == d || c.route.contains d || c.back.contains d || c.path.contains d

/-- Whether an edge lies on a crate's route, wherever the crate is on it (R454). -/
def Crate.uses (c : Crate) (a b : Fin 7) : Bool := usesEdge a b (c.path.headD c.src) c.path.tail

/-- Every crate of a list is declared lost. -/
def State.loseAll (s : State) (f : Crate → Bool) : State := (s.crates.filter f).foldl (fun s c => s.loseCrate c) s

/-- An edge without a module is lost once: EDGE_DOWN at both dies, and its crates (R454 to R456). -/
def State.edgeDown (s : State) (a b : Fin 7) : State :=
  ((s.d2dErr a 4).d2dErr b 4).loseAll (fun c => c.uses a b)

/-- The number of a compute die. -/
def cdOf (d : Fin 7) : Option (Fin 4) := if h : d.val < 4 then some ⟨d.val, h⟩ else none

/-- R458: one end of a module of a fenced die goes out of service. -/
def State.fenceMod (s : State) (d : Fin 7) (m : Nat) : State :=
  if s.modState d m = stOut then s else ((s.setMod d m stOut 5).d2dErr d 3).setLink d (Fin.ofNat 10 m) Link.reset

/-- The clocks of a fenced die are stopped on purpose, and are started again (R460, R481). -/
def Island.stopClk (k : Island) (l : List (Fin 18)) : Island := { k with clkStop := k.clkStop ++ l.filter (fun q => !k.clkStop.contains q) }
def Island.startClk (k : Island) (d : Nat) : Island := { k with clkStop := k.clkStop.filter (fun q => q.val != d && q.val != 4 + d) }

/-- Every module of every edge of a die goes out of service at both ends with cause FENCE; an edge that was not lost before is lost (R458). -/
def State.fenceMods (s : State) (x : Fin 7) : State :=
  (neighbours x).foldl (fun s y =>
    let was := s.edgeOut x y || s.edgeOut y x
    let s := (edgeMods x y).foldl (fun s m => s.fenceMod x m) s
    let s := (edgeMods y x).foldl (fun s m => s.fenceMod y m) s
    if was then s else (s.d2dErr x 4).d2dErr y 4) s

/-- IN_PROGRESS of a die's live readmission (R579, R581). -/
def State.readmitting (s : State) (d : Fin 4) : Bool := (s.reg .hlth 0xC).getLsbD (4 + d)

/-- R582: a readmission ends. An abandoned one counts as one attempt as well: the clock-stop lines are asserted again, and hub firmware fences the die
again, which takes the modules that were retrained out of service. -/
def State.readmitEnd (s : State) (d : Fin 4) (abandoned : Bool) : State :=
  if s.readmitting d then
    let n := s.fld .hlth 0xC (25 + 2 * d) (24 + 2 * d)
    let s := (s.setFld .hlth 0xC (4 + d) (4 + d) 0).setFld .hlth 0xC (25 + 2 * d) (24 + 2 * d) (min 3 (n + 1))
    let s := { s with hlth := { s.hlth with step7 := s.hlth.step7.filter (fun x => x ≠ d), resetDone := s.hlth.resetDone.filter (fun x => x ≠ d) } }
    if abandoned then
      let s := { (s.setFld .hlth 0xC 23 16 8) with
        isl := s.isl.map (fun (k : Island) => k.stopClk [Fin.ofNat 18 d.val, Fin.ofNat 18 (4 + d.val)]),
        tests := s.tests.set d { s.tests[d] with slices := [] } }
      if s.fenced (Fin.ofNat 7 d) then s.fenceMods (Fin.ofNat 7 d) else s
    else s
  else s

/-- Live readmissions end when the level of the part, as SIB reports it, reaches SL3 before their switch starts (R582). -/
def State.readmitLevel (s : State) : State :=
  if (s.isl[(1 : Fin 2)]).level < 3 then s
  else (List.finRange 4).foldl (fun (s : State) (d : Fin 4) => if s.hlth.step7.contains d then s else s.readmitEnd d true) s

/-! ### Levels -/

/-- An island's level has changed or may have: R523: VALID is high while every condition holds, and stays low until reset once it has fallen. -/
def State.refresh (s : State) (i : Fin 2) : State :=
  let s := if i = 1 then s.readmitLevel else s
  let lv := (s.isl[i]).level
  let s := if 4 ≤ lv then s.enterSl4 i else s.modIsl i (fun k => { k with before := lv })
  let k := s.isl[i]
  let ok := s.armed i && decide (k.level < 4) && !k.sl4 && k.fresh && k.peerArm && !s.faultLow
  s.modIsl i (fun k => { k with valid := ok && !k.dropped, dropped := k.dropped || (k.valid && !ok) })

/-- An island raises a trigger: it takes the given level. -/
def State.raiseTrig (s : State) (i : Fin 2) (id inst level : Nat) : State :=
  (s.modIsl i (fun k => { k with
    trigs := ⟨id, inst, level, k.time.toNat⟩ :: k.trigs.filter (fun t => !(t.id == id && t.inst == inst)),
    clears := k.clears.filter (fun c => c != (id, inst)) })).refresh i

/-- A trigger of an island clears. -/
def State.clearTrig (s : State) (i : Fin 2) (id inst : Nat) : State :=
  (s.modIsl i (fun k => { k with trigs := k.trigs.filter (fun t => !(t.id == id && t.inst == inst)) })).refresh i

/-- Whether a trigger is active. -/
def Island.active (k : Island) (id inst : Nat) : Bool := k.trigs.any (fun t => t.id == id && t.inst == inst)

def State.raiseBoth (s : State) (id inst level : Nat) : State := (s.raiseTrig 0 id inst level).raiseTrig 1 id inst level
def State.clearBoth (s : State) (id inst : Nat) : State := (s.clearTrig 0 id inst).clearTrig 1 id inst

/-- R528: CHECKER_DISAGREE takes one level above the others. -/
def Island.checkerLevel (k : Island) : Nat := min 4 (1 + (k.trigs.filter (fun t => t.id != 6)).foldl (fun m t => max m t.level) 0)

/-- HUB_FAULT_N_FALL: the output checkers write INVALID from here on, and SAFE_EVENT is raised (R551). -/
def State.hubFaultNFall (s : State) : State :=
  if s.faultLow then { (s.raiseHub .safe) with hub := { (s.raiseHub .safe).hub with invalid := true } } else s

/-- FAULT_N_LOW: an island reads FAULT_N low: it enters SL4, with PEER_SAFE where it does not pull the pin itself (R550). A pin that no
island pulls is held low from outside. -/
def State.faultNLow (s : State) (i : Fin 2) : State :=
  let s := if s.faultLow then s else { s with faultExt := true }
  if (s.isl[i]).pull || !(s.isl[i]).up then s else (s.raiseTrig i 0x17 0 4).refresh i

/-- The die mask of FENCED. -/
def State.allFenced (s : State) : Bool := s.fld (.d2d 4) 0x20 3 0 == 15

end Sys2Proof.Machine
end

