-- ==== Sys2Proof/Machine/Links.lean ====
section
/-! DEFINITION. The links between dies: bring-up (R438 to R443), replay, retraining and scores (R451 to R453), lost edges and fences (R456
to R460), and the movement of crates (R445 to R450, R454). -/

namespace Sys2Proof.Machine

/-- What a fence ends beside the die's traffic: its ready bits (R611), its slices (R544), and live readmissions (R582). -/
def State.fenceEnds (s : State) (d : Fin 4) : State :=
  let s := s.clrReg (.boot 0) 4 (BitVec.ofNat 32 (2 ^ (5 + d.val) + 2 ^ (9 + d.val)))
  let s := { s with tests := s.tests.set d { s.tests[d] with slices := [] },
                    isl := s.isl.map (fun (k : Island) => { k with fenceAt := (d.val, k.time.toNat) :: k.fenceAt.filter (fun x => x.1 ≠ d.val) }) }
  (List.finRange 4).foldl (fun (s : State) (x : Fin 4) => s.readmitEnd x true) s

/-- The capability word of a module: that of R440 with the MODS of its edge. -/
def capWord (d : Fin 7) (m : Nat) : Nat :=
  0x117FFF80 + (match modPeer d m with | some (p, _) => (edgeMods d p).length | none => 0)

/-- The intersection of two capability words (R441). -/
def capMeet (a b : Nat) : Nat :=
  let lo := fun (hi l : Nat) => min (a / 2 ^ l % 2 ^ (hi + 1 - l)) (b / 2 ^ l % 2 ^ (hi + 1 - l)) * 2 ^ l
  lo 31 28 + lo 27 24 + ((a &&& b) / 32 % 2 ^ 19) * 32 + lo 2 0

/-- The intersection of the in-service modules of a die. -/
def State.capOver (s : State) (d : Fin 7) (acc : Option Nat) : Option Nat :=
  (List.range 10).foldl (fun acc m =>
    if s.modState d m == stService && (match modPeer d m with | some (p, _) => decide (p.val < 5) | none => false) then
      let v := capMeet (capWord d m) (s.reg (.d2d d) (0x1C0 + 4 * m)).toNat
      some (match acc with | some a => capMeet a v | none => v)
    else acc) acc

/-- Whether every module of a die has come into service or gone out. -/
def State.linkSettled (s : State) (d : Fin 7) : Bool :=
  (List.range 10).all (fun m => (modPeer d m).isNone || decide (stService ≤ s.modState d m))

/-- D2D_CAP_NEG of a compute die or an island, and of the hub (R443, R699). -/
def State.negDie (s : State) (d : Fin 7) : State :=
  match s.capOver d none with
  | some v => s.setReg (.d2d d) 4 (BitVec.ofNat 32 v)
  | none => s
def ringEdges : List (Fin 7 × Fin 7) := [(0, 1), (0, 2), (1, 3), (2, 3)]
def State.negHub (s : State) : State :=
  match [0, 1, 2, 3, 4].foldl (fun acc d => s.capOver d acc) none with
  | some v =>
    let n := ringEdges.foldl (fun n e => min n ((edgeMods e.1 e.2).countP (fun m => s.modState e.1 m == stService))) 4
    s.setReg (.d2d 4) 4 (BitVec.ofNat 32 (v / 8 * 8 + n))
  | none => s

/-- Every module of every edge of a die is in service at both ends. -/
def State.modsUp (s : State) (x : Fin 7) : Bool :=
  (neighbours x).all (fun y => (edgeMods x y).all (fun m => s.modState x m == stService) && (edgeMods y x).all (fun m => s.modState y m == stService))

/-- The end of a die's link-up sets its D2D_CAP_NEG once. The reset of a live readmission clears it, and the end of its step 3, with every module retrained
into service, sets it again (R443, R581); an island's is set in the same way (R699). -/
def State.linkEnd (s : State) (d : Fin 7) : State :=
  let live := match cdOf d with | some x => s.readmitting x | none => false
  let s := if d.val ≠ 4 ∧ s.linkSettled d ∧ s.reg (.d2d d) 4 = 0 ∧ (!live ∨ s.modsUp d) then s.negDie d else s
  if s.reg (.d2d 4) 4 = 0 ∧ [0, 1, 2, 3, 4].all (fun d => s.linkSettled d) then s.negHub else s

/-- R458 to R460: compute die `d` is fenced; a step command on its way to it is not applied (R599). -/
def State.fenceDie (s : State) (d : Fin 4) : State :=
  let x : Fin 7 := Fin.ofNat 7 d
  if s.fenced x then s
  else
    let s := s.orReg (.d2d 4) 0x20 (BitVec.ofNat 32 (2 ^ d.val))
    let s := (neighbours x).foldl State.linkEnd ((s.fenceMods x).loseAll (fun c => c.meets x))
    let stop : List (Fin 18) := [Fin.ofNat 18 d.val, Fin.ofNat 18 (4 + d.val)]
    let s := { s with isl := s.isl.map (fun (k : Island) => k.stopClk stop), therm := { s.therm with cmd := s.therm.cmd.set d none } }
    let s := (s.raiseBoth 0x0B d 2).fenceEnds d
    if s.allFenced then s.raiseBoth 0x1B 0 4 else s

/-- R456: what the loss of an edge demands. -/
def State.edgeLost (s : State) (a b : Fin 7) : State :=
  let s := s.edgeDown a b
  let lo := min a.val b.val
  let hi := max a.val b.val
  if hi = 4 then s.fenceDie (Fin.ofNat 4 lo) else if 4 < hi then s.raiseBoth 0x0C (hi - 5) 2 else s

/-- The crates that a die has placed on a module and that have not crossed yet go to another module of the edge (R451, R453). -/
def State.resend (s : State) (d : Fin 7) (m : Fin 10) (p : Fin 7) : State :=
  let pick := s.pickModule d p
  { s with free := s.free + 1, crates := s.crates.map (fun k =>
      if k.src = d ∧ k.cur = d ∧ k.kind = k.req ∧ k.modl = some m ∧ k.route.headD d = p then { k with modl := pick } else k) }

/-- R453: an end of a module goes out of service by its own decision or by its peer's message, and tells its peer. A record that it has sent still arrives:
the peer checks it too (R438). -/
def State.takeOut (s : State) (d : Fin 7) (m : Fin 10) (cause : Fin 8) : State :=
  match modPeer d m with
  | none => s
  | some (p, pm) =>
    if s.modState d m = stOut then s
    else
      let lost := s.edgeOut p d
      let s := ((s.setMod d m stOut cause).d2dErr d 3).setLink d m { Link.reset with sent := (s.link d m).sent }
      let s := if s.modState p pm = stOut then s else s.setLink p (Fin.ofNat 10 pm) { s.link p (Fin.ofNat 10 pm) with msg := some cause }
      let s := (s.linkEnd d).resend d m p
      if s.edgeOut d p && !lost then s.edgeLost d p else s

/-- The Capability Record that a die of this part sends on a module: the capability word; strap, module number and stepping (R439, R440). -/
def capRecord (d : Fin 7) (m : Fin 10) : W32 × W32 :=
  (BitVec.ofNat 32 (capWord d m), BitVec.ofNat 32 (d + 8 * m + 65536 * (Config.stepping d).toNat))

/-- The modules of a die are retrained into service: step 3 of its live readmission, after its clocks run, it has been reset and its DRAM is
trained (R581). -/
def State.relinking (s : State) (x : Fin 7) : Bool :=
  match cdOf x with
  | some d => s.fenced x && s.readmitting d && s.hlth.resetDone.contains d && !s.clkStopped d && (s.dramGib[d.val]).isSome
  | none => false

/-- SIDEBAND_TRAINED: bring-up of a module starts and its record is sent; a module of a fenced die returns only in its live readmission (R438,
R453, R578, R581). -/
def State.sidebandTrained (s : State) (d : Fin 7) (m : Fin 10) : State :=
  match modPeer d m with
  | none => s
  | some (p, pm) =>
    let st := s.modState d m
    let back := s.fenced d || s.fenced p
    if (st = 0 ∨ (st = stOut ∧ back)) ∧ (!back ∨ s.relinking d ∨ s.relinking p) then
      let s := if s.modState p pm = stTraining then s else s.setLink p (Fin.ofNat 10 pm) { s.link p (Fin.ofNat 10 pm) with sent := none }
      ((s.setMod d m stTraining 0).setReg (.d2d d) (0x1C0 + 4 * m) 0).setLink d m { Link.reset with sent := some (capRecord d m) }
    else s

/-- Whether a module waits for its peer's record, or has checked it. -/
def State.awaitsRecord (s : State) (d : Fin 7) (m : Fin 10) : Bool :=
  s.modState d m == stTraining && !(s.link d m).retrain && s.reg (.d2d d) (0x1C0 + 4 * m) == 0

/-- CAPABILITY_RECORD: a record that the peer has sent is stored and checked (R438 to R442). Its words are those that arrive: another die than this
part's may have sent them (R442, R444). -/
def State.capabilityRecord (s : State) (d : Fin 7) (m : Fin 10) (w0 w1 : W32) : State :=
  match modPeer d m with
  | none => s
  | some (p, pm) =>
    let q := s.link p (Fin.ofNat 10 pm)
    if !s.awaitsRecord d m || q.sent.isNone then s
    else
      let s := (s.setLink p (Fin.ofNat 10 pm) { q with sent := none }).setReg (.d2d d) (0x1C0 + 4 * m) w0
      let s := (s.setFld (.d2d d) (0x100 + 4 * m) 13 10 (bits w1 6 3)).setFld (.d2d d) (0x100 + 4 * m) 9 7 (bits w1 2 0)
      let v := capMeet (capWord d m) w0.toNat
      if v / 2 ^ 24 % 16 = 0 ∨ v / 128 % 2 = 0 ∨ v / 256 % 2 ^ 15 ≠ 0x7FFF ∨ w0.toNat % 8 ≠ capWord d m % 8 then
        (s.d2dErr d 1).takeOut d m 3
      else if bits w1 2 0 ≠ p.val ∨ bits w1 6 3 ≠ pm then (s.d2dErr d 2).takeOut d m 4
      else s

/-- NEG_FAIL_TIMEOUT: no record within 1 ms (R438). -/
def State.negFailTimeout (s : State) (d : Fin 7) (m : Fin 10) : State :=
  if s.awaitsRecord d m && (modPeer d m).isSome then (s.d2dErr d 1).takeOut d m 3 else s

/-- TRAIN_FAIL: the sideband or the mainband does not train (R436, R438). -/
def State.trainFail (s : State) (d : Fin 7) (m : Fin 10) : State :=
  if (s.modState d m = 0 ∨ s.modState d m = stTraining) ∧ !(s.link d m).retrain then s.takeOut d m 7 else s

/-- A module's end whose check of the peer's record has passed: it still trains, or is in service. -/
def State.checked (s : State) (d : Fin 7) (m : Fin 10) : Bool :=
  s.modState d m == stService || (s.modState d m == stTraining && !(s.link d m).retrain && !s.awaitsRecord d m)

/-- MAINBAND_TRAINED: a module whose records passed at both ends enters service (R438). -/
def State.mainbandTrained (s : State) (d : Fin 7) (m : Fin 10) : State :=
  match modPeer d m with
  | none => s
  | some (p, pm) =>
    if s.modState d m = stTraining ∧ s.checked d m ∧ s.checked p (Fin.ofNat 10 pm) then ((s.setMod d m stService 0).linkEnd d).linkEnd p else s

/-- A score beyond the limit takes its module out (R452). -/
def State.scoreCheck (s : State) (d : Fin 7) (m : Fin 10) : State :=
  let up := s.modState d m == stService || (s.modState d m == stTraining && (s.link d m).retrain)
  if up && decide (s.fld (.d2d d) 8 15 0 < s.fld (.d2d d) (0x140 + 4 * m) 15 0) then s.takeOut d m 1 else s
def State.score (s : State) (d : Fin 7) (m : Fin 10) (n : Nat) : State := (s.count (.d2d d) (0x140 + 4 * m) 15 0 n).scoreCheck d m

/-- One end of a module starts a retrain: its crates go to the other modules of the edge (R451, R452). -/
def State.startRetrain (s : State) (d : Fin 7) (m : Fin 10) : State :=
  if s.modState d m = stService then
    let s := ((s.setMod d m stTraining 0).setLink d m { s.link d m with bad := 0, retrain := true }).report (.retrain d m)
    (match modPeer d m with | some (p, _) => s.resend d m p | none => s).score d m 256
  else s

/-- FLIT_RECEIVED: a flit with a bad CRC is replayed; the sixteenth failure in a row retrains both ends (R451, R452). -/
def State.flitReceived (s : State) (d : Fin 7) (m : Fin 10) (ok : Bool) : State :=
  match modPeer d m with
  | none => s
  | some (p, pm) =>
    if s.modState d m ≠ stService then s
    else if ok then s.setLink d m { s.link d m with bad := 0 }
    else
      let n := (s.link d m).bad + 1
      let s := (s.setLink d m { s.link d m with bad := n }).count (.d2d d) (0x180 + 4 * m) 31 0 1
      let s := s.score d m 1
      if 16 ≤ n then (s.startRetrain d m).startRetrain p (Fin.ofNat 10 pm) else s

/-- RETRAIN_DONE: the retrain of a module ends, for both ends; one that fails takes it out of service (R451). -/
def State.retrainDone (s : State) (d : Fin 7) (m : Fin 10) (ok : Bool) : State :=
  let back := fun (s : State) (d : Fin 7) (m : Fin 10) =>
    if s.modState d m = stTraining ∧ (s.link d m).retrain then (s.setMod d m stService 0).setLink d m { s.link d m with bad := 0, retrain := false } else s
  match modPeer d m with
  | none => s
  | some (p, pm) =>
    if !((s.link d m).retrain && s.modState d m == stTraining) then s
    else if ok then back (back s d m) p (Fin.ofNat 10 pm) else s.takeOut d m 2

/-- SCORE_DECAY: every score of a die falls by one (R452). -/
def State.scoreDecay (s : State) (d : Fin 7) : State :=
  (List.range 10).foldl (fun s m => if (modPeer d m).isSome then
    s.setFld (.d2d d) (0x140 + 4 * m) 15 0 (s.fld (.d2d d) (0x140 + 4 * m) 15 0 - 1) else s) s

/-- MODULE_OUT_MESSAGE: the peer's message takes this end out with the same cause (R453). -/
def State.moduleOutMessage (s : State) (d : Fin 7) (m : Fin 10) : State :=
  match (s.link d m).msg with
  | none => s
  | some c => s.takeOut d m c

/-- EDGE_FENCE_TIMEOUT: a lost ring edge of which neither die has been fenced: the higher strap is (R456). -/
def State.edgeFenceTimeout (s : State) (e : Fin 4) : State :=
  match ringEdges[e]? with
  | none => s
  | some (a, b) => if (s.edgeOut a b || s.edgeOut b a) && !s.fenced a && !s.fenced b then s.fenceDie (Fin.ofNat 4 b) else s

/-- FENCE_SET: firmware fences the dies of a mask (R457, R466). -/
def State.fenceSet (s : State) (mask : BitVec 4) : State :=
  (List.finRange 4).foldl (fun (s : State) (d : Fin 4) => if mask.getLsbD d.val then s.fenceDie d else s) s

/-- A die's live readmission has retrained every module of its edges into service (R459, R581). -/
def State.unfenceable (s : State) (d : Fin 4) : Bool :=
  let x : Fin 7 := Fin.ofNat 7 d
  s.fenced x && s.readmitting d && s.hlth.resetDone.contains d && s.modsUp x

/-- UNFENCE: a fenced die whose live readmission has put its modules in service again is unfenced, with its sections of every resident image copied
before (R581 step 5); otherwise UNFENCE_REJ sets (R459, R466, R488). -/
def State.unfence (s : State) (mask : BitVec 4) : State :=
  (List.finRange 4).foldl (fun (s : State) (d : Fin 4) =>
    if !mask.getLsbD d.val then s
    else
      if s.unfenceable d then
        let s := s.job.eligible.foldl (fun (s : State) img => s.copySections img [d]) s
        let s := s.clrReg (.d2d 4) 0x20 (BitVec.ofNat 32 (2 ^ d.val))
        let s := { s with isl := s.isl.map (fun (k : Island) => k.startClk d.val) }
        ((s.clearBoth 0x0B d).clearBoth 0x0D d).clearBoth 0x0D (4 + d.val)
      else s.orReg (.d2d 4) 0x20 0x1000000#32) s

/-! ### Crates -/

/-- The regulated port of a die at which crates from a neighbour enter (R19, R509). -/
def inPort (at_ from_ : Fin 7) : Option (Fin 5 × Nat) :=
  if at_.val < 4 then
    some (Fin.ofNat 5 at_, if from_.val = 4 then 20 else if from_ = ringLow at_ then 18 else 19)
  else if at_.val = 4 then some (4, if from_.val < 4 then 7 + from_.val else 11 + (from_.val - 5))
  else none

/-- The payload of a crate (R445). -/
def Crate.payload (c : Crate) : Nat := match c.kind with | .wr => c.len | .rdata => c.len | .tput => 4 | _ => 0

def State.chargeIn (s : State) (at_ from_ : Fin 7) (n : Nat) : State :=
  match inPort at_ from_ with
  | some (b, p) => if n = 0 then s else s.charge b p n
  | none => s

/-- A crate reaches the common logic of a die (R541, R544). -/
def State.reachDie (s : State) (d : Fin 7) : State := match cdOf d with | some c => s.reach c 18 | none => s

/-- A crate crosses one edge. -/
def State.hop (s : State) (c : Crate) : State × Crate :=
  match c.route with
  | [] => (s, c)
  | d :: r =>
    let m := if c.modl.isNone ∧ c.cur = c.src ∧ c.kind = c.req then s.pickModule c.src d else c.modl
    ({ (s.chargeIn d c.cur c.payload).reachDie d with free := s.free + 1 }, { c with cur := d, route := r, modl := m })

/-- CRATE_FORWARD: a crate reaches an intermediate die, which counts it (R449). -/
def State.forward (s : State) (c : Crate) : State :=
  let (s, c) := s.hop c
  (s.setCrate c).setReg (.d2d c.cur) 0x1C (s.reg (.d2d c.cur) 0x1C + 1)

/-- The answer of a crate takes the reverse of its route (R449). -/
def Crate.answer (c : Crate) (k : CrateKind) : Crate := { c with kind := k, route := c.back }

/-- The stores of a host core that are still on their way and older than a crate. -/
def State.olderWr (s : State) (c : Crate) : List Crate :=
  s.crates.filter (fun (k : Crate) => k.who == c.who && k.kind == CrateKind.wr && decide (k.num < c.num))

/-- A WR is performed and acknowledged (R447). Where an older store of the same host core to its bytes is still on its way, that core goes on to read its
bytes of this one, whichever write stands last in memory (R205). -/
def State.performWr (s : State) (c : Crate) : State :=
  let t := (s.write c.pa c.data c.mark).setCrate (c.answer .ack)
  match c.who with
  | .host h =>
    let old := (s.olderWr c).filter (fun (k : Crate) => meets k.pa k.len c.pa c.len)
    if old.isEmpty then t
    else
      { t with
        crates := t.crates.map (fun (k : Crate) => if old.any (fun o => o.num == k.num) then { k with passed := (c.pa, c.len) :: k.passed } else k)
        stores := t.stores ++ [⟨.eng (.host h), c.pa, c.data.map some, [], true, false⟩] }
  | _ => t

/-- The byte of an address as the issuer of an RD reads it: the latest of a host core's earlier stores comes before its later loads, on its way or
performed (R205). -/
def State.rdByte (s : State) (c : Crate) (a : Nat) : Byte :=
  match c.who with
  | .host h =>
    ((s.olderWr c).reverse.findSome? (fun (k : Crate) =>
      if k.pa ≤ a ∧ !k.passed.any (fun p => decide (p.1 ≤ a ∧ a < p.1 + p.2)) then k.data[a - k.pa]? else none)).getD (s.ownByte (.eng (.host h)) a)
  | _ => s.byte a

/-- An RD is served. -/
def State.performRd (s : State) (c : Crate) : State :=
  let s := s.touch c.pa c.len
  s.setCrate { c.answer .rdata with data := (List.range c.len).map (fun i => s.rdByte c (c.pa + i)), mark := s.isMarked c.pa c.len }

/-- The data of a load that held a host core reach it (R147, R445). -/
def State.hostLoaded (s : State) (h : Fin 8) (c : Crate) : State :=
  match (s.hosts[h]).hold with
  | .hostRead n d k u _ =>
    if n ≠ c.num then s
    else if c.mark then s.modHost h (fun x => x.loadFails c.num)
    else (s.setHold (.host h) .none).setX (.host h) 0 1 d (loadVal k (leNat c.data) u)
  | _ => s

/-- A TPUT meets its queue, and is acknowledged once it has entered (R447, R450). -/
def State.performTput (s : State) (c : Crate) : State :=
  (s.setCrate c).offer c.q (.crate c.num) c.val

/-- RDATA reach their issuer (R218, R445). -/
def State.performRdata (s : State) (c : Crate) : State :=
  let s := s.dropCrate c.num
  match c.who with
  | .move m id => s.moveLand m id c.dest c.data c.markParts
  | .pdma e _ _ => (if c.mark then s.pdmaErr e 2#32 else s).land c.who c.src .sys c.dest c.data c.markParts
  | .pdmaOld e _ _ => (if c.mark then s.pdmaErr e 2#32 else s).land c.who c.src .sys c.dest c.data c.markParts
  | .unit => s.land c.who c.src .sys c.dest c.data c.markParts
  | .host h => s.hostLoaded h c
  | .loft d f =>
    { s with lofts := s.lofts.set d { s.lofts[d] with
        fills := (s.lofts[d]).fills.map (fun k => if k.num = f then { k with data := some (c.data, c.mark) } else k) } }
  | _ => s

/-- An ACK reaches its issuer (R175, R450). -/
def State.performAck (s : State) (c : Crate) : State :=
  let s := s.dropCrate c.num
  match c.who with
  | .eng e => (if c.timedOut then s.setSt e 2 else s).setHold e .none
  | .moveTok e => if c.timedOut then s.lateSt e 2 else s
  | _ => s

/-- A crate with a payload is held at the port of the die that it enters (R509, R511). -/
def State.heldIn (s : State) (at_ from_ : Fin 7) (n : Nat) : Bool :=
  match inPort at_ from_ with
  | some (b, p) => n != 0 && s.portHeld b p
  | none => false

/-- Whether a crate may cross its next edge now, and the status with which it ends where its crossing is held or stalled (R448, R451, R478, R484). -/
def State.mayCross (s : State) (c : Crate) : Bool :=
  s.edgeUp c.cur (c.route.headD c.cur) && !s.heldIn (c.route.headD c.cur) c.cur c.payload
def State.nextCode (s : State) (c : Crate) : Nat :=
  let x := s.crossCode c.cur (c.route.headD c.cur)
  if x ≠ 0 then x
  else match c.route, c.kind, cdOf (dieOf c.pa) with
    | [_], .wr, some d => s.memCut d
    | [_], .rd, some d => s.memCut d
    | _, _, _ => 0

/-- A compute die accepts a write to its cells only from its hub modules until its microcode has started: a WR that comes from a ring neighbour before
that is not accepted, and stays without an answer (R454, R623). -/
def State.cellGate (s : State) (c : Crate) : Bool :=
  match c.kind, cdOf (dieOf c.pa) with
  | .wr, some d => decide (c.cur.val < 4) && decide (0xF000000000 ≤ c.pa) && decide (c.pa % 0x100000000 < 0x10000000) && !(s.reg (.boot 0) 4).getLsbD (9 + d)
  | _, _ => false

/-- A crate of a kind makes its next step: onward to the next die, or performed at the last. While every module of its edge retrains, or the port that it
enters holds it, it waits. -/
def State.crateStep (s : State) (n : Nat) (k : CrateKind) (perform : State → Crate → State) : State :=
  match s.crateAt n with
  | none => s
  | some c =>
    if c.kind ≠ k ∨ c.route = [] then s
    else if s.nextCode c ≠ 0 then s.endCrate c (s.nextCode c)
    else if !s.mayCross c then s
    else match c.route with
    | [_] =>
      let gate := s.cellGate c
      let (s, c) := s.hop c
      if gate then s.setCrate { c with len := 0, data := [] } else perform s c
    | _ => s.forward c

/-- CRATE_FORWARD of any kind. -/
def State.crateForward (s : State) (n : Nat) : State :=
  match s.crateAt n with
  | none => s
  | some c =>
    match c.route with
    | _ :: _ :: _ => if s.nextCode c ≠ 0 then s.endCrate c (s.nextCode c) else if s.mayCross c then s.forward c else s
    | _ => s

/-- CRATE_ACK_TIMEOUT: the answer has not returned within the limit: the crate is lost, and the score of the module on which its die sent it grows
(R452, R454). -/
def State.crateAckTimeout (s : State) (n : Nat) : State :=
  match s.crateAt n with
  | none => s
  | some c =>
    match c.modl with
    | some m => ((s.loseCrate c).report (.ackTimeout c.src m)).score c.src m 256
    | none => s.loseCrate c

/-! ### Meanings of events -/

/-- SIDEBAND_TRAINED. -/
def execSidebandTrained (d : Fin 7) (m : Fin 10) (s : State) : Out := .next (s.sidebandTrained d m)
/-- CAPABILITY_RECORD. -/
def execCapabilityRecord (d : Fin 7) (m : Fin 10) (w0 w1 : BitVec 32) (s : State) : Out := .next (s.capabilityRecord d m w0 w1)
/-- NEG_FAIL_TIMEOUT. -/
def execNegFailTimeout (d : Fin 7) (m : Fin 10) (s : State) : Out := .next (s.negFailTimeout d m)
/-- MAINBAND_TRAINED. -/
def execMainbandTrained (d : Fin 7) (m : Fin 10) (s : State) : Out := .next (s.mainbandTrained d m)
/-- TRAIN_FAIL. -/
def execTrainFail (d : Fin 7) (m : Fin 10) (s : State) : Out := .next (s.trainFail d m)
/-- FLIT_RECEIVED. -/
def execFlitReceived (d : Fin 7) (m : Fin 10) (crcOk : Bool) (s : State) : Out := .next (s.flitReceived d m crcOk)
/-- RETRAIN_DONE. -/
def execRetrainDone (d : Fin 7) (m : Fin 10) (ok : Bool) (s : State) : Out := .next (s.retrainDone d m ok)
/-- SCORE_DECAY. -/
def execScoreDecay (d : Fin 7) (s : State) : Out := .next (s.scoreDecay d)
/-- MODULE_OUT_MESSAGE. -/
def execModuleOutMessage (d : Fin 7) (m : Fin 10) (s : State) : Out := .next (s.moduleOutMessage d m)
/-- TAKE_OUT. -/
def execTakeOut (d : Fin 7) (m : Fin 10) (s : State) : Out := .next (s.takeOut d m 6)
/-- EDGE_FENCE_TIMEOUT. -/
def execEdgeFenceTimeout (e : Fin 4) (s : State) : Out := .next (s.edgeFenceTimeout e)
/-- FENCE_SET. -/
def execFenceSet (mask : BitVec 4) (s : State) : Out := .next (s.fenceSet mask)
/-- UNFENCE. -/
def execUnfence (mask : BitVec 4) (s : State) : Out := .next (s.unfence mask)
/-- WR_CRATE. -/
def execWrCrate (n : Nat) (s : State) : Out := .next (s.crateStep n .wr State.performWr)
/-- RD_CRATE. -/
def execRdCrate (n : Nat) (s : State) : Out := .next (s.crateStep n .rd State.performRd)
/-- RDATA_CRATE. -/
def execRdataCrate (n : Nat) (s : State) : Out := .next (s.crateStep n .rdata State.performRdata)
/-- TPUT_CRATE. -/
def execTputCrate (n : Nat) (s : State) : Out := .next (s.crateStep n .tput State.performTput)
/-- ACK_CRATE. -/
def execAckCrate (n : Nat) (s : State) : Out := .next (s.crateStep n .ack State.performAck)
/-- CRATE_FORWARD. -/
def execCrateForward (n : Nat) (s : State) : Out := .next (s.crateForward n)
/-- CRATE_ACK_TIMEOUT. -/
def execCrateAckTimeout (n : Nat) (s : State) : Out := .next (s.crateAckTimeout n)

end Sys2Proof.Machine
end

