-- ==== Sys2Proof/Machine/Pdma.lean ====
section
/-! DEFINITION. Peripheral DMA (R492 to R507), the handover queues (R506 to R508) and the windows of the regulators (R510, R511). -/

namespace Sys2Proof.Machine

/-! ### Request lines -/

/-- A request is raised on a line (R493); one that meets a held or stalled crossing is discarded (R478, R484). -/
def State.raiseLine (s : State) (l : Fin 64) (n : Nat) : State :=
  if s.perCut (lineDom l) ≠ 0 then s
  else s.modHub (fun h => { h with raised := h.raised.set l (h.raised[l] + n) })

/-- The channels of both engines. -/
def allChans : List (Fin 2 × Fin 16) := (List.finRange 2).flatMap (fun e => (List.finRange 16).map (fun c => (e, c)))

/-- Whether an armed channel is bound to a line. -/
def State.boundTo (s : State) (e : Fin 2) (c : Fin 16) (l : Fin 64) : Bool :=
  (s.chan e c).st == .armed && (match (s.chan e c).desc with | some d => d.line == l | none => false)

/-- The armed channel bound to a line. -/
def State.lineChan (s : State) (l : Fin 64) : Option (Fin 2 × Fin 16) := allChans.find? (fun p => s.boundTo p.1 p.2 l)

/-- A request that nobody takes is dropped and counted (R494, R515). -/
def State.dropRequest (s : State) (e : Fin 2) : State := (s.count (.pdma e) 8 15 0 1).pdmaErr e 8#32

/-- What becomes of a request for a channel: captured, dropped, or held by its peripheral (R494). -/
inductive Capture where
  | taken | dropped | held
  deriving DecidableEq, Repr

def Chan.capture (k : Chan) : Capture :=
  match k.desc with
  | none => .dropped
  | some d => if k.pend = k.left then .dropped else if k.pend < d.pend then .taken else .held

/-- PDMA_REQUEST: one request raised on a line is captured (R494). -/
def State.pdmaRequest (s : State) (l : Fin 64) : State :=
  if l = 62 then
    let fate := fun (p : Fin 2 × Fin 16) => if s.boundTo p.1 p.2 62 then (s.chan p.1 p.2).capture else Capture.dropped
    match s.hub.soft.find? (fun p => fate p != .held) with
    | none => s
    | some p =>
      let s' := s.modHub (fun h => { h with soft := h.soft.erase p })
      if fate p = .taken then s'.modChan p.1 p.2 (fun k => { k with pend := k.pend + 1 }) else s'.dropRequest p.1
  else if (s.hub.raised[l]) = 0 then s
  else
    let s' := s.modHub (fun h => { h with raised := h.raised.set l (h.raised[l] - 1) })
    match s.lineChan l with
    | none => s'.dropRequest 0
    | some (e, c) =>
      match (s.chan e c).capture with
      | .taken => s'.modChan e c (fun k => { k with pend := k.pend + 1 })
      | .dropped => s'.dropRequest e
      | .held => s

/-- PDMA_KICK: a SOFT request that names its channel (R493, R517). -/
def State.pdmaKick (s : State) (e : Fin 2) (c : Fin 16) : State := s.modHub (fun h => { h with soft := h.soft ++ [(e, c)] })

/-! ### Descriptors -/

/-- The fields of a descriptor (R495). -/
def chDesc (f : Nat → Nat → Nat) : ChDesc :=
  { src := f 0 8 % 2 ^ 40, slen := f 8 4 % 2 ^ 24, scount := f 12 4 % 2 ^ 16, sstr := sgn 32 (f 16 4), dst := f 20 8 % 2 ^ 40,
    dlen := f 28 4 % 2 ^ 24, dcount := f 32 4 % 2 ^ 16, dstr := sgn 32 (f 36 4), line := Fin.ofNat 64 (f 40 4),
    burst := (f 40 4 / 256 % 4 + 1) * 64, pend := f 40 4 / 4096 % 16 + 1, tok := f 40 4 / 65536 % 2 == 1, irq := f 40 4 / 131072 % 2 == 1,
    cq := BitVec.ofNat 15 (f 44 4), tval := BitVec.ofNat 16 (f 44 4 / 65536) }

/-- The reserved bits of a descriptor are 0. -/
def descReserved (f : Nat → Nat → Nat) : Bool :=
  f 0 8 < 2 ^ 40 && f 8 4 < 2 ^ 24 && f 12 4 < 2 ^ 16 && f 20 8 < 2 ^ 40 && f 28 4 < 2 ^ 24 && f 32 4 < 2 ^ 16 &&
    (f 40 4 &&& 0xFFFC0CC0) == 0 && (f 44 4 &&& 0x8000) == 0 && f 48 8 == 0 && f 56 8 == 0

def mul64 (i : Int) : Bool := i % 64 == 0

/-- SHAPE of R496. -/
def ChDesc.shapeOk (d : ChDesc) : Bool :=
  mul64 d.src && mul64 d.slen && mul64 d.sstr && mul64 d.dst && mul64 d.dlen && mul64 d.dstr &&
    d.slen != 0 && d.scount != 0 && d.dlen != 0 && d.dcount != 0 && d.slen * d.scount == d.dlen * d.dcount

/-- The lowest byte of a pattern, and the byte after its highest. -/
def patRange (a len n : Nat) (str : Int) : Int × Int :=
  let last : Int := (a : Int) + ((n : Int) - 1) * str
  (min (a : Int) last, max (a : Int) last + len)

/-- RANGE of R496 for one pattern. -/
def patOk (r : Int × Int) : Bool :=
  decide (0 ≤ r.1) &&
    (let lo := r.1.toNat
     let hi := r.2.toNat - 1
     (dramOk lo && dramOk hi && decide (dramWin lo = dramWin hi)) ||
       ((winOf lo).isSome && decide (winOf lo = winOf hi)) || (inAcoPort lo && inAcoPort hi) ||
       (inParity lo && inParity hi && decide (dieOf lo = dieOf hi)))

def ChDesc.rangeOk (d : ChDesc) : Bool :=
  patOk (patRange d.src d.slen d.scount d.sstr) && patOk (patRange d.dst d.dlen d.dcount d.dstr)

/-- Another armed channel of either engine is bound to the line. -/
def State.lineBusy (s : State) (l : Fin 64) : Bool := l == 63 || (l != 62 && (s.lineChan l).isSome)

/-- The cause for which an arm is refused, 0 for none. -/
def State.armCause (s : State) (f : Nat → Nat → Nat) : Nat :=
  let d := chDesc f
  if !descReserved f || !d.shapeOk then 1 else if !d.rangeOk then 2 else if s.lineBusy d.line then 3 else 0

/-- An arm is captured: the channel takes its place last in the order of service, and its descriptor is to be read (R496, R498). -/
def State.capture (s : State) (e : Fin 2) (c : Fin 16) (job : Bool) : State :=
  s.modDma e (fun k => { order := k.order.filter (· ≠ c) ++ [c], ch := k.ch.set c { k.ch[c] with st := .checking, job := job } })

/-- PDMA_ARM: a write of ARM is captured (R496, R517). -/
def State.pdmaArm (s : State) (e : Fin 2) (c : Fin 16) (job : Bool) : State :=
  let s := s.setFld (.pdma e) (0x108 + 32 * c) 3 3 (bit job)
  match (s.chan e c).st with
  | .idle => s.capture e c job
  | .faulted => s.capture e c job
  | _ => s.orReg (.pdma e) (0x108 + 32 * c) 0x80000000#32

/-- The descriptor address of a channel (R517). -/
def State.descAddr (s : State) (e : Fin 2) (c : Fin 16) : Nat :=
  (s.reg (.pdma e) (0x104 + 32 * c)).toNat % 256 * 2 ^ 32 + (s.reg (.pdma e) (0x100 + 32 * c)).toNat / 64 * 64

/-- The window that a transmit or playback line paces (R493, R684). -/
def roomWin (l : Fin 64) : Option Nat :=
  if 26 ≤ l.val ∧ l.val < 32 then some (40 + (l.val - 26)) else if 36 ≤ l.val ∧ l.val < 40 then some (64 + (l.val - 36)) else none

/-- A channel is bound to a line that asks for data: a request is raised for each 256 bytes of its window that are free already (R493; DESIGN
CHOICE, log entry 116). -/
def State.raiseRoom (s : State) (l : Fin 64) : State :=
  match roomWin l with
  | none => s
  | some w => s.raiseLine l ((Config.windowBytes w - (s.winBytes w).length) / 256 - s.hub.raised[l])

/-- PDMA_ARM_CHECK: the descriptor is read and checked, and the arm accepted or refused (R496). One that does not lie in usable hub DRAM is
refused with RANGE (log entry 42). -/
def State.pdmaArmCheck (s : State) (e : Fin 2) (c : Fin 16) : State :=
  if (s.chan e c).st ≠ .checking then s
  else
    s.unlessHeld 4 (1 + e) fun s =>
    let a := s.descAddr e c
    let ok := dramOk a && decide (dramWin a = some 4)
    let s := if ok then (s.charge 4 (1 + e) 64).touch a 64 else s
    let f := fun o n => s.num (a + o) n
    let cause := if ok then s.armCause f else 2
    if cause ≠ 0 then
      (s.modDma e (fun k => { order := k.order.filter (· ≠ c), ch := k.ch.set c { k.ch[c] with st := .idle, cause := cause } })).pdmaErr e 1#32
    else
      let d := chDesc f
      (s.modChan e c (fun k => { k with
        st := .armed, cause := 0, pend := 0, left := (d.slen * d.scount + d.burst - 1) / d.burst, moved := 0, desc := some d })).raiseRoom d.line

/-! ### Bursts -/

/-- One piece is moved: read where it lies on the hub, requested from another die otherwise (R446, R502). -/
def State.movePiece (s : State) (e : Fin 2) (c : Fin 16) (b : Nat) (p : Nat × Nat × Nat) : State :=
  let (sa, da, n) := p
  let s := s.charge 4 (1 + e) n
  if dieOf sa = 4 then
    match winOf sa with
    | some w => let (l, s) := s.winTake w n; s.land (.pdma e c b) 4 .sys da l []
    | none =>
      let s := s.touch sa n
      let parts := s.markedParts sa n
      (if parts.isEmpty then s else s.pdmaErr e 2#32).land (.pdma e c b) 4 .sys da (s.ownBytes (.pdma e c) sa n) parts
  else s.sendRd (.pdma e c b) 4 sa da n (n + 1)

/-- The status with which a piece ends at a peripheral whose crossing is held or stalled. -/
def State.pieceCut (s : State) (p : Nat × Nat × Nat) : Nat :=
  let at_ := fun (a : Nat) => match winOf a with | some w => s.perCut (winDom w) | none => if inAcoPort a then s.perCut (some 11) else 0
  if at_ p.1 ≠ 0 then at_ p.1 else at_ p.2.1

/-- PDMA_BURST: the earliest armed channel with a request pending starts its next burst, unless the engine's port is held (R497, R498, R511). -/
def State.pdmaBurst (s : State) (e : Fin 2) : State :=
  match (s.hub.dma[e]).order.find? (fun c => decide (0 < (s.chan e c).pend ∧ 0 < (s.chan e c).left)) with
  | none => s
  | some c =>
    let k := s.chan e c
    match k.desc with
    | none => s
    | some d =>
      s.unlessHeld 4 (1 + e) fun s =>
      match ((d.burstAt k.moved).map s.pieceCut).find? (· ≠ 0) with
      | some code => s.pdmaBreak e c code (some k.moved)
      | none =>
      (d.burstAt k.moved).foldl (fun s p => s.movePiece e c k.moved p)
        (s.modChan e c (fun k => { k with pend := k.pend - 1, left := k.left - 1, moved := k.moved + 1 }))

/-! ### Ends -/

/-- Every byte of a channel's bursts is acknowledged, and no burst is left (R501). -/
def State.chanDone (s : State) (e : Fin 2) (c : Fin 16) : Bool :=
  let k := s.chan e c
  k.st == .armed && k.left == 0 && (s.burstsOut e c).isEmpty && !s.portOwes 4 (1 + e)

/-- A channel completes DONE, with ABORT_LATE where an abort fell into the same cycle; its token is put (R501, R504). What it moved is there for every
acquire at SYS scope; to a read behind a narrower one it may still be stale (R212, R501). -/
def State.chanEnds (s : State) (e : Fin 2) (c : Fin 16) (late : Bool) : State :=
  match (s.chan e c).desc with
  | none => s
  | some d =>
    let s := s.pdmaLeave e c (fun k => { k with st := .idle, cause := 0, late := late, code := 0 })
    if d.tok then (s.charge 4 (1 + e) 4).putToken .unit .unit 4 .sys d.cq (d.tval.setWidth 32) else s

/-- PDMA_CHANNEL_COMPLETE (R501). -/
def State.pdmaChannelComplete (s : State) (e : Fin 2) (c : Fin 16) : State := if s.chanDone e c then s.chanEnds e c false else s

/-- PDMA_ABORT: an abort is captured; a completion of the same cycle wins (R503, R504). -/
def State.pdmaAbort (s : State) (e : Fin 2) (c : Fin 16) (withCompletion : Bool) : State :=
  if (s.chan e c).st ≠ .armed then s
  else if withCompletion && s.chanDone e c then s.chanEnds e c true
  else
    (s.disown e c).pdmaLeave e c (fun k => { k with st := .idle, cause := 0, late := false, code := 1 })

/-- The stop of a job aborts every channel armed for it; a channel may complete in the FAB cycle of the stop (R504, R505). -/
def State.pdmaJobStop (s : State) : State :=
  allChans.foldl (fun s p =>
    if (s.chan p.1 p.2).job then let (tie, s) := s.drawBool; s.pdmaAbort p.1 p.2 tie else s) s

/-! ### Handover queues -/

def State.modHo (s : State) (d : Fin 4) (f : Handover → Handover) : State := s.modHub (fun h => { h with ho := h.ho.set d (f h.ho[d]) })

/-- A KICK entry adds a request to an armed SOFT channel, or is dropped and counted (R506). -/
def State.kickEntry (s : State) (v : W32) : State :=
  let e : Fin 2 := Fin.ofNat 2 (bits v 4 4)
  let c : Fin 16 := Fin.ofNat 16 (bits v 3 0)
  if bits v 31 24 = 0 ∧ bits v 19 5 = 0 ∧ s.boundTo e c 62 then s.pdmaKick e c else s.count (.pdma 0) 0xC 15 0 1

/-- HANDOVER_ENTRY: the hub's port takes the oldest entry of a die's handover queue, over the die's edge to the hub (R17, R506, R508). -/
def State.handoverEntry (s : State) (d : Fin 4) : State :=
  match s.hoQueue d with
  | none => s
  | some q =>
    let h := s.hub.ho[d]
    match (s.queueAt q).get? (s.queueNow q) with
    | none => s
    | some (v, k) =>
      if 64 ≤ h.fifo.length || !s.edgeUp (d.castLE (by omega)) 4 || s.crossCode (d.castLE (by omega)) 4 != 0 then s
      else
        let s := s.setQueueAt q k
        let op := bits v 23 20
        if !h.pair && op == 3 then s.kickEntry v
        else
          let s := s.modHo d (fun h => { h with fifo := h.fifo ++ [v], pair := !h.pair && (op == 1 || op == 2) })
          if h.fifo.isEmpty then s.raiseHub .handover else s

/-- HO_POP: firmware takes the oldest entry (R508, R516). -/
def State.hoPop (s : State) (d : Fin 4) : State :=
  s.modHo d (fun h => match h.fifo with | [] => { h with valid := false } | v :: r => { h with fifo := r, data := v, valid := true })

/-! ### Regulators -/

/-- REG_WINDOW: a port's window ends: the written window and budget take effect, and requests held are granted as far as the budget goes (R510,
R511). -/
def State.regWindow (s : State) (b : Fin 5) (p : Fin 22) : State :=
  if b.val = 4 ∧ 14 ≤ p.val then s
  else
    let k := s.regPort b p
    (s.setRegPort b p { k with count := 0, cfg := s.reg (.reg b) (0x100 + 8 * p), budget := s.reg (.reg b) (0x104 + 8 * p) }).grantAt b p []

/-- R511: the blocks whose die takes part in a job leave or enter LOWER with it. -/
def State.setHoldMode (s : State) (on : Bool) : State := { s with regHold := Vector.replicate 5 on }.grantLower

/-! ### Meanings -/

def execPdmaArm (e : Fin 2) (ch : Fin 16) (job : Bool) (s : State) : Out := .next (s.pdmaArm e ch job)
def execPdmaArmCheck (e : Fin 2) (ch : Fin 16) (s : State) : Out := .next (s.pdmaArmCheck e ch)
def execPdmaAbort (e : Fin 2) (ch : Fin 16) (w : Bool) (s : State) : Out := .next (s.pdmaAbort e ch w)
def execPdmaKick (e : Fin 2) (ch : Fin 16) (s : State) : Out := .next (s.pdmaKick e ch)
def execPdmaRequest (line : Fin 64) (s : State) : Out := .next (s.pdmaRequest line)
def execPdmaBurst (e : Fin 2) (s : State) : Out := .next (s.pdmaBurst e)
def execPdmaChannelComplete (e : Fin 2) (ch : Fin 16) (s : State) : Out := .next (s.pdmaChannelComplete e ch)
def execHandoverEntry (d : Fin 4) (s : State) : Out := .next (s.handoverEntry d)
def execHoPop (d : Fin 4) (s : State) : Out := .next (s.hoPop d)
def execRegWindow (blk : Fin 5) (port : Fin 22) (s : State) : Out := .next (s.onDie5 blk fun s => s.regWindow blk port)

end Sys2Proof.Machine
end

