-- ==== Sys2Proof/Machine/Time.lean ====
section
/-! DEFINITION. The time base (R305 to R315), sensor ingest (R317 to R323) and the hub's ports (R538, R684 to R689). -/

namespace Sys2Proof.Machine

/-! ### The time base -/

def State.modTb (s : State) (f : TimeBase → TimeBase) : State := s.modHub (fun h => { h with tb := f h.tb })
def State.modIng (s : State) (f : Ingest → Ingest) : State := s.modHub (fun h => { h with ing := f h.ing })
def State.now (s : State) : Nat := s.hub.tb.now.toNat
def State.tbr (s : State) (o : Nat) : Nat := (s.reg .tbase o).toNat

def State.anchor (s : State) : Nat := s.tbr 0x2C * 2 ^ 32 + s.tbr 0x28
def State.instPeriod (s : State) : Nat := s.tbr 0x30

/-- NOW and the fraction after one TBS cycle, with an adjustment of -1, 0 or 1 ns (R305, R307). -/
def TimeBase.advance (t : TimeBase) (rate : W32) (adj : Int) : TimeBase :=
  let sum : Int := (10 + adj) * 2 ^ 32 + rate.toInt + t.frac.toNat
  { t with now := t.now + BitVec.ofInt 64 (sum / 2 ^ 32), frac := BitVec.ofInt 32 (sum % 2 ^ 32), up := t.up + 1 }

/-- The sign of the offset that is left, and the offset after one nanosecond of it. -/
def adjSign (v : W32) : Int := if v = 0 then 0 else if v.toInt < 0 then -1 else 1
def adjLess (v : W32) : W32 := BitVec.ofInt 32 (v.toInt - adjSign v)

/-- A TBS cycle of the time base; the 200th since the last one absorbs a nanosecond of ADJ (R307). -/
def State.tbTick (s : State) : State :=
  s.modTb (fun t =>
    let due := t.adjLeft ≠ 0 ∧ 200 ≤ t.adjCnt + 1
    let t' := t.advance (s.reg .tbase 0x10) (if due then adjSign t.adjLeft else 0)
    { t' with adjCnt := if due ∨ t.adjLeft = 0 then 0 else t.adjCnt + 1, adjLeft := if due then adjLess t.adjLeft else t.adjLeft })

/-- ADJ_STEP: a TBS cycle that absorbs one nanosecond of ADJ (R307). -/
def State.adjStep (s : State) : State :=
  s.modTb (fun t =>
    if t.adjLeft = 0 then t
    else { (t.advance (s.reg .tbase 0x10) (adjSign t.adjLeft)) with adjCnt := 0, adjLeft := adjLess t.adjLeft })

/-- An output has EN = 1, in force or committed. -/
def Fsync.runs (f : Fsync) : Bool := f.cur.en || (match f.pend with | some c => c.en | none => false)

/-- TIME_SET: SET loads NOW, or is refused (R306). -/
def State.timeSet (s : State) (v : W64) : State :=
  if s.hub.tb.fs.any (fun f => f.runs) ∨ v.toNat < s.now then s.orReg .tbase 0x20 1#32 else s.modTb (fun t => { t with now := v })

/-- TIME_ADJ: a write of ADJ replaces any remainder (R306). -/
def State.timeAdj (s : State) (v : W32) : State := s.modTb (fun t => { t with adjLeft := v })

/-! ### FSYNC -/

/-- The written fields of an output (R310, R686). -/
def State.fsWritten (s : State) (n : Fin 16) : FsCfg :=
  let o : Nat := 0x100 + 16 * n.val
  { en := (s.reg .tbase o).getLsbD 0, pol := (s.reg .tbase o).getLsbD 1, period := s.tbr (o + 4), phase := s.tbr (o + 8), width := s.tbr (o + 12) }

/-- The ranges of R310, which bind an output with EN = 1. -/
def FsCfg.ok (c : FsCfg) : Bool :=
  !c.en || decide (100000 ≤ c.period ∧ c.period ≤ 1000000000 ∧ c.phase < c.period ∧ 10 ≤ c.width ∧ c.width + 10 ≤ c.period)

/-- The first edge due after an instant (R311). -/
def FsCfg.after (c : FsCfg) (anchor now : Nat) : Nat :=
  let t0 := anchor + c.phase
  if now < t0 ∨ c.period = 0 then t0 else t0 + ((now - t0) / c.period + 1) * c.period

/-- The instant from which a commit at `at_` of the values `c` rules an output (R311, R312; log entry 120): the first edge of the new values due
after it, or, where they have EN = 0, the first edge of the old values due after it. -/
def Fsync.takeover (f : Fsync) (c : FsCfg) (anchor : Nat) : Nat := if c.en then c.after anchor f.at_ else f.cur.after anchor f.at_

/-- An edge, or the takeover of committed values, is due. -/
def Fsync.due (f : Fsync) (now : Nat) : Bool := (f.cur.en || f.pend.isSome) && decide (f.next ≤ now)
/-- What is due is the takeover: an edge due by the cycle of the commit still uses the old values (R312). -/
def Fsync.taking (f : Fsync) : Option FsCfg := if f.at_ < f.next then f.pend else none

/-- A commit of the values `c` (R312): they wait for their takeover, behind an edge that is due already; an output that is off and stays off takes
them at once. -/
def Fsync.commit (f : Fsync) (c : FsCfg) (anchor now : Nat) : Fsync :=
  let due := f.due now
  let cur := if due then f.taking.getD f.cur else f.cur
  let f := { f with cur := cur, pend := some c, at_ := now, active := f.active && cur.en }
  if due && cur.en then f
  else if !c.en && !cur.en then { f with cur := c, pend := none }
  else { f with next := f.takeover c anchor }

/-- FSYNC_COMMIT: the written values of all outputs together (R312). -/
def State.fsyncCommit (s : State) : State :=
  if !(List.finRange 16).all (fun n => (s.fsWritten n).ok) then s.orReg .tbase 0x20 1#32
  else s.modTb (fun t => { t with fs := Vector.ofFn (fun n => (t.fs[n]).commit (s.fsWritten n) s.anchor s.now) })

/-- The largest k whose cutoff(k) has come (R314). -/
def State.cutDue (s : State) : Option Nat :=
  let base := s.anchor + s.tbr 0x34
  if s.instPeriod = 0 ∨ s.now < base then none else some ((s.now - base) / s.instPeriod)

/-- Cutoffs that have come when the instant grid is written anew are not signalled again or after the fact (log entry 121). -/
def State.cutRegrid (s : State) : State := s.modTb (fun t => { t with lastCut := s.cutDue })

/-- A write of ANCHOR moves the grid of every output: its next edge is the first one due after the write. -/
def State.fsyncRegrid (s : State) : State :=
  (s.modTb (fun t => { t with fs := t.fs.map (fun f =>
    let f := { f with at_ := s.now }
    { f with next := match f.pend with | some c => f.takeover c s.anchor | none => f.cur.after s.anchor s.now }) })).cutRegrid

/-- An edge of the values in force, at its due time (R311). -/
def Fsync.edge (f : Fsync) : Fsync :=
  { f with active := true, endAt := f.next + f.cur.width, lastDue := some f.next, used := false, next := f.next + f.cur.period }

/-- What is due happens: an edge, with whether it raises a request; the takeover is the first edge of the new values, or none where they have
EN = 0 (R311, R312). -/
def Fsync.fire (f : Fsync) (anchor : Nat) : Fsync × Bool :=
  match f.taking with
  | some c =>
    let g := { f with cur := c, pend := none }
    if c.en then (g.edge, true) else ({ g with active := false }, false)
  | none =>
    let g := f.edge
    ({ g with next := match f.pend with | some c => if g.next ≤ f.at_ then g.next else f.takeover c anchor | none => g.next }, true)

/-- FSYNC_EDGE: a due edge makes the output active and raises its request (R311, R493). -/
def State.fsyncEdge (s : State) (n : Fin 16) : State :=
  let f := s.hub.tb.fs[n]
  if f.due s.now then
    let (g, edge) := f.fire s.anchor
    let s := s.modTb (fun t => { t with fs := t.fs.set n g })
    if edge then s.raiseLine (Fin.ofNat 64 (42 + n)) 1 else s
  else s

/-- FSYNC_END: the output becomes inactive after WIDTH (R311). -/
def State.fsyncEnd (s : State) (n : Fin 16) : State :=
  let f := s.hub.tb.fs[n]
  if f.active ∧ f.endAt ≤ s.now then s.modTb (fun t => { t with fs := t.fs.set n { f with active := false } }) else s

/-- PPS_EDGE: NOW is stamped (R309). -/
def State.ppsEdge (s : State) (i : Fin 2) : State := s.modTb (fun t => { t with pps := t.pps.set i t.now })

/-! ### Instants -/

/-- CUTOFF: the next cutoff that has come is signalled to ingest (R315). -/
def State.cutoff (s : State) : State :=
  match s.cutDue with
  | none => s
  | some m =>
    let k := match s.hub.tb.lastCut with | some l => l + 1 | none => 0
    if m < k then s else s.modTb (fun t => { t with lastCut := some k, cuts := t.cuts ++ [k] })

/-- EPOCH_CAPTURE: ingest captures a cutoff and owes the instant's close entry to the running job (R315, R323). -/
def State.epochCapture (s : State) : State :=
  match s.hub.tb.cuts with
  | [] => s
  | k :: r =>
    let wr := (s.reg .ingest 0x420).toNat
    (s.modTb (fun t => { t with cuts := r })).modIng (fun g =>
      { g with was := g.epoch, epoch := k + 1, closes := if s.jobRuns then g.closes ++ [(k, wr)] else g.closes })

/-- The instant of a timestamp (R314). -/
def State.instantOf (s : State) (ts : Nat) : Int :=
  let p : Int := s.instPeriod
  if p = 0 then 0 else (2 * ((ts : Int) - s.anchor) + p) / (2 * p)

/-! ### Ready bits and channels -/

/-- A bit of BOOT_FUNC_READY (R611). -/
def State.ready (s : State) (n : Nat) : Bool := (s.reg (.boot 0) 4).getLsbD n

/-- A channel is armed on a line. -/
def State.lineArmed (s : State) (l : Nat) : Bool := (s.lineChan (Fin.ofNat 64 l)).isSome

/-! ### Sensor ingest -/

/-- The request line of a camera or lidar port (R493). -/
def portLine (p : Nat) : Nat := if p < 12 then p else p - 4

/-- Data of a frame enter its window in units of 256 bytes, each that is buffered with its request (R493, R684, R685);
what meets a held or stalled crossing is discarded (R478, R484). -/
def State.feedWin (s : State) (w l : Nat) (units : Nat) (data : List Byte) : State :=
  if s.perCut (winDom w) ≠ 0 then s else
  (List.range units).foldl (fun s i =>
    match s.winPush w ((data.drop (256 * i)).take 256) with
    | (s, true) => s.raiseLine (Fin.ofNat 64 l) 1
    | (s, false) => s) s

/-- Bytes of an open frame of a port: whole groups of 256 go to the window, the rest waits. -/
def State.frameBytes (s : State) (p : Nat) (f : Frame) (l : List Byte) : Frame × State :=
  let all := f.rest ++ l
  let n := all.length / 256
  let had := (s.winBytes p).length
  let s := s.feedWin p (portLine p) n all
  let more := (s.winBytes p).length - had
  ({ f with rest := all.drop (256 * n), len := f.len + l.length, sent := if more = 256 * n then f.sent.map (· + more) else none },
    s.modIng (fun g => { g with done := g.done.map (fun x => if x.port.val = p then { x with after := x.after + more } else x) }))

def State.openFrame (s : State) (p : Nat) : Option Frame := s.hub.ing.open_.find? (fun f => f.port.val == p)
def State.setFrame (s : State) (f : Frame) : State :=
  s.modIng (fun g => { g with open_ := g.open_.map (fun x => if x.port = f.port then f else x) })

/-- A frame is opened: its record header, whose length is known at the end of the frame, and its end-to-end header (R319, R536, R685; log entry 43). -/
def State.frameOpen (s : State) (p : Fin 24) (ts : BitVec 64) (flags : Nat) (sweep : W32) : State :=
  let ctr := s.hub.ing.counters[p]
  let id := bits (s.reg .ingest (0x20 * p)) 31 16
  let hdr := e2eHeader ctr.toNat ts.toNat id 0
  let len := (Config.freeVal 32 s.free).toNat
  let s := { s with free := s.free + 1 }
  let s := s.modIng (fun g => { g with counters := g.counters.set p (ctr + 1) })
  let f : Frame := { port := p, ts := ts, flags := flags, counter := ctr, k := s.instantOf ts.toNat, edone := 0, late := 0, after := 0, nowLow := 0,
                     crc := crcRun crcInit hdr, rest := toLe 32 len ++ hdr, sweep := sweep,
                     len := hdr.length, sent := some 0, err := false }
  s.modIng (fun g => { g with open_ := g.open_ ++ [f] })

/-- Data of an open frame. -/
def State.frameData (s : State) (p : Nat) (l : List Byte) : State :=
  match s.openFrame p with
  | none => s
  | some f => let (f, s) := s.frameBytes p { f with crc := crcRun f.crc l } l; s.setFrame f

/-- The payload length enters the record header of a frame that stands whole in its window (R536, R685; log entry 43). -/
def State.frameLength (s : State) (f : Frame) (n : Nat) : State :=
  let q := s.winBytes f.port
  match f.sent with
  | none => s
  | some k => if q.length < k then s else s.setWin f.port (q.take (q.length - k) ++ toLe 4 n ++ q.drop (q.length - k + 4))

/-- FRAME_COMPLETE: the last byte of a frame, which takes the old epoch when it comes in the cycle that captures a cutoff; the trailer and the padding
follow, and its lateness is judged (R315, R316, R321, R536). -/
def State.frameComplete (s : State) (p : Fin 24) (truncated pktErr withCutoff : Bool) : State :=
  match s.openFrame p with
  | none => s
  | some f =>
    let e := if withCutoff then s.hub.ing.was else s.hub.ing.epoch
    let j := ((e : Int) - f.k).toNat
    let tail := toLe 4 (~~~f.crc).toNat
    let n := f.len + 4
    let (f, s) := s.frameBytes p f (tail ++ List.replicate ((256 - (f.rest.length + 4) % 256) % 256) 0)
    let s := s.frameLength f n
    let f := { f with edone := e, late := j, nowLow := BitVec.ofNat 32 s.now,
                      flags := f.flags + (if truncated then 2 else 0) + (if pktErr || f.err then 4 else 0) + (if 1 ≤ j ∧ j ≤ 3 then 16 else 0) + (if 4 ≤ j then 32 else 0) }
    s.modIng (fun g => { g with open_ := g.open_.filter (fun x => x.port ≠ p), done := g.done ++ [f] })

/-- A frame or sweep discarded at its port before its function is ready (R617, R638). -/
def State.earlyDrop (s : State) (lidar : Bool) : State := s.count (.boot 0) 0x14 (if lidar then 31 else 15) (if lidar then 16 else 0) 1

/-- A camera port supports virtual channel 0, the data types of R675 and frames of its size; it does not receive anything else (log entry 43). -/
def camOk (f : CamFormat) : Bool :=
  f.vc == 0 && f.typ != .other && decide (f.width ≤ 4096 ∧ f.height ≤ 4096 ∧ f.width * f.height ≤ 8388608)

/-- FRAME_START: a frame is stamped with its trigger edge, or flagged UNTRIGGERED, or discarded (R318, R617). -/
def State.frameStart (s : State) (p : Fin 12) (fmt : CamFormat) : State :=
  let q : Fin 24 := p.castLE (by omega)
  if !camOk fmt then s else
  let s := if (s.openFrame p).isSome then s.frameComplete q true false false else s
  if !s.ready 14 || !s.lineArmed p then s.earlyDrop false
  else if !(s.reg .ingest (0x20 * p)).getLsbD 0 then s
  else
    let n : Fin 16 := Fin.ofNat 16 (bits (s.reg .ingest (0x20 * p)) 7 4)
    let expo := (s.reg .ingest (0x20 * p + 4)).toInt
    let win := (s.reg .ingest (0x20 * p + 8)).toNat
    let f := s.hub.tb.fs[n]
    match f.lastDue with
    | some t =>
      if !f.used && decide (t ≤ s.now ∧ s.now - t ≤ win) then
        (s.modTb (fun b => { b with fs := b.fs.set n { f with used := true } })).frameOpen q (BitVec.ofInt 64 (t + expo)) 0 0
      else s.frameOpen q (BitVec.ofInt 64 (s.now + expo)) 1 0
    | none => s.frameOpen q (BitVec.ofInt 64 (s.now + expo)) 1 0

/-- The receive timestamp of a MAC (R688). -/
def State.rxStamp (s : State) (m : Fin 6) : W64 := s.hub.tb.now - BitVec.ofNat 64 (s.reg (.mac m) 0x10).toNat

/-- A sweep is discarded whole before its function is ready, and counted once (R617, R638). -/
def State.sweepDrop (s : State) (port : Fin 8) (sweep : W32) : State :=
  if s.hub.ing.lidDrop.contains (port.val, sweep) then s
  else (s.earlyDrop true).modIng (fun g => { g with lidDrop := (port.val, sweep) :: g.lidDrop.filter (fun x => x.1 ≠ port.val) })

/-- LIDAR_PACKET: a packet of a sweep is taken into its frame; LAST, or a change of the sweep number, ends the sweep. Before ETH, with its MAC off, or
before its channel is armed, the sweep is discarded (R320, R321, R617, R688). -/
def State.lidarPacket (s : State) (m : Fin 6) (port : Fin 8) (time : W64) (sweep : W32) (last : Bool) (data : List Byte) (err : Bool) : State :=
  let p : Fin 24 := Fin.ofNat 24 (16 + port)
  let ctl := s.reg (.mac m) 0
  if !s.ready 15 || !ctl.getLsbD 0 then s.sweepDrop port sweep
  else if !(ctl.getLsbD 4 && decide (bits (s.reg .ingest (0x20 * p + 12)) 2 0 = m)) then s
  else
    let s := match s.openFrame p with
      | some f => if f.sweep = sweep then s else s.frameComplete p false false false
      | none => s
    let s := if (s.openFrame p).isSome then s
      else if !s.lineArmed (portLine p) then s.sweepDrop port sweep
      else if s.hub.ing.lidDrop.contains (port.val, sweep) || !(s.reg .ingest (0x20 * p)).getLsbD 0 then s
      else
        let r := (s.rxStamp m).toNat
        let d := if r < time.toNat then time.toNat - r else r - time.toNat
        s.frameOpen p time (if (s.reg .ingest 0x400).toNat < d then 8 else 0) sweep
    let s := s.frameData p data
    let s := match s.openFrame p with | some f => if err then s.setFrame { f with err := true } else s | none => s
    if last && (s.openFrame p).isSome then s.frameComplete p false false false else s

/-- The PDMA has completed every burst of a frame: nothing of it is left in its window, nor on its way (R322). -/
def State.frameMoved (s : State) (f : Frame) : Bool :=
  let line := Fin.ofNat 64 (portLine f.port)
  decide ((s.winBytes f.port).length ≤ f.after) &&
    !s.stores.any (fun k => match k.who with | .pdma e ch => !k.done && s.boundTo e ch line | _ => false) &&
    !(List.finRange 2).any (fun e => s.portOwes 4 (1 + e) && (List.finRange 16).any (fun ch => s.boundTo e ch line)) &&
    !s.crates.any (fun c => match c.who with
      | .pdma e ch _ => s.boundTo e ch line
      | .pdmaOld _ _ l => l == line
      | _ => false)

/-- The 32 bytes of a descriptor (R322); the frame buffer number is left open (log entry 43). -/
def Frame.descriptor (f : Frame) (id buf : Nat) : List Byte :=
  toLe 4 (id + f.port * 65536 + f.flags % 64 * 2 ^ 24) ++ toLe 4 f.counter.toNat ++ toLe 8 f.ts.toNat ++ toLe 4 (f.k % 2 ^ 32).toNat ++
    toLe 4 f.edone ++ toLe 4 (buf + min f.late 255 * 65536) ++ toLe 4 f.nowLow.toNat

/-- The address of the descriptor ring (R687). -/
def State.ringBase (s : State) : Nat := (s.reg .ingest 0x414).toNat * 2 ^ 32 + (s.reg .ingest 0x410).toNat

/-- DESCRIPTOR_WRITE: the oldest completed frame whose bursts have completed enters the ring (R322). -/
def State.descriptorWrite (s : State) : State :=
  match s.hub.ing.done with
  | [] => s
  | f :: r =>
    if !s.frameMoved f || s.perCut (some 10) != 0 then s
    else
      s.unlessHeld 4 3 fun s =>
      let wr := s.reg .ingest 0x420
      let n := bits (s.reg .ingest 0x418) 15 0
      let id := bits (s.reg .ingest (0x20 * f.port)) 31 16
      let s := (s.charge 4 3 32).unitStore (s.ringBase + 32 * (if n = 0 then 0 else wr.toNat % n)) (f.descriptor id (Config.freeVal 16 s.free).toNat)
      let s := { s with free := s.free + 1 }
      (s.setReg .ingest 0x420 (wr + 1)).modIng (fun g =>
        { g with done := r, closes := g.closes.map (fun c => if f.edone ≤ c.1 then (c.1, (wr + 1).toNat) else c) })

/-- CLOSE_ENTRY_PUT: the oldest owed close entry is put once every descriptor that it covers is written (R323). -/
def State.closeEntryPut (s : State) : State :=
  match s.hub.ing.closes with
  | [] => s
  | (k, idx) :: r =>
    if s.hub.ing.done.any (fun f => decide (f.edone ≤ k)) || s.perCut (some 10) != 0 then s
    else s.unlessHeld 4 3 fun s => ((s.modIng (fun g => { g with closes := r })).charge 4 3 4).putToken .unit .unit 4 .sys
      (BitVec.ofNat 15 (s.reg .ingest 0x41C).toNat) (BitVec.ofNat 32 idx)

/-! ### IMUs -/

/-- The last point of the 1 ms grid (R313). -/
def State.msGrid (s : State) : Option Nat := if s.now < s.anchor then none else some (s.anchor + (s.now - s.anchor) / 1000000 * 1000000)

/-- IMU_READ_START: a read starts at a point of the grid, on an enabled port whose channel is armed (R313, R617). -/
def State.imuReadStart (s : State) (k : Fin 4) : State :=
  if (s.reg .spi (0x100 * k)).getLsbD 0 && s.lineArmed (58 + k) && (s.hub.ing.imu[k]).isNone then
    s.modIng (fun g => { g with imu := g.imu.set k s.msGrid })
  else s

/-- A unit of a window: its record header and payload, padded (R685). -/
def winUnit (w0 ts w16 : Nat) (payload : List Byte) : List Byte := pad256 (toLe 8 w0 ++ toLe 8 ts ++ toLe 16 w16 ++ payload)

/-- IMU_SAMPLE_READY: the sample enters the SPI window (R493, R685). -/
def State.imuSampleReady (s : State) (k : Fin 4) (data : List Byte) : State :=
  match s.hub.ing.imu[k] with
  | none => s
  | some t =>
    let s := s.modIng (fun g => { g with imu := g.imu.set k none })
    s.feedWin (56 + k) (58 + k) 1 (winUnit 64 t 0 (data.take 64))

/-! ### Ethernet, CAN, windows and PCIe -/

/-- The UDP destination port and payload of an Ethernet frame that carries IPv4, with or without one 802.1Q tag (log entry 44). -/
def udpOf (l : List Byte) : Option (Nat × List Byte) :=
  let be := fun o => (l.getD o 0).toNat * 256 + (l.getD (o + 1) 0).toNat
  let o := if be 12 = 0x8100 then 16 else 12
  let ip := o + 2
  if be o = 0x0800 ∧ (l.getD ip 0).toNat / 16 = 4 ∧ (l.getD (ip + 9) 0).toNat = 17 then
    let u := ip + (l.getD ip 0).toNat % 16 * 4
    some (be (u + 2), (l.drop (u + 8)).take (be (u + 4) - 8))
  else none

/-- The lidar port that a frame of a MAC belongs to, with its UDP payload (R688). -/
def State.sensorPort (s : State) (m : Fin 6) (l : List Byte) : Option (Fin 8 × List Byte) :=
  if !(s.reg (.mac m) 0).getLsbD 4 then none
  else match udpOf l with
  | none => none
  | some (port, pl) =>
    match (List.finRange 8).find? (fun (q : Fin 8) =>
        let v := s.reg .ingest (0x20 * (16 + q.val) + 12)
        decide (bits v 2 0 = m) && decide (bits v 31 16 = port)) with
    | some q => some (q, pl)
    | none => none

/-- A received frame is dropped in the MAC and counted by its statistics (R617). -/
def State.macDropped (s : State) (m : Fin 6) : State := s.modHub (fun h => { h with macDrop := h.macDrop.set m (h.macDrop[m] + 1) })

/-- ETH_RX_FRAME: a frame is stamped and goes to the MAC's window, or as a lidar packet to its port, whose window takes every SENSOR frame; before ETH and
the arming of the channel it is dropped and counted, and so is one of more than 9,216 bytes (R617, R675, R685, R688). -/
def State.ethRxFrame (s : State) (m : Fin 6) (data : List Byte) (crcErr : Bool) : State :=
  if 9216 < data.length then s.macDropped m
  else match s.sensorPort m data with
  | some (q, pl) =>
    s.lidarPacket m q (BitVec.ofNat 64 (leNat (pl.take 8))) (BitVec.ofNat 32 (leNat ((pl.drop 8).take 4))) (((pl.getD 12 0)).getLsbD 0) (pl.drop 16) crcErr
  | none =>
    if !s.ready 15 || !(s.reg (.mac m) 0).getLsbD 0 || !s.lineArmed (20 + m) then s.macDropped m
    else
      let u := winUnit (data.length % 2 ^ 14 + (if crcErr then 65536 else 0)) (s.rxStamp m).toNat 0 data
      s.feedWin (32 + m) (20 + m) (u.length / 256) u

/-- CAN_RX_FRAME: a frame enters its window with NOW (R313, R617, R685). -/
def State.canRxFrame (s : State) (i : Fin 4) (kind : Fin 3) (ext : Bool) (ident : BitVec 29) (data : List Byte) : State :=
  if !s.ready 18 || !(s.reg (.can i) 0).getLsbD 0 then s
  else
    let u := winUnit (data.length % 2 ^ 12 + kind * 4096 + (if ext then 16384 else 0)) s.now ident.toNat data
    (s.winPush (48 + i) u).1

/-- The whole units in a transmit window of a MAC, oldest first: queue, place and 256-byte slots of each (R685). -/
def txUnits (q : List Byte) : Nat → Nat → List (Nat × Nat × Nat)
  | 0, _ => []
  | fuel + 1, off =>
    let h := leNat ((q.drop off).take 4)
    let n := (32 + h % 2 ^ 14 + 255) / 256
    if q.length < off + 256 * n then [] else (h / 2 ^ 17 % 8, off, n) :: txUnits q fuel (off + 256 * n)

/-- The gate states at a time in the cycle of a list of states and intervals. -/
def gateAt : List (Nat × Nat) → Nat → Nat
  | [], _ => 0xFF
  | (g, n) :: r, t => if t < n then g else gateAt r (t - n)

/-- The gates of a MAC's eight queues: its list cycles from ANCHOR; with no interval in it, and before ANCHOR, all are open (R675, R688; log entry 44). -/
def State.gates (s : State) (m : Fin 6) : Nat :=
  let l := (List.range 64).map (fun e => (bits (s.reg (.mac m) (0x100 + 8 * e)) 7 0, (s.reg (.mac m) (0x104 + 8 * e)).toNat))
  let total := (l.map (·.2)).foldl (· + ·) 0
  if total = 0 ∨ s.now < s.anchor then 0xFF else gateAt l ((s.now - s.anchor) % total)

/-- The units that a MAC may send: the oldest of each queue whose gate is open. -/
def State.txReady (s : State) (m : Fin 6) : List (Nat × Nat × Nat) :=
  let q := s.winBytes (40 + m)
  let l := txUnits q (q.length / 256) 0
  (List.range 8).filterMap (fun k => if (s.gates m).testBit k then l.find? (fun x => x.1 == k) else none)

/-- ETH_TX_FRAME: the oldest frame of a queue whose gate is open is sent and stamped, and its ring slots are free again; between queues the choice is
free (log entry 44), and a frame of more than 9,216 bytes is not sent (R493, R675, R685, R688). -/
def State.ethTxFrame (s : State) (m : Fin 6) : State :=
  let q := s.winBytes (40 + m)
  let l := s.txReady m
  if !s.ready 15 || !(s.reg (.mac m) 0).getLsbD 0 then s
  else match l[(if l.length ≤ 1 then 0 else Config.freeNat s.free % l.length)]? with
  | none => s
  | some (_, off, n) =>
    let s := if l.length ≤ 1 then s else { s with free := s.free + 1 }
    let h := leNat ((q.drop off).take 4)
    let len := h % 2 ^ 14
    let s := s.setWin (40 + m) (q.take off ++ q.drop (off + 256 * n))
    let s := if 9216 < len then s
      else
        let s := s.emit (.eth m ((q.drop (off + 32)).take len))
        let st := s.hub.tb.now + BitVec.ofNat 64 (s.reg (.mac m) 0x14).toNat
        if h / 65536 % 2 = 1 ∧ (s.hub.stamps[m]).length < 16 then s.modHub (fun k => { k with stamps := k.stamps.set m (k.stamps[m] ++ [st]) }) else s
    s.raiseLine (Fin.ofNat 64 (26 + m)) n

/-- A unit that waits whole at the front of a window leaves it as a free choice says: its payload, of the length that its header gives (R685; log entry
44). -/
def State.unitOut (s : State) (w lenBits : Nat) (msg : List Byte → OutMsg) : State :=
  let q := s.winBytes w
  let len := leNat (q.take 4) % 2 ^ lenBits
  let n := (32 + len + 255) / 256
  if q.length < 256 * n ∨ q.isEmpty then s
  else
    let (b, s) := s.drawBool
    if b then (s.setWin w (q.drop (256 * n))).emit (msg ((q.drop 32).take len)) else s

/-- What hub CAN and USB send in a cycle, as no command of the table does: a unit of a transmit window (R617, R684, R685; log entry 44). -/
def State.portsOut (s : State) : State :=
  let s := (List.finRange 4).foldl (fun (s : State) (i : Fin 4) =>
    if s.ready 18 && (s.reg (.can i) 0).getLsbD 0 then s.unitOut (52 + i) 12 (fun l => .can i l) else s) s
  if s.ready 17 && (s.reg .usb 0).getLsbD 0 then s.unitOut 69 32 (fun l => .usb l) else s

/-- TSTAMP_POP: a read of the HI word pops the stamp FIFO (R688). -/
def State.tstampPop (s : State) (m : Fin 6) : State := s.modHub (fun h => { h with stamps := h.stamps.set m (h.stamps[m]).tail })

/-- The window number of a record window that exists. -/
def winExists (w : Nat) : Bool := (winOf (0xF401400000 + w * 0x1000)).isSome

/-- WINDOW_READ (R684): over a held or stalled crossing it is not performed (R479, R484). -/
def State.windowRead (s : State) (w : Fin 70) (n : Nat) : State :=
  if winExists w && s.perCut (winDom w) == 0 then let (l, s) := s.winTake w n; s.emit (.read l) else s

/-- WINDOW_WRITE (R684): into a held or stalled crossing it is discarded (R479, R484). -/
def State.windowWrite (s : State) (w : Fin 70) (data : List Byte) : State :=
  if winExists w && s.perCut (winDom w) == 0 then (s.winPush w data).1 else s

/-- PCIE_DEVICE_REQUEST: accepted in usable hub DRAM only, and charged to the port of R509; any other receives Unsupported Request (R689). -/
def State.pcieDeviceRequest (s : State) (i : Fin 2) (pa : W64) (len : Nat) (wdata : Option (List Byte)) : State :=
  let n := match wdata with | some l => l.length | none => len
  let a := pa.toNat
  if n = 0 ∨ s.perCut (some 13) ≠ 0 ∨ !(s.reg (.pcie i) 0x1000).getLsbD 1 then s
  else if !dramOk a ∨ !dramOk (a + n - 1) ∨ dramWin a ≠ some 4 then s.emit (.unsupported i)
  else
    s.unlessHeld 4 (4 + i) fun s =>
    let s := s.charge 4 (4 + i) n
    match wdata with
    | some l => s.unitStore a l
    | none => let s := s.touch a n; s.emit (.read (s.ownBytes .unit a n))

/-- PERST_REL_WRITE: PERST# is released, unless it is earlier than 100 ms after PWROK (R617, R689). -/
def State.perstRelWrite (s : State) (i : Fin 2) : State :=
  if s.hub.tb.up < 10000000 then s else s.orReg (.pcie i) 0x1000 1#32

/-- PCIE_LINK_UP: the link trains (R689). -/
def State.pcieLinkUp (s : State) (i : Fin 2) (width speed : BitVec 3) : State :=
  if (s.reg (.pcie i) 0x1000).getLsbD 0 then s.setFld (.pcie i) 0x1000 7 1 (1 + 2 * width.toNat + 16 * speed.toNat) else s

/-! ### The output checkers -/

/-- The safety page: the hub's output checkers use the address that SIA holds (R529; log entry 45). -/
def State.safePage (s : State) (i : Fin 2) : Nat := (s.reg (.safe i) 0x18).toNat * 2 ^ 32 + (s.reg (.safe i) 0x14).toNat

/-- The level of the part as the hub reads it: the higher of the two islands' (R525). -/
def State.partLevel (s : State) : Nat := max (s.isl[(0 : Fin 2)]).level (s.isl[(1 : Fin 2)]).level

def outPortCode : OutPort → Nat | .eth m => m | .can i => 8 + i

/-- One record of the output ledger (R538, R539). -/
def State.ledgerPut (s : State) (hdr : List Byte) (trailer : List Byte) (port flags : Nat) : State :=
  let page := s.safePage 0
  if !dramOk page ∨ dramWin page ≠ some 4 then s
  else
    let base := s.num (page + 8) 8
    let wr := leNat (s.ownBytes .unit (page + 0x18) 4)
    let rec_ := hdr ++ toLe 8 s.now ++ trailer ++ toLe 4 (port + flags * 256)
    (s.unitStore (base + 32 * (wr % 2048)) rec_).unitStore (page + 0x18) (toLe 4 (wr + 1))

/-- OUTPUT_FRAME: an output of the job is checked, stamped and sent, or dropped, and recorded in the ledger (R26, R538, R551). -/
def State.outputFrame (s : State) (port : OutPort) (data : List Byte) : State :=
  let up := match port with
    | .eth m => s.ready 15 && (s.reg (.mac m) 0).getLsbD 0
    | .can i => s.ready 18 && (s.reg (.can i) 0).getLsbD 0
  if !up then s
  else
    let n := data.length
    let body := data.take (n - 4)
    let tr := data.drop (n - 4)
    let hdr := body.take 16 ++ List.replicate (16 - (body.take 16).length) 0
    let trl := tr ++ List.replicate (4 - tr.length) 0
    let good := decide (20 ≤ n) && decide (tr = toLe 4 (crc32c body).toNat)
    if !good then s.ledgerPut hdr trl (outPortCode port) 1
    else
      let lvl := s.partLevel
      let inv := s.faultLow || s.hub.invalid || decide (4 ≤ lvl)
      let sent := withTrailer (body.set 14 (BitVec.ofNat 8 (bit inv + 2 * lvl)))
      let s := s.emit (match port with | .eth m => .eth m sent | .can i => .can i sent)
      s.ledgerPut hdr trl (outPortCode port) (if inv then 2 else 0)

/-! ### Meanings of events -/

/-- ADJ_STEP. -/
def execAdjStep (s : State) : Out := .next (s.adjStep)
/-- TIME_SET. -/
def execTimeSet (v : BitVec 64) (s : State) : Out := .next (s.timeSet v)
/-- TIME_ADJ. -/
def execTimeAdj (v : BitVec 32) (s : State) : Out := .next (s.timeAdj v)
/-- FSYNC_COMMIT. -/
def execFsyncCommit (s : State) : Out := .next (s.fsyncCommit)
/-- FSYNC_EDGE. -/
def execFsyncEdge (n : Fin 16) (s : State) : Out := .next (s.fsyncEdge n)
/-- FSYNC_END. -/
def execFsyncEnd (n : Fin 16) (s : State) : Out := .next (s.fsyncEnd n)
/-- PPS_EDGE. -/
def execPpsEdge (i : Fin 2) (s : State) : Out := .next (s.ppsEdge i)
/-- CUTOFF. -/
def execCutoff (s : State) : Out := .next (s.cutoff)
/-- EPOCH_CAPTURE. -/
def execEpochCapture (s : State) : Out := .next (s.epochCapture)
/-- IMU_READ_START. -/
def execImuReadStart (k : Fin 4) (s : State) : Out := .next (s.imuReadStart k)
/-- IMU_SAMPLE_READY. -/
def execImuSampleReady (k : Fin 4) (data : List (BitVec 8)) (s : State) : Out := .next (s.imuSampleReady k data)
/-- FRAME_START. -/
def execFrameStart (p : Fin 12) (fmt : CamFormat) (s : State) : Out := .next (s.frameStart p fmt)
/-- LINE_GROUP. -/
def execLineGroup (p : Fin 12) (data : List (BitVec 8)) (s : State) : Out := .next (s.frameData p data)
/-- FRAME_COMPLETE. -/
def execFrameComplete (p : Fin 24) (truncated pktErr withCutoff : Bool) (s : State) : Out := .next (s.frameComplete p truncated pktErr withCutoff)
/-- LIDAR_PACKET. -/
def execLidarPacket (m : Fin 6) (port : Fin 8) (time : BitVec 64) (sweep : BitVec 32) (last : Bool) (data : List (BitVec 8)) (s : State) : Out := .next (s.lidarPacket m port time sweep last data false)
/-- DESCRIPTOR_WRITE. -/
def execDescriptorWrite (s : State) : Out := .next (s.descriptorWrite)
/-- CLOSE_ENTRY_PUT. -/
def execCloseEntryPut (s : State) : Out := .next (s.closeEntryPut)
/-- ETH_RX_FRAME. -/
def execEthRxFrame (m : Fin 6) (data : List (BitVec 8)) (crcErr : Bool) (s : State) : Out := .next (s.ethRxFrame m data crcErr)
/-- CAN_RX_FRAME. -/
def execCanRxFrame (i : Fin 4) (kind : Fin 3) (ext : Bool) (ident : BitVec 29) (data : List (BitVec 8)) (s : State) : Out := .next (s.canRxFrame i kind ext ident data)
/-- ETH_TX_FRAME. -/
def execEthTxFrame (m : Fin 6) (s : State) : Out := .next (s.ethTxFrame m)
/-- TSTAMP_POP. -/
def execTstampPop (m : Fin 6) (s : State) : Out := .next (s.tstampPop m)
/-- WINDOW_READ. -/
def execWindowRead (w : Fin 70) (n : Nat) (s : State) : Out := .next (s.windowRead w n)
/-- WINDOW_WRITE. -/
def execWindowWrite (w : Fin 70) (data : List (BitVec 8)) (s : State) : Out := .next (s.windowWrite w data)
/-- PCIE_DEVICE_REQUEST. -/
def execPcieDeviceRequest (i : Fin 2) (pa : BitVec 64) (len : Nat) (wdata : Option (List (BitVec 8))) (s : State) : Out := .next (s.pcieDeviceRequest i pa len wdata)
/-- PERST_REL_WRITE. -/
def execPerstRelWrite (i : Fin 2) (s : State) : Out := .next (s.perstRelWrite i)
/-- PCIE_LINK_UP. -/
def execPcieLinkUp (i : Fin 2) (width speed : BitVec 3) (s : State) : Out := .next (s.pcieLinkUp i width speed)
/-- OUTPUT_FRAME. -/
def execOutputFrame (port : OutPort) (data : List (BitVec 8)) (s : State) : Out := .next (s.outputFrame port data)

end Sys2Proof.Machine
end

