-- ==== Sys2Proof/Machine/Clocks.lean ====
section
/-! DEFINITION. Crossings between clock domains (R477 to R485), the islands' clock monitors (R486, R487) and CLOCK_FAULT (R488). -/

namespace Sys2Proof.Machine

/-! ### Domains -/

/-- The die of a domain (R30): indices 0 to 3 ARR, 4 to 7 MEM, 8 FAB, 9 HOST, 10 ING, 11 ACO, 12 NET, 13 PCI, 14 USB, 15 SFA, 16 SFB, 17 TBS. -/
def domDie (dom : Nat) : Fin 7 := if dom < 8 then Fin.ofNat 7 (dom % 4) else if dom = 15 then 5 else if dom = 16 then 6 else 4

/-- Whether a die has a crossing toward a domain: its own domains, and the domain at which a joined die's links end. -/
def hasCrossing (d : Fin 7) (dom : Fin 18) : Bool := domDie dom == d || (joined d (domDie dom) && linkDom (domDie dom) == dom.val)

def State.crossing (s : State) (d : Fin 7) (dom : Fin 18) : Option Crossing := s.crossings.find? (fun k => k.die == d && k.dom == dom)
def State.dropCrossing (s : State) (d : Fin 7) (dom : Fin 18) : State :=
  { s with crossings := s.crossings.filter (fun k => !(k.die == d && k.dom == dom)) }
def State.setCrossing (s : State) (k : Crossing) : State := { (s.dropCrossing k.die k.dom) with crossings := k :: (s.dropCrossing k.die k.dom).crossings }

/-- A crossing that passes through modules out of service only is not monitored (R482). -/
def State.crossOut (s : State) (d : Fin 7) (dom : Fin 18) : Bool := domDie dom != d && !s.edgeUp d (domDie dom)

/-! ### What a crossing ends -/

/-- The request lines whose peripheral is in a domain (R30, R493). -/
def domLines (dom : Nat) : List (Fin 64) :=
  if dom = 10 then (List.range 20).map (fun i => Fin.ofNat 64 i)
  else if dom = 11 then (List.range 10).map (fun i => Fin.ofNat 64 (32 + i))
  else if dom = 12 then (List.range 12).map (fun i => Fin.ofNat 64 (20 + i))
  else if dom = 17 then (List.range 16).map (fun i => Fin.ofNat 64 (42 + i))
  else []

/-- Requests that a domain has raised are discarded, and the channels bound to its lines end. -/
def State.endLines (s : State) (dom code : Nat) : State :=
  (domLines dom).foldl (fun (s : State) (l : Fin 64) =>
    let s := s.modHub (fun h => { h with raised := h.raised.set l 0 })
    match s.lineChan l with
    | some (e, c) => s.pdmaBreak e c code none
    | none => s) s

/-- Whether an address lies in a record window of a domain, or in the port of the acoustic engine. -/
def inDom (dom pa : Nat) : Bool :=
  match winOf pa with
  | some w => winDom w == some (Fin.ofNat 18 dom)
  | none => inAcoPort pa && dom == 11

/-- Channels with a burst on its way into a domain's windows or port, whatever line they are bound to, end; of channels that have ended, such a
burst's bytes are discarded. -/
def State.endBursts (s : State) (dom code : Nat) : State :=
  let s := allChans.foldl (fun (s : State) p =>
    match (s.chan p.1 p.2).desc with
    | none => s
    | some d =>
      match (s.burstsOut p.1 p.2).find? (fun b => (d.burstAt b).any (fun q => inDom dom q.2.1)) with
      | some b => s.pdmaBreak p.1 p.2 code (some b)
      | none => s) s
  (s.crates.filter (fun k => match k.who with | .pdmaOld _ _ _ => k.req == CrateKind.rd && inDom dom k.dest | _ => false)).foldl (fun s k => s.endCrate k code) s

/-- A move of a cell that depends on an ended crossing: it ends with the status, after a free number of its pieces. -/
def State.endMove (s : State) (c : CellId) (m : Move) (code : Nat) : State :=
  let n := Config.freeNat s.free % (m.pieces.length + 1)
  (({ s with free := s.free + 1 }).moveLost c m.id code).modMove c m.id (fun m => { m with pieces := m.pieces.take n })

/-- The ATT.KV of a cell that depend on its die's DRAM end, each after a free number of its rows: attention instructions report DONE and DROPPED
alone (R270), so that is DONE, with its other rows cut off. -/
def State.endKv (s : State) (c : CellId) : State :=
  let hit := fun (k : KvOp) => k.dropped.isNone && k.pages.any (fun p => dramWin p.pa == some (c.die.castLE (by omega) : Fin 5))
  let ks := (s.cell c).kv
  let s := s.modCell c (fun q => { q with
    kv := q.kv.filter (fun k => !hit k), syncCover := q.syncCover.map (fun n => (q.kv.take n).countP (fun k => !hit k)) })
  (ks.filter hit).foldl (fun (s : State) k =>
    let n := Config.freeNat s.free % (k.count + 1)
    let s := (List.range k.count).foldl (fun s i => s.kvRow c k (decide (n ≤ i)) i) { s with free := s.free + 1 }
    (s.deliver (.seq c) k.d (status 0 0)).deliver (.seq c) (k.d + 1) 0) s

/-- A path operation that runs ends with the status (R478). -/
def State.endPathRun (s : State) (d : Fin 4) (r : PathRun) (code : Nat) : PathRun × State :=
  if r.op.kind = .upd ∧ r.fin = some 0 then ({ r with fin := some (BitVec.ofNat 8 code) }, s.partUpd d r)
  else if r.fin.isSome then (r, s)
  else ({ r with fin := some (BitVec.ofNat 8 code) }, s)
def State.endPath (s : State) (d : Fin 4) (code : Nat) : State :=
  let s := match (s.path d).inter with
    | some r => let (r, s) := s.endPathRun d r code; s.modPath d (fun u => { u with inter := some r })
    | none => s
  match (s.path d).run with
  | some r => let (r, s) := s.endPathRun d r code; s.modPath d (fun u => { u with run := some r })
  | none => s

/-- What reads or writes the DRAM of its own die depends on the crossing toward the die's MEM domain: moves, ATT.KV and path operations. -/
def State.endDram (s : State) (d : Fin 4) (code : Nat) : State :=
  ((List.finRange 16).foldl (fun (s : State) (i : Fin 16) =>
    let c : CellId := ⟨d, i⟩
    ((s.cell c).moves.foldl (fun s m =>
      if m.pieces.any (fun p => dramWin p.src == some (Fin.ofNat 5 d.val) || dramWin p.dst == some (Fin.ofNat 5 d.val)) then s.endMove c m code else s) s).endKv c)
    s).endPath d code

/-- The loads and stores of host cores that other dies have not answered end with a status. -/
def State.endHost (s : State) (code : Nat) : State :=
  (s.crates.filter (fun c => match c.who with | .host _ => true | _ => false)).foldl (fun s c => s.endCrate c code) s

/-- Whether a crate or its answer still has to cross an edge, in either direction. -/
def Crate.crosses (c : Crate) (a b : Fin 7) : Bool :=
  usesEdge a b c.cur c.route || (c.kind == c.req && usesEdge a b (c.route.getLastD c.cur) c.back)

/-- Every operation that a crossing of die `d` toward `dom` carries, or that waits for an answer over it, ends with a status (R478, R484). On the hub,
every request line and the host cores' accesses depend on FAB, and the latter on HOST; transfers of PCIe and USB devices are made in one step, and none
is under way. -/
def State.endCrossing (s : State) (d : Fin 7) (dom : Fin 18) (code : Nat) : State :=
  let f := domDie dom
  if f = d then
    if h : dom.val < 8 then s.endDram ⟨dom.val % 4, by omega⟩ code
    else if dom.val = 8 then ([10, 11, 12, 14, 17].foldl (fun (s : State) q => (s.endLines q code).endBursts q code) s).endHost code
    else if dom.val = 9 then s.endHost code
    else (s.endLines dom code).endBursts dom code
  else (s.crates.filter (fun c => c.crosses d f)).foldl (fun s c => s.endCrate c code) s

/-! ### CLOCK_FAULT -/

/-- The level that CLOCK_FAULT of a domain demands (R488): none for ARR, MEM, ACO and USB. -/
def clockLevel (dom : Nat) : Nat :=
  if dom < 8 then 0 else if dom = 8 ∨ dom = 9 ∨ dom = 15 ∨ dom = 16 then 4 else if dom = 10 ∨ dom = 12 ∨ dom = 17 then 3
  else if dom = 13 then 1 else 0

/-- A stall, a frequency fault or a stop of a judged domain raises CLOCK_FAULT once; a compute die's domain has it fenced (R488, R613). A reset of the
domain clears the fault only where it comes after it. -/
def State.clockFault (s : State) (i : Fin 2) (dom : Fin 18) : State :=
  let k := s.isl[i]
  if !k.up || !k.judge.contains dom || k.clkStop.contains dom || k.active 0x0D dom then s
  else
    let s := (s.raiseTrig i 0x0D dom (clockLevel dom)).modIsl i (fun k => { k with
      clkReset := k.clkReset.filter (fun x => x ≠ dom), clkWin := k.clkWin.filter (fun x => x ≠ dom) })
    if h : dom.val < 8 then s.fenceDie ⟨dom.val % 4, by omega⟩ else s

/-! ### Commands on crossings -/

/-- The far side's reset touches a domain, and its fault may clear after one whole good window that begins after it (R488). -/
def State.domReset (s : State) (dom : Fin 18) : State :=
  { s with isl := s.isl.map (fun (k : Island) => { k with
      clkReset := if k.clkReset.contains dom then k.clkReset else dom :: k.clkReset, clkWin := k.clkWin.filter (· ≠ dom) }) }

/-- A crossing flushes: what it carries ends FLUSHED, and the near side counts and reports it (R478). -/
def State.flushCrossing (s : State) (d : Fin 7) (dom : Fin 18) : State :=
  (((s.endCrossing d dom 6).count (.cdc d) 0xC 15 0 1).orReg (.cdc d) 8 (BitVec.ofNat 32 (2 ^ dom.val))).report (.flushed dom)

/-- FAR_RESET_CAPTURE (R478): the level of a reset of the far side is captured. A PCIe, USB or die reset and the clear of ACO_CTRL.EN make their
captures themselves; that of an Ethernet MAC, for which the table has no row, is the command's (R477). -/
def State.farReset (s : State) (d : Fin 7) (dom : Fin 18) : State :=
  if !hasCrossing d dom || (match s.crossing d dom with | some k => k.reset | none => false) then s
  else
    let s := (s.flushCrossing d dom).domReset dom
    s.setCrossing { die := d, dom := dom, reset := true, stalled := (match s.crossing d dom with | some k => k.stalled | none => false) }

/-- FAR_READY_CAPTURE: the crossing carries traffic again (R479). -/
def State.farReady (s : State) (d : Fin 7) (dom : Fin 18) : State :=
  match s.crossing d dom with
  | some k => if k.reset then s.dropCrossing d dom else s
  | none => s

/-- CLOCK_STALL (R482, R484). -/
def State.clockStall (s : State) (d : Fin 7) (dom : Fin 18) : State :=
  if !hasCrossing d dom || (s.crossing d dom).isSome || s.crossOut d dom then s
  else
    let s := s.endCrossing d dom 7
    let s := (s.orReg (.cdc d) 4 (BitVec.ofNat 32 (2 ^ dom.val))).report (.cdcStall dom)
    s.setCrossing { die := d, dom := dom, reset := false, stalled := true }

/-! ### Monitors -/

/-- The nominal clock of a domain in kHz; of an ARR domain, that of the die's ladder step (R468, R486, R598). -/
def State.domKhz (s : State) (dom : Nat) : Nat :=
  if dom < 4 then
    match s.fld .therm 8 (2 * dom + 1) (2 * dom) with
    | 0 => 2600000
    | 1 => 2200000
    | 2 => 1800000
    | _ => 1300000
  else if dom < 8 then 1200000
  else match dom with
    | 8 => 1600000
    | 9 => 2200000
    | 10 => 800000
    | 11 => 24576
    | 12 => 312500
    | 13 => 1000000
    | 14 => 250000
    | 15 => 400000
    | 16 => 400000
    | _ => 100000

/-- The tolerance of a domain at an island, in units of 0.25 %: 10 % for its own (R486, R491). -/
def State.tolOf (s : State) (i : Fin 2) (dom : Nat) : Nat :=
  if dom = 15 + i then 40 else max 1 (s.fld (.cdc (Fin.ofNat 7 (5 + i))) 0x100 5 1)

/-- R486: a count differs from N by more than N × TOL + 1, where N is f × 1 ms / 64. -/
def freqBad (khz tol cnt : Nat) : Bool :=
  let d := if 64 * cnt < khz then khz - 64 * cnt else 64 * cnt - khz
  decide (khz * tol + 25600 < 400 * d)

/-- The domains that an island judges, by the ready bits it has read (R613). -/
def Island.judged (k : Island) (i : Fin 2) : List (Fin 18) :=
  (List.finRange 18).filter (fun q =>
    if q.val < 8 then k.func.getLsbD (5 + q.val % 4) else if q.val = 15 + i then true
    else if q.val = 16 - i then k.gotFrame else k.func.getLsbD 2)

/-- CLOCK_WINDOW: the counts are stored; each judged domain is held to its range; a domain that has been reset clears after one window in
range (R486, R488, R491). -/
def State.clockWindow (s : State) (i : Fin 2) (counts : List Nat) : State :=
  let k := s.isl[i]
  let b := Blk.cdc (Fin.ofNat 7 (5 + i))
  if !k.up then s
  else
    let s := (List.finRange 18).foldl (fun (s : State) (q : Fin 18) =>
      let n := min (counts.getD q 0) 0x1FFFF
      let s := s.setFld b (0x180 + 4 * q) 16 0 n
      if !(s.reg b 0x100).getLsbD 0 || !k.judge.contains q || k.skipWin.contains q || k.clkStop.contains q then s
      else if freqBad (s.domKhz q) (s.tolOf i q) n then (s.orReg b 0x104 (BitVec.ofNat 32 (2 ^ q.val))).clockFault i q
      else if k.clkWin.contains q then
        let s := if q.val = 13 ∨ q.val = 11 ∨ q.val = 14 then s.clearTrig i 0x0D q else s
        s.modIsl i (fun k => { k with clkReset := k.clkReset.filter (fun x => x ≠ q) })
      else s) s
    s.modIsl i (fun k => { k with judge := k.judged i, skipWin := [], clkWin := k.clkReset })

/-- CLOCK_STOP_COUNT: a domain has given no edge for 4,096 cycles (R487). -/
def State.clockStopCount (s : State) (i : Fin 2) (dom : Fin 18) : State :=
  let k := s.isl[i]
  let b := Blk.cdc (Fin.ofNat 7 (5 + i))
  if !k.up || !(s.reg b 0x100).getLsbD 0 || !k.judge.contains dom || k.clkStop.contains dom then s
  else (s.orReg b 0x108 (BitVec.ofNat 32 (2 ^ dom.val))).clockFault i dom

/-! ### Resets of the PCI and USB domains -/

/-- PCIE_HOT_RESET: the port's link goes down and the crossing toward PCI flushes (R477, R689). -/
def State.pcieHotReset (s : State) (i : Fin 2) : State := (s.setFld (.pcie i) 0x1000 7 1 0).farReset 4 13

/-- USB_BUS_RESET: the windows of the device empty and the crossing toward USB flushes (R477). -/
def State.usbBusReset (s : State) : State := ((s.setWin 68 []).setWin 69 []).farReset 4 14

/-! ### Meanings of events -/

/-- FAR_RESET_CAPTURE. -/
def execFarResetCapture (d : Fin 7) (dom : Fin 18) (s : State) : Out := .next (s.farReset d dom)
/-- FAR_READY_CAPTURE. -/
def execFarReadyCapture (d : Fin 7) (dom : Fin 18) (s : State) : Out := .next (s.farReady d dom)
/-- CLOCK_STALL. -/
def execClockStall (d : Fin 7) (dom : Fin 18) (s : State) : Out := .next (s.clockStall d dom)
/-- CLOCK_WINDOW. -/
def execClockWindow (i : Isl) (counts : List Nat) (s : State) : Out := .next (s.clockWindow i.num counts)
/-- CLOCK_STOP_COUNT. -/
def execClockStopCount (i : Isl) (dom : Fin 18) (s : State) : Out := .next (s.clockStopCount i.num dom)
/-- PCIE_HOT_RESET. -/
def execPcieHotReset (i : Fin 2) (s : State) : Out := .next (s.pcieHotReset i)
/-- USB_BUS_RESET. -/
def execUsbBusReset (s : State) : Out := .next (s.usbBusReset)

end Sys2Proof.Machine
end

