-- ==== Sys2Proof/Machine/Acoustic.lean ====
section
/-! DEFINITION. The acoustic engine (R376 to R409, R690, R691). -/

namespace Sys2Proof.Machine

def State.modAco (s : State) (f : Aco → Aco) : State := { s with aco := f s.aco }

/-! ### Registers -/

/-- Bits of ACO_ERR, each with its hub interrupt (R403, R408), and the cause of a refusal (R404). -/
def State.acoErr (s : State) (m : W32) : State := (s.orReg .aco 0xFC m).raiseHub .aco
def State.acoRefuse (s : State) (cause : Nat) : State := (s.setFld .aco 8 15 8 cause).acoErr 0x20#32

def State.acoRuns (s : State) : Bool := (s.reg .aco 8).getLsbD 0
/-- RATE, the samples of a block, the decimation, the cycles of a frame and the bits of a slot (R377). -/
def State.acoRate (s : State) : Nat := s.fld .aco 0 1 1
def State.acoNb (s : State) : Nat := if s.acoRate = 0 then 384 else 768
def State.acoM (s : State) : Nat := if s.acoRate = 0 then 64 else 32
def State.acoNf (s : State) : Nat := if s.acoRate = 0 then 512 else 256
def State.acoB (s : State) : Nat := if s.acoRate = 0 then 32 else 16
/-- K of ACO_CTRL. -/
def State.acoK (s : State) : Nat := s.fld .aco 0 4 2

/-- A shadowed register in force. -/
def Aco.reg (a : Aco) (o : Nat) : W32 := a.act[Fin.ofNat 64 (o / 4)]

/-- Signals: a microphone, or a TDM input slot. -/
structure Src where
  tdm : Bool
  idx : Nat
  deriving DecidableEq, Repr

/-- The binding of a reference or error signal (R406). -/
def srcOf (w : W32) : Option Src := if w.getLsbD 15 then some ⟨w.getLsbD 14, bits w 5 0⟩ else none
def Aco.ref (a : Aco) (r : Nat) : Option Src := srcOf (a.reg (0x40 + 4 * r))
def Aco.errMap (a : Aco) (m : Nat) : Option Src := srcOf (a.reg (0xC0 + 4 * m))

/-- An output's binding (R406). -/
structure OutCfg where
  ct : Bool
  ctSrc : Nat
  tdm : Bool
  dst : Nat
  mix : Nat
  mixSrc : Nat
  deriving DecidableEq, Repr

def outOf (w : W32) : Option OutCfg :=
  if w.getLsbD 31 then some ⟨w.getLsbD 30, bits w 29 24, w.getLsbD 23, bits w 22 16, bits w 15 13, bits w 6 0⟩ else none
def Aco.out (a : Aco) (o : Nat) : Option OutCfg := outOf (a.reg (0x80 + 4 * o))

/-! ### Arithmetic -/

/-- A number over 2^k rounded to nearest even. -/
def rneInt (n : Int) (k : Nat) : Int :=
  let d : Int := 2 ^ k
  let q := n / d
  let r := n % d
  if 2 * r > d ∨ (2 * r = d ∧ q % 2 = 1) then q + 1 else q

/-- A value held to `b` signed bits, and whether it saturates. -/
def satBits (b : Nat) (v : Int) : Int × Bool :=
  if v < -2 ^ (b - 1) then (-2 ^ (b - 1), true) else if 2 ^ (b - 1) - 1 < v then (2 ^ (b - 1) - 1, true) else (v, false)

/-- A coefficient, LSB 2^-21 (R383). -/
def Aco.coef (a : Aco) (o : Nat) : Int := sgn 24 (sparseGet (fun _ => (0#32 : W32)) o a.mem).toNat
def tapAt (r o k : Nat) : Nat := 0x7200 + ((r * 16 + o) * 256 + k) * 4
def modelAt (o m j : Nat) : Nat := 0x200 + ((o * 8 + m) * 32 + j) * 4

/-- The impulse response of a CIC of order `k` and decimation `m`. -/
def boxcar (m : Nat) (l : List Int) : List Int :=
  (List.range (l.length + m - 1)).map (fun i => ((List.range m).foldl (fun a j => if j ≤ i then a + l.getD (i - j) 0 else a) 0))
def cicTaps (k m : Nat) : List Int := (List.range k).foldl (fun l _ => boxcar m l) [1]

/-- The CIC output over the bits of the last sample periods, newest first; bit 0 of a period is its oldest (R379, R380). -/
def cicOut (k m : Nat) (l : List (BitVec 64)) : Int :=
  ((cicTaps k m).zipIdx.map (fun p =>
    match l[p.2 / m]? with
    | some w => if w.getLsbD (m - 1 - p.2 % m) then p.1 else -p.1
    | none => 0)).foldl (fun a v => a + v) 0

/-- The decimated sample: the compensator's sum, rounded once (R380). -/
def micSample (k m : Nat) (l : List Int) : Int :=
  (satBits 24 (rneInt ((l.take 32).zipIdx.foldl (fun a p => a + Config.firCoeff p.2 * p.1) 0) (k * (if m = 64 then 6 else 5)))).1

/-! ### The filter bank -/

/-- The current sample of a signal. -/
def Aco.sample (a : Aco) (x : Src) : Int := if x.tdm then a.slot[Fin.ofNat 64 x.idx] else if x.idx < 32 then a.mic[Fin.ofNat 32 x.idx] else 0

/-- Whether reference `x` is early for an output (R384): always at the tick; for a cut-through output when its slot is not after the trigger. -/
def early (c : OutCfg) (x : Src) : Bool := !c.ct || c.ctSrc % 16 == 15 || (x.tdm && decide (x.idx % 16 ≤ c.ctSrc % 16))

/-- The mix source in units of 2^-29 (R387, R398). -/
def Aco.mixOf (a : Aco) (nb : Nat) (c : OutCfg) : Int :=
  if 1 ≤ c.mix ∧ c.mix ≤ 4 then
    let i : Fin 4 := Fin.ofNat 4 (c.mix - 1)
    match a.ramp with
    | none => (a.play[i]).getD (a.tick % nb) 0 * 64
    | some j => if j < 64 then a.last[i] * (63 - j : Nat) else 0
  else if c.mix = 5 then a.slot[Fin.ofNat 64 c.mixSrc] * 64
  else 0

/-- The exact sum of an output in units of 2^-44; `x r` lists the samples of reference `r` from that of its early tap on, newest first. -/
def Aco.sum (a : Aco) (o : Nat) (x : Nat → List Int) : Int :=
  (List.range 16).foldl (fun acc r =>
    if (a.ref r).isSome then ((x r).take 256).zipIdx.foldl (fun acc p => acc + a.coef (tapAt r o p.2) * p.1) acc else acc) 0

/-- The bits that a slot carries for a sample (R389): the 24 bits and eight zeros, or the sample rounded to 16 bits. -/
def slotWord (rate : Nat) (v : Int) : W32 := BitVec.ofInt 32 (if rate = 0 then v * 2 ^ 8 else (satBits 16 (rneInt v 8)).1 * 2 ^ 16)

/-- The sample of an input slot's word, its bits from bit 31 down (R381). -/
def slotSample (rate : Nat) (w : W32) : Int := if rate = 0 then sgn 24 (w.toNat / 2 ^ 8) else sgn 16 (w.toNat / 2 ^ 16) * 256

/-- One sample of an output goes to its destination (R383, R387 to R389), a TDM slot only where its port is driven (R405); `quiet` says that tick
N_b has not passed, and a zero sample goes out (R402). -/
def State.acoDrive (s : State) (o : Nat) (c : OutCfg) (quiet : Bool) (x : Nat → List Int) : State :=
  let a := s.aco
  let (v, sat) := if quiet then (0, false) else satBits 24 (rneInt (a.sum o x + a.mixOf s.acoNb c * 2 ^ 15) 21)
  let s := if sat then (s.count .aco 0xF8 31 0 1).acoErr 8#32 else s
  if !c.tdm then s.modAco (fun a => { a with pdm := a.pdm.set (Fin.ofNat 16 c.dst) v })
  else if (a.reg 0x14).getLsbD (4 + c.dst / 16) then
    s.modAco (fun a => { a with tdm := a.tdm.set (Fin.ofNat 64 c.dst) (slotWord s.acoRate v) })
  else s

/-- The cut-through outputs that the slots captured in one cycle trigger take the fast path, with every sample of that cycle (R384, R392). -/
def State.acoTrigger (s : State) : State :=
  match s.aco.slotNow with
  | none => s
  | some n =>
    let ports := s.aco.ports
    let s := s.modAco (fun a => { a with slotNow := none, ports := [] })
    (List.range 16).foldl (fun (s : State) o =>
      match s.aco.out o with
      | some c =>
        if c.ct && c.ctSrc % 16 == n.val && ports.contains (Fin.ofNat 4 (c.ctSrc / 16)) then
          s.acoDrive o c (decide (s.aco.tick ≤ s.acoNb)) (fun r => match s.aco.ref r with
            | some x => if early c x then s.aco.sample x :: s.aco.hist[Fin.ofNat 16 r] else s.aco.hist[Fin.ofNat 16 r]
            | none => [])
        else s
      | none => s) s

/-- TDM_SLOT_RECEIVED: the last bit of an input slot is captured (R381). The slots of one number end in one cycle on every port, so the outputs
that it triggers follow once each enabled port has given its slot of that number, or a slot of another number or the tick comes (R384; log
entry 119). Slot 15 ends at the tick, and its outputs are formed there. -/
def State.tdmSlot (s : State) (j : Fin 4) (n : Fin 16) (w : W32) : State :=
  if !s.acoRuns || !(s.aco.reg 0x14).getLsbD j then s
  else
    let i : Fin 64 := Fin.ofNat 64 (j * 16 + n)
    let s := if s.aco.slotNow = some n ∧ !s.aco.ports.contains j then s else s.acoTrigger
    let s := s.modAco (fun a => { a with slot := a.slot.set i (slotSample s.acoRate w), raw := a.raw.set i w })
    if n = 15 then s
    else
      let s := s.modAco (fun a => { a with slotNow := some n, ports := j :: a.ports })
      if (List.finRange 4).all (fun q => !(s.aco.reg 0x14).getLsbD q || s.aco.ports.contains q) then s.acoTrigger else s

/-! ### The tick -/

/-- Microphones complete their samples (R380). -/
def State.acoMics (s : State) (l : List (BitVec 64)) : State :=
  (List.finRange 32).foldl (fun (s : State) (i : Fin 32) =>
    if (s.aco.reg 0xC).getLsbD i then
      let k := s.acoK
      let m := s.acoM
      s.modAco (fun a =>
        let b := (l.getD i 0) :: (a.pdmIn[i]).take 4
        let c := cicOut k m b :: (a.cic[i]).take 31
        { a with pdmIn := a.pdmIn.set i b, cic := a.cic.set i c, mic := a.mic.set i (micSample k m c) })
    else s.modAco (fun a => { a with mic := a.mic.set i 0 })) s

/-- Raw capture of an input port (R493, R685). -/
def State.acoCapture (s : State) (j : Fin 4) : State :=
  if (s.aco.reg 0x14).getLsbD j then
    let l := s.aco.rest[j] ++ (List.range 16).flatMap (fun n => toLe 4 (s.aco.raw[Fin.ofNat 64 (j * 16 + n)]).toNat)
    if 256 ≤ l.length then
      (s.feedWin (60 + j) (32 + j) 1 l).modAco (fun a => { a with rest := a.rest.set j (l.drop 256) })
    else s.modAco (fun a => { a with rest := a.rest.set j l })
  else s

/-- Raw playback of an output port: a frame leaves its window (R493, R685). Slots that no output names carry zero samples (R387), and those that
an output names carry its samples, so the frame's words reach no slot (log entry 65). -/
def State.acoPlayback (s : State) (j : Fin 4) : State :=
  if (s.aco.reg 0x14).getLsbD (4 + j) && decide (64 ≤ (s.winBytes (64 + j)).length) then
    let before := (s.winBytes (64 + j)).length
    let (_, s) := s.winTake (64 + j) 64
    if before % 256 = 64 then s.raiseLine (Fin.ofNat 64 (36 + j)) 1 else s
  else s

/-- The outbound samples of the tick go to their buffer (R399, R690). -/
def outBuf (k : Nat) : Nat := 0xF401890000 + k % 2 * 0x38000
def Aco.streams (a : Aco) : List Src :=
  ((List.range 32).filter (fun i => (a.reg 0xE4).getLsbD i)).map (fun i => ⟨false, i⟩) ++
    ((List.range 4).filter (fun j => (a.reg 0xE8).getLsbD j)).flatMap (fun j => (List.range 16).map (fun n => (⟨true, j * 16 + n⟩ : Src)))
def State.acoExport (s : State) : State :=
  let nb := s.acoNb
  let n := s.aco.tick
  s.aco.streams.zipIdx.foldl (fun (s : State) (p : Src × Nat) =>
    s.write (outBuf (n / nb) + 256 + (p.2 * nb + n % nb) * 4) (toLe 4 (BitVec.ofInt 32 (s.aco.sample p.1)).toNat)) s

/-- The `q` integrators of a modulator, each within the stepping's bound (R388). -/
def integrators (q : Nat) (l : List Int) : List Int :=
  (List.range q).map (fun i => max (-(Config.pdmBound : Int)) (min Config.pdmBound (l.getD i 0)))

/-- A modulator of order `q` over the `m` PDM clocks of a held sample: its integrators, its bits from bit 0 on, and its overloads, each of which
resets the integrators (R388). -/
def modulate (q m : Nat) (acc : List Int) (v : Int) : List Int × BitVec 64 × Nat :=
  (List.range m).foldl (fun (p : List Int × BitVec 64 × Nat) i =>
    let (a, b, ovl) := Config.pdmStep q p.1 v
    (if ovl then List.replicate q 0 else integrators q a, p.2.1 ||| BitVec.ofNat 64 (bit b * 2 ^ i), p.2.2 + bit ovl)) (integrators q acc, 0, 0)

/-- The modulators drive the bits of a sample period on the pins that are driven; each overload is counted (R388, R405). -/
def State.acoModulate (s : State) : State :=
  (List.finRange 16).foldl (fun (s : State) (p : Fin 16) =>
    if (s.aco.reg 0x10).getLsbD p then
      let (acc, w, ovl) := modulate (s.fld .aco 0 7 5) s.acoM s.aco.mod[p] s.aco.pdm[p]
      let s := s.modAco (fun a => { a with stream := a.stream.set p w, mod := a.mod.set p acc })
      if 0 < ovl then (s.count .aco 0xF8 31 0 ovl).acoErr 8#32 else s
    else s.modAco (fun a => { a with stream := a.stream.set p 0 })) s

/-- What no output names, and a TDM port that is not driven, carries zero samples (R387, R405); so does everything while the engine does not run
(R402). -/
def State.acoIdle (s : State) : State :=
  let named := fun (tdm : Bool) (n : Nat) => s.acoRuns && (List.range 16).any (fun o => match s.aco.out o with | some c => c.tdm == tdm && c.dst == n | none => false)
  s.modAco (fun a => { a with
    pdm := Vector.ofFn (fun p => if named false p.val then a.pdm[p] else 0),
    tdm := Vector.ofFn (fun n => if named true n.val && (a.reg 0x14).getLsbD (4 + n.val / 16) then a.tdm[n] else 0) })

/-- ACO_TICK: the sample tick (R377, R380, R383 to R389, R394, R399, R401). While the engine does not run, the outputs carry zero samples
(R402). -/
def State.acoTick (s : State) (mics : List (BitVec 64)) : State :=
  let s := if s.acoRuns then s.acoTrigger else s
  let s := s.modAco (fun a => { a with mem := a.memW.foldl (fun m (p : Nat × W32) => sparseSet (fun _ => (0#32 : W32)) p.1 p.2 m) a.mem, memW := [] })
  if !s.acoRuns then s.acoIdle.acoModulate
  else
    let s := s.acoMics mics
    let s := s.modAco (fun a => { a with
      hist := Vector.ofFn (fun r => match a.ref r with | some x => a.sample x :: (a.hist[r]).take 299 | none => 0 :: (a.hist[r]).take 299),
      err := Vector.ofFn (fun m => match a.errMap m with | some x => a.sample x | none => 0) })
    let s := (List.range 16).foldl (fun (s : State) o =>
      match s.aco.out o with
      | some c => if !c.ct || c.ctSrc % 16 == 15 then s.acoDrive o c (decide (s.aco.tick < s.acoNb)) (fun r => s.aco.hist[Fin.ofNat 16 r]) else s
      | none => s) s
    let s := s.acoIdle
    let s := (List.finRange 4).foldl (fun (s : State) j => (s.acoCapture j).acoPlayback j) s
    let s := s.acoExport.acoModulate
    let nb := s.acoNb
    let n := s.aco.tick
    let s := match s.aco.upd with
      | some u =>
        if u.due = n then
          let s := s.modAco (fun a => { a with mem := u.taps.foldl (fun m (p : Nat × W32) => sparseSet (fun _ => (0#32 : W32)) p.1 p.2 m) a.mem, upd := none })
          if u.frozen = 0 then s else (s.orReg .aco 0xE0 (BitVec.ofNat 32 (u.frozen * 65536))).acoErr 0x10#32
        else s
      | none => s
    let s := s.modAco (fun a => { a with
      last := if a.ramp.isNone then Vector.ofFn (fun i => (a.play[i]).getD (n % nb) 0) else a.last,
      ramp := a.ramp.map (fun j => min 64 (j + 1)), tick := n + 1 })
    s.setReg .aco 0xF0 (s.reg .aco 0xF0 + 1)

/-! ### Adaptation -/

/-- The filtered reference x'_{r,o,m}[n − k]: `x` lists the samples of reference `r` from x[n − δ] on (R393). -/
def Aco.filtered (a : Aco) (o m k : Nat) (x : List Int) : Int :=
  (List.range 32).foldl (fun acc j => acc + a.coef (modelAt o m j) * x.getD (k + j) 0) 0

/-- One tap's new value and whether it saturates (R393). -/
def Aco.newTap (a : Aco) (r o k : Nat) (x : List Int) : Int × Bool :=
  let g := (List.range 8).foldl (fun acc m => if (a.errMap m).isSome then acc + a.err[Fin.ofNat 8 m] * a.filtered o m k x else acc) 0
  let p := (sparseGet (fun _ => (0#32 : W32)) (0x100 + 4 * o) a.mem).toNat
  let w := a.coef (tapAt r o k)
  satBits 24 (rneInt (w * 2 ^ 76 - w * (p / 65536 : Nat) * 2 ^ 52 - (p % 65536 : Nat) * g) 76)

/-- ADAPT_UPDATE: the sequencer starts an update of every unfrozen output (R393, R394). -/
def State.adaptUpdate (s : State) : State :=
  let a := s.aco
  if !s.acoRuns || !(a.reg 0xE0).getLsbD 0 || a.upd.isSome || a.tick = 0 then s
  else
    let refs := (List.range 16).filterMap (fun r => (a.ref r).map (fun x => (r, x)))
    let one : Nat → List (Nat × W32) × Bool := fun o =>
      match a.out o with
      | none => ([], false)
      | some c =>
        if (s.reg .aco 0xE0).getLsbD (16 + o) then ([], false)
        else
          let l := refs.flatMap (fun p => (List.range 256).map (fun k =>
            let h := a.hist[Fin.ofNat 16 p.1]
            (tapAt p.1 o k, a.newTap p.1 o k (if early c p.2 then h else h.drop 1))))
          if l.any (fun (p : Nat × Int × Bool) => p.2.2) then ([], true)
          else (l.map (fun (p : Nat × Int × Bool) => (p.1, BitVec.ofInt 32 p.2.1)), false)
    let all := (List.range 16).map one
    let u : AcoUpd :=
      { due := a.tick - 1 + 2 ^ bits (a.reg 0xE0) 3 1, taps := all.flatMap (·.1),
        frozen := all.zipIdx.foldl (fun m (p : (List (Nat × W32) × Bool) × Nat) => m + bit p.1.2 * 2 ^ p.2) 0 }
    s.modAco (fun a => { a with upd := some u })

/-! ### Blocks -/

def inBuf (k : Nat) : Nat := 0xF401800000 + k % 2 * 0x48000
/-- The bytes of an inbound block without its trailer (R396). -/
def inBody : Nat := 0x47200

/-- Words of a section replace the values in use, and any indirect write of the same tick to them (R397, R401). -/
def State.acoSection (s : State) (buf off n : Nat) : State :=
  let l := (List.range (n / 4)).map (fun i => (off + 4 * i, BitVec.ofNat 32 (s.num (buf + off + 4 * i) 4)))
  s.modAco (fun a => { a with
    mem := l.foldl (fun m (p : Nat × W32) => sparseSet (fun _ => (0#32 : W32)) p.1 p.2 m) a.mem,
    memW := a.memW.filter (fun p => decide (p.1 < off ∨ off + n ≤ p.1)) })

/-- An accepted inbound block applies its present sections (R397). -/
def State.acoAccept (s : State) (buf : Nat) : State :=
  let present := fun (b : Nat) => (s.num (buf + 4) 4).testBit b
  let nb := s.acoNb
  let s := if present 0 then s.acoSection buf 0x100 0x100 else s
  let s := if present 1 then s.acoSection buf 0x200 0x4000 else s
  let s := if present 3 then
      (s.acoSection buf 0x7200 0x40000).modAco (fun a => { a with upd := a.upd.filter (fun u => u.due ≠ a.tick) })
    else s
  let s := if present 2 then
      s.modAco (fun a => { a with
        play := Vector.ofFn (fun i => (List.range nb).map (fun n => sgn 24 (s.num (buf + 0x4200 + (i.val * 768 + n) * 4) 4))) })
    else s
  s.modAco (fun a => { a with ramp := none })

/-- The inbound block opened at the last boundary is checked (R397, R398). -/
def State.acoInbound (s : State) (k : Nat) : State :=
  let buf := inBuf k
  let whole := decide (0x47300 ≤ s.aco.got[Fin.ofNat 2 k])
  let seq := decide (s.num buf 4 = k % 2 ^ 32 ∧ s.num (buf + inBody) 4 = k % 2 ^ 32)
  let crc := s.num (buf + inBody + 4) 4 == (crc32c (s.bytes buf inBody)).toNat
  if whole && seq && crc then s.acoAccept buf
  else
    ((s.count .aco 0xF4 15 0 1).acoErr (if whole then 5#32 else 1#32)).modAco (fun a => { a with ramp := if a.ramp.isNone then some 0 else a.ramp })

/-- Requests of a line that are not yet served. -/
def State.unserved (s : State) (l : Fin 64) : Nat :=
  s.hub.raised[l] + (match s.lineChan l with | some (e, c) => (s.chan e c).pend | none => 0)

/-- The outbound block `k` is closed: header and trailer, and its requests (R399). -/
def State.acoOutbound (s : State) (k : Nat) : State :=
  let a := s.aco
  let nb := s.acoNb
  let n := a.streams.length
  let buf := outBuf k
  let s := s.write buf (toLe 4 k ++ toLe 4 (k * nb) ++ toLe 1 n ++ List.replicate 247 0)
  let body := 256 + n * nb * 4
  let s := s.write (buf + body) (toLe 4 k ++ toLe 4 (crc32c (s.bytes buf body)).toNat ++ List.replicate 248 0)
  s.raiseLine 41 ((body + 256) / 256)

/-- Bytes of the buffer memory that an opening clears. -/
def State.acoClear (s : State) (a n : Nat) : State :=
  { s with mem := s.mem.filter (fun p => decide (p.1 < a ∨ a + n ≤ p.1)), ecc := s.ecc.filter (fun p => decide (p.1 < a ∨ a + n ≤ p.1)) }

/-- BLOCK_BOUNDARY: boundary B_k, which the coming tick begins: the block before is checked and closed, and the next is opened (R396 to R399). -/
def State.blockBoundary (s : State) : State :=
  let k := s.aco.blk
  if !s.acoRuns || decide (s.aco.tick < k * s.acoNb) then s
  else
    let s := if k = 0 then s
      else
        let s := s.acoInbound (k - 1)
        let s := if 2 ≤ k ∧ 0 < s.unserved 41 then (s.count .aco 0xF4 31 16 1).acoErr 2#32 else s
        s.acoOutbound (k - 1)
    let s := (s.acoClear (inBuf k) 0x48000).modAco (fun a => { a with got := a.got.set (Fin.ofNat 2 k) 0, blk := k + 1 })
    s.raiseLine 40 1139

/-! ### Configuration -/

/-- The enabled bindings of a configuration. -/
def Aco.refs (a : Aco) : Nat := (List.range 16).countP (fun r => (a.ref r).isSome)
def Aco.outs (a : Aco) : List OutCfg := (List.range 16).filterMap a.out
def Aco.errs (a : Aco) : Nat := (List.range 8).countP (fun m => (a.errMap m).isSome)

/-- The trigger cycle of a cut-through output (R384). -/
def trigger (b : Nat) (c : OutCfg) : Nat := c.ctSrc % 16 * b + b - 1

/-- The causes for which a configuration is refused (R386, R387, R390, R395, R404 to R407, R691). -/
def Aco.causes (a : Aco) (rate nf b : Nat) : List Nat :=
  let srcBad := fun (x : Src) => if x.tdm then !(a.reg 0x14).getLsbD (x.idx / 16) else !(a.reg 0xC).getLsbD x.idx
  let srcs := ((List.range 16).filterMap a.ref) ++ ((List.range 8).filterMap a.errMap)
  let off := fun (j : Nat) => bits (a.reg (0x20 + 4 * j)) 8 0
  let range := srcs.any srcBad ||
    a.outs.any (fun c => (c.ct && !c.tdm) || decide (6 ≤ c.mix) || decide ((if c.tdm then 64 else 16) ≤ c.dst) || (c.mix == 5 && decide (64 ≤ c.mixSrc))) ||
    (List.range 4).any (fun j => decide (nf ≤ off j)) || decide (4 < bits (a.reg 0xE0) 3 1) || (rate == 1 && decide (74 < a.streams.length))
  let dest := decide (((a.outs.map (fun c => (c.tdm, c.dst))).eraseDups.length ≠ a.outs.length))
  let align := a.outs.any (fun c => c.ct && c.tdm && decide ((off (c.dst / 16) + c.dst % 16 * b) % nf ≠ (c.ctSrc % 16 * b + b - 1 + 9) % nf))
  let cts := a.outs.filter (fun c => c.ct)
  let tail := cts.any (fun c => decide (trigger b c + 1 < cts.countP (fun x => decide (trigger b x ≤ trigger b c)) * a.refs)) ||
    decide (nf < a.outs.length * a.refs)
  let d := 2 ^ bits (a.reg 0xE0) 3 1
  let adapt := decide (512 * nf * d < a.refs * a.outs.length * a.errs * (32 * d + 256))
  (if align then [2] else []) ++ (if tail then [3] else []) ++ (if adapt then [4] else []) ++ (if dest then [5] else []) ++ (if range then [6] else [])

/-- ACO_COMMIT_GO (R400). -/
def State.acoCommitGo (s : State) : State :=
  if (s.reg .aco 4).getLsbD 31 then s.acoErr 0x40#32 else s.orReg .aco 4 0x80000000#32

/-- ACO_COMMIT_APPLY: at the tick the commit is checked, and applied or refused (R400). Where several causes hold, the one recorded is free. -/
def State.acoCommitApply (s : State) : State :=
  if !(s.reg .aco 4).getLsbD 31 then s
  else
    let s := s.clrReg .aco 4 0x80000000#32
    let act : Vector W32 64 := Vector.ofFn (fun i => s.reg .aco (4 * i.val))
    match ({ s.aco with act := act }).causes s.acoRate s.acoNf s.acoB with
    | [] => s.modAco (fun a => { a with act := act })
    | l => { s with free := s.free + 1 }.acoRefuse (l.getD (Config.freeNat s.free % l.length) 6)

/-- The value of a word of the coefficient, model and PARAM memory: whether its offset names one (R409). -/
def acoMemOk (o : Nat) : Bool := decide ((0x100 ≤ o ∧ o < 0x4200) ∨ (0x7200 ≤ o ∧ o < 0x47200))
/-- ACO_MEM_ADDR advances by 4. -/
def State.acoMemNext (s : State) : State := s.setFld .aco 0x100 18 2 (s.fld .aco 0x100 18 2 + 1)

/-- ACO_MEM_DATA_WRITE (R401, R409). -/
def State.acoMemWrite (s : State) (v : W32) : State :=
  let o := s.fld .aco 0x100 18 2 * 4
  if acoMemOk o then (s.modAco (fun a => { a with memW := a.memW ++ [(o, v)] })).acoMemNext else (s.acoRefuse 6).acoMemNext

/-- A read of ACO_MEM_DATA (R409): outside the sections it is not performed, and the value is free. -/
def State.acoMemRead (s : State) : W32 × State :=
  let o := s.fld .aco 0x100 18 2 * 4
  if acoMemOk o then (sparseGet (fun _ => (0#32 : W32)) o s.aco.mem, s.acoMemNext)
  else (Config.freeVal 32 s.free, ({ s with free := s.free + 1 }.acoRefuse 6).acoMemNext)

/-- EN changes to 1 (R402): everything is cleared, and the first frame starts. -/
def State.acoStart (s : State) : State :=
  let a := s.aco
  let s := (s.acoClear 0xF401800000 0x100000).modAco (fun _ => { Aco.reset with
    act := a.act, mem := a.mem, memW := a.memW, mod := Vector.replicate 16 (List.replicate (s.fld .aco 0 7 5) 0) })
  (s.setReg .aco 0xF0 0).setFld .aco 8 0 0 1

/-- EN changes to 0: the outputs go to zero samples at the next tick (R402), and the crossing of the engine's queues toward FAB flushes and
is held by the reset level of those queues until it rejoins (R477, R479; log entry 131). -/
def State.acoStop (s : State) : State :=
  ((s.modAco (fun a => { a with upd := none, slotNow := none, ports := [] })).setFld .aco 8 0 0 0).farReset 4 11

/-- A write of ACO_CTRL (R402, R404): RATE, K and Q change only while EN = 0, and only to values that exist. -/
def State.acoCtrl (s : State) (v : W32) : State :=
  let old := s.reg .aco 0
  if old.getLsbD 0 then
    let s := if bits v 7 1 = bits old 7 1 then s else s.acoRefuse 1
    if v.getLsbD 0 then s else (s.setFld .aco 0 0 0 0).acoStop
  else if bits v 7 5 < 2 ∨ 5 < bits v 7 5 ∨ bits v 4 2 < 3 ∨ 5 < bits v 4 2 then s.acoRefuse 6
  else
    let s := s.setReg .aco 0 (v &&& 0xFF#32)
    if v.getLsbD 0 then s.acoStart else s

/-! ### Meanings of events -/

/-- ACO_TICK. -/
def execAcoTick (mics : List (BitVec 64)) (s : State) : Out := .next (s.acoTick mics)
/-- TDM_SLOT_RECEIVED. -/
def execTdmSlotReceived (j : Fin 4) (slot : Fin 16) (word : BitVec 32) (s : State) : Out := .next (s.tdmSlot j slot word)
/-- BLOCK_BOUNDARY. -/
def execBlockBoundary (s : State) : Out := .next (s.blockBoundary)
/-- ADAPT_UPDATE. -/
def execAdaptUpdate (s : State) : Out := .next (s.adaptUpdate)
/-- ACO_COMMIT_GO. -/
def execAcoCommitGo (s : State) : Out := .next (s.acoCommitGo)
/-- ACO_COMMIT_APPLY. -/
def execAcoCommitApply (s : State) : Out := .next (s.acoCommitApply)
/-- ACO_MEM_DATA_WRITE. -/
def execAcoMemDataWrite (v : BitVec 32) (s : State) : Out := .next (s.acoMemWrite v)
/-- ACO_MEM_DATA_READ. -/
def execAcoMemDataRead (h : Fin 8) (d : Reg) (s : State) : Out := .next (let (v, s) := s.acoMemRead; s.setX (.host h) 0 1 d (v.setWidth 64))
/-- ACO_ENABLE. -/
def execAcoEnable (v : BitVec 32) (s : State) : Out := .next (s.acoCtrl (v ||| 1#32))
/-- ACO_DISABLE. -/
def execAcoDisable (s : State) : Out := .next (s.acoCtrl (s.reg .aco 0 &&& ~~~1#32))

end Sys2Proof.Machine
end

