-- ==== Sys2Proof/Machine/Islands.lean ====
section
/-! DEFINITION. The safety islands: mailbox, ledger and ingest checks (R526 to R540), the cross-link (R522), fault reports (R531), self-test
(R541 to R549), the safe state (R550 to R553), and the ready bits they see (R611 to R615). -/

namespace Sys2Proof.Machine

/-! ### Ready bits -/

/-- BOOT_FUNC_READY as it reads (R611, R636): RING, TIME_LOCKED, JOB and ARMED follow what they stand for, SIA and SIB the islands. -/
def State.funcReady (s : State) : W32 :=
  let ring := decide (s.reg (.d2d 4) 4 ≠ 0) && ringEdges.all (fun e => !s.edgeOut e.1 e.2 && !s.edgeOut e.2 e.1)
  let up := fun (i : Fin 2) => (s.isl[i]).up
  let v := (s.reg (.boot 0) 4).toNat
  BitVec.ofNat 32 (v / 4 * 4 + bit (up 0) + 2 * bit (up 1)) |||
    BitVec.ofNat 32 (bit ring * 2 ^ 13 + bit (s.fld .tbase 0x1C 1 0 == 1) * 2 ^ 20 + bit (s.jobState == 2) * 2 ^ 22 +
      bit ((s.isl[(0 : Fin 2)]).peerArm && (s.isl[(1 : Fin 2)]).peerArm) * 2 ^ 23)

/-- The island's link to the hub is not lost (R456). -/
def State.hubLink (s : State) (i : Fin 2) : Bool := s.edgeAlive (Fin.ofNat 7 (5 + i)) 4

/-- Whether a die and SIA reach each other: over the hub's links (R20). -/
def State.reaches (s : State) (d : Fin 5) : Bool :=
  s.hubLink 0 && (d == 4 || (s.edgeUp (Fin.ofNat 7 d.val) 4 && !s.fenced (Fin.ofNat 7 d.val)))

/-- FUNC_READY of an island's status frame (R612). -/
def State.islReady (s : State) (i : Fin 2) : W32 :=
  let k := s.isl[i]
  let own := bit k.up * 2 ^ i.val + bit k.fresh * 2 ^ (1 - i.val)
  BitVec.ofNat 32 (own + (if k.active 0x15 0 || !s.hubLink i then 0 else k.func.toNat / 4 * 4))

/-- FUNC_READY_POLL (R612): FUNC_READY and JOB_CUR_ID as the hub has them; an island whose hub link is down, or that holds HUB_SILENT, keeps what it last
read (R613, R615, R658). -/
def State.funcReadyPoll (s : State) (i : Fin 2) : State :=
  if !(s.isl[i]).up || (s.isl[i]).active 0x15 0 || !s.hubLink i then s else s.modIsl i (fun k => { k with func := s.funcReady, jobId := s.reg .job 0x14 })

/-! ### Health events -/

/-- An event adds its weight to a part in SIB's current bucket (R572, R573). -/
def State.healthAdd (s : State) (part w : Nat) : State :=
  { s with hlth := { s.hlth with buckets := match s.hlth.buckets with
      | [] => [[(part, w)]]
      | b :: r => sparsePut part (sparseGet (fun _ => 0) part b + w) b :: r } }

/-- The part number of a module, counted at the lower-strap die of a ring edge (R571). -/
def modulePart (d : Fin 7) (m : Nat) : Option Nat :=
  match modPeer d m with
  | none => none
  | some (p, pm) =>
    let pos := fun (a b : Fin 7) (x : Nat) => ((edgeMods a b).findIdx? (fun y => y == x)).getD 0
    if 4 < max d.val p.val then some (72 + (max d.val p.val - 5))
    else if d = 4 then some (64 + 2 * p.val + pos p 4 pm)
    else if p = 4 then some (64 + 2 * d.val + pos d 4 m)
    else match ringEdges.findIdx? (fun e => e == (d, p) || e == (p, d)) with
    | none => none
    | some e => some (48 + 4 * e + (if d.val < p.val then pos d p m else pos p d pm))

/-- The end at which the events of a module are counted, once for both ends (R571, R572): the lower-strap die of a ring edge, the compute die of a
hub–compute edge, the island of a hub–island edge. -/
def countEnd (d : Fin 7) (m : Nat) : Bool :=
  match modPeer d m with
  | some (p, _) => decide (4 < d.val) || decide (d.val < 4 ∧ d.val < p.val ∧ p.val ≤ 4)
  | none => false

/-- The part and the weight of a reported event (R572). -/
def healthOf : Report → Option (Nat × Nat)
  | .lsUe c => some (c.die.val, 256)
  | .cellParity c _ => some (c.die.val, 256)
  | .dram w ch ue _ => some (if w.val < 4 then 8 + 8 * w.val + ch.val else 40 + ch.val % 4, if ue then 256 else 1)
  | .dramRetrain w ch => some (if w.val < 4 then 8 + 8 * w.val + ch.val else 40 + ch.val % 4, 64)
  | .retrain d m => if countEnd d m then (modulePart d m).map (fun p => (p, 64)) else none
  | .ackTimeout d m => (modulePart d m).map (fun p => (p, 64))
  | .islandMem n ue => some (80 + n.val, if ue then 256 else 1)
  | _ => none

/-! ### Triggers from the mailbox -/

/-- The instances of a trigger that the mailbox may carry; 0 for any other ID (R526, R527). -/
def mailInst (id : Nat) : Nat :=
  if id = 1 ∨ id = 2 then 24 else if id = 9 ∨ id = 0x0B then 4 else if (3 ≤ id ∧ id ≤ 0x0A) ∨ id = 0x1A then 1 else 0

/-- Whether a trigger request is accepted (R527). -/
def mailOk (w : W32) : Bool :=
  decide (bits w 27 24 = 0 ∧ bits w 23 20 = 4 ∧ bits w 19 16 = 0 ∧ bits w 7 0 < mailInst (bits w 15 8))

/-- The level that a raise from the mailbox demands (R526, R528); codes 5 to 7 of a LEVEL field count as SL4 (R3). -/
def Island.mailLevel (k : Island) (w : W32) : Nat :=
  match bits w 15 8 with
  | 3 => 2
  | 6 => k.checkerLevel
  | 7 => 2
  | 8 => min 4 (bits w 30 28)
  | 9 => 3
  | 0x0A => 4
  | 0x0B => 2
  | 0x1A => 4
  | _ => 1

/-- The host die of the MINRISK job that runs or is asked for: PARAM of its header (R410, R414). -/
def State.hostDie (s : State) : Fin 4 :=
  let kind := fun (a : Nat) => s.num (a + 0x10) 4
  let img := (s.reg .job 0xC).toNat + s.fld .job 0x10 7 0 * 2 ^ 32
  let l := s.job.next.toList ++ [img, s.job.cur]
  Fin.ofNat 4 (kind ((l.find? (fun a => kind a % 16 == 3)).getD s.job.cur) / 16 % 16)

/-- R604: MINRISK applied under the clamp shifts the caps to its host die; a cap reaches a die over the hub's links (R20). -/
def State.minriskCaps (s : State) : State :=
  let h := s.hostDie
  let caps := Vector.ofFn (fun (d : Fin 4) => if s.reaches (d.castLE (by omega)) then some (if d = h then 50 else 10) else s.therm.cap[d])
  { s with therm := { s.therm with host := some h, cap := if (s.reg .therm 0).getLsbD 1 then caps else s.therm.cap } }

/-- PAIR_MISMATCH and CELL_PARITY of each compute die (R526, R531). -/
def pairTrigs : List (Nat × Nat) := (List.range 4).flatMap (fun d => [(0x0F, d), (0x10, d)])

/-- What a JOB_KIND request does beside its level (R531, R539, R540, R604). -/
def State.jobKind (s : State) (i : Fin 2) (lv : Nat) : State :=
  let s := s.modIsl i (fun k => { k with
    kindSeen := true, outRecs := k.outRecs.map (fun r => { r with exempt := true }), inPrev := k.inPrev.map (fun p => (p.1, p.2.1, true)),
    pairSeen := if lv = 3 then k.pairSeen ++ pairTrigs.filterMap (fun p =>
        if k.active p.1 p.2 && !k.pairSeen.any (fun x => x.1 == p.1 && x.2.1 == p.2) then some (p.1, p.2, k.time.toNat) else none)
      else k.pairSeen })
  if i = 0 then (if lv = 3 then s.minriskCaps else { s with therm := { s.therm with host := none } }) else s

/-- The cause for which SIB refuses to readmit a die, 0 when none (R579). -/
def State.readmitCause (s : State) (d : Fin 4) : Nat :=
  let k := s.isl[(1 : Fin 2)]
  let limit := fun (n : Nat) => (s.reg .hlth (0x50 + 4 * (n / 32))).getLsbD (n % 32)
  if !(s.reg .hlth 0).getLsbD 0 then 1
  else if limit d || (List.range 8).any (fun c => limit (8 + 8 * d.val + c)) then 2
  else if s.hlth.sliceFenced.contains d then 3
  else if 2 ≤ s.fld .hlth 0xC (25 + 2 * d) (24 + 2 * d) then 4
  else if k.fenceAt.any (fun x => x.1 == d.val && decide (k.time.toNat < x.2 + 1000000000)) then 5
  else if (List.finRange 4).any (fun (x : Fin 4) => x != d && s.fenced (Fin.ofNat 7 x.val)) then 6
  else if 3 ≤ k.level then 7
  else 0

/-- A clear request of DIE_FENCED: live readmission is asked for (R579, R580). -/
def State.readmit (s : State) (i : Fin 2) (d : Fin 4) : State :=
  if !s.fenced (Fin.ofNat 7 d.val) || (i == 1 && (s.reg .hlth 0xC).getLsbD (4 + d)) then s
  else if i = 0 then
    if (s.isl[i]).active 0x0D d || (s.isl[i]).active 0x0D (4 + d) then s else s.modIsl i (fun k => k.startClk d)
  else
    let c := s.readmitCause d
    if c = 0 then (s.setFld .hlth 0xC (4 + d) (4 + d) 1).modIsl i (fun k => k.startClk d)
    else (s.setFld .hlth 0xC 23 16 c).orReg .hlth 0xC (BitVec.ofNat 32 (2 ^ (8 + d.val)))

/-- One mailbox entry is applied; `seen` holds the triggers raised in this poll (R340, R530). -/
def State.applyMail (s : State) (i : Fin 2) (w : W32) (seen : List (Nat × Nat)) : State × List (Nat × Nat) :=
  let id := bits w 15 8
  let inst := bits w 7 0
  let k := s.isl[i]
  if !mailOk w then (s.count (.safe i) 0x24 15 0 1, seen)
  else if w.getLsbD 31 then
    let s := if k.active id inst && decide (id ≠ 8) then s.modIsl i (fun k => { k with clears := k.clears.filter (fun c => c != (id, inst)) })
      else s.raiseTrig i id inst (k.mailLevel w)
    (if id = 8 then s.jobKind i (min 4 (bits w 30 28)) else s, (id, inst) :: seen)
  else if id = 0x0B then (s.readmit i (Fin.ofNat 4 inst), seen)
  else if 8 ≤ id ∧ id ≠ 9 then (s, seen)
  else if seen.contains (id, inst) then (s.modIsl i (fun k => { k with clears := (id, inst) :: k.clears }), seen)
  else (s.clearTrig i id inst, seen)

/-- Mailbox entries in index order, up to one that is not complete. -/
def State.mailbox (s : State) (i : Fin 2) (page : Nat) (wr : W32) (seen : List (Nat × Nat)) : Nat → State
  | 0 => s
  | fuel + 1 =>
    let j := (s.isl[i]).mbRead
    let a := page + 0x800 + 8 * (j.toNat % 256)
    if j = wr ∨ s.num (a + 4) 4 ≠ j.toNat then s
    else
      let (s, seen) := (s.modIsl i (fun k => { k with mbRead := j + 1 })).applyMail i (BitVec.ofNat 32 (s.num a 4)) seen
      s.mailbox i page wr seen fuel

/-- A ring overruns (R530, R539). -/
def State.ringOverrun (s : State) (i : Fin 2) (inst : Nat) : State :=
  ((if (s.isl[i]).active 0x14 inst then s else s.raiseTrig i 0x14 inst 3)).orReg (.safe i) 0x1C 1#32

/-! ### Ledger and ingest -/

/-- The data ID table's entry of a data ID: index, AGE limit and PERIOD (R529). -/
def State.dataEntry (s : State) (page id : Nat) : Option (Nat × Nat × Nat) :=
  match (List.range 32).find? (fun j => s.num (page + 0x100 + 8 * j) 8 ≠ 0 && s.num (page + 0x100 + 8 * j) 2 = id) with
  | none => none
  | some j => some (j, s.num (page + 0x102 + 8 * j) 2, s.num (page + 0x104 + 8 * j) 4)

def tally (l : List (Nat × Nat)) (j n : Nat) : List (Nat × Nat) := (j, n) :: l.filter (fun p => p.1 ≠ j)
def tallyOf (l : List (Nat × Nat)) (j : Nat) : Nat := match l.find? (fun p => p.1 == j) with | some p => p.2 | none => 0

/-- A record fails (R539). -/
def State.e2eFail (s : State) (i : Fin 2) (bit : Nat) : State :=
  (s.count (.safe i) 0x20 31 0 1).orReg (.safe i) 0x1C (BitVec.ofNat 32 (2 ^ bit))

/-- One record of the output ledger is checked (R538, R539). -/
def State.checkRecord (s : State) (i : Fin 2) (page a : Nat) : State :=
  let ctr := s.num a 4
  let ts := s.num (a + 4) 8
  let tx := s.num (a + 16) 8
  let bad := (s.byte (a + 29)).getLsbD 0
  match s.dataEntry page (s.num (a + 12) 2) with
  | none => if bad then s.e2eFail i 3 else s
  | some (j, age, period) =>
    let k := s.isl[i]
    let prev := k.outRecs.find? (fun r => r.id == j)
    let fails := bad || decide (ts + age * 100000 < tx) ||
      (match prev with | some p => (!p.exempt && ctr != (p.ctr + 1) % 2 ^ 32) || decide (ts ≤ p.ts) | none => false)
    let late := match prev with | some p => decide (p.tx + 3 * period * 1000 < tx) | none => false
    let g := if fails then 0 else tallyOf k.good j + 1
    let o := if period == 0 || late then 0 else tallyOf k.onTime j + 1
    let s := s.modIsl i (fun k => { k with
      outRecs := ⟨j, ctr, ts, tx, false⟩ :: k.outRecs.filter (fun r => r.id ≠ j), good := tally k.good j g, onTime := tally k.onTime j o })
    let s := if fails then
        let s := s.e2eFail i 3
        if (s.isl[i]).active 0x11 j then s else s.raiseTrig i 0x11 j 3
      else if 256 ≤ g then s.clearTrig i 0x11 j else s
    if 16 ≤ o then s.clearTrig i 0x12 j else s

/-- New ledger records. -/
def State.ledgerPoll (s : State) (i : Fin 2) (page : Nat) : State :=
  let wr : W32 := BitVec.ofNat 32 (s.num (page + 0x18) 4)
  let base := s.num (page + 8) 8
  let n := (wr - (s.isl[i]).ledRead).toNat
  let s := if 2048 < n then s.ringOverrun i 1 else s
  let first := if 2048 < n then wr - 2048 else (s.isl[i]).ledRead
  let s := s.modIsl i (fun k => { k with ledRead := wr })
  (List.range (min n 2048)).foldl (fun s j => s.checkRecord i page (base + 32 * ((first.toNat + j) % 2048))) s

/-- One descriptor is checked (R322, R540). -/
def State.checkDescriptor (s : State) (i : Fin 2) (a : Nat) : State :=
  let port := (s.byte (a + 2)).toNat
  let ctr := s.num (a + 4) 4
  let k := s.isl[i]
  let fails := match k.inPrev.find? (fun p => p.1 == port) with
    | some (_, c, ex) => !ex && ctr != (c + 1) % 2 ^ 32
    | none => false
  let g := if fails then 0 else tallyOf k.inGood port + 1
  let s := s.modIsl i (fun k => { k with inPrev := (port, ctr, false) :: k.inPrev.filter (fun p => p.1 ≠ port), inGood := tally k.inGood port g })
  if fails then
    let s := s.e2eFail i 4
    if (s.isl[i]).active 0x13 port then s else s.raiseTrig i 0x13 port 1
  else if 64 ≤ g then s.clearTrig i 0x13 port else s

/-- New descriptors (log entry 53). -/
def State.ingestPoll (s : State) (i : Fin 2) (page : Nat) : State :=
  let base := s.num (page + 0x10) 8
  let size := s.num (page + 0x1C) 4
  let wr := s.reg .ingest 0x420
  let n := if base = 0 ∨ size = 0 then 0 else min size (wr - (s.isl[i]).inRead).toNat
  let s := s.modIsl i (fun k => { k with inRead := wr })
  (List.range n).foldl (fun s j => s.checkDescriptor i (base + 32 * ((wr.toNat + 2 ^ 32 - n + j) % size))) s

/-! ### The poll -/

/-- Whether an island polls the safety page (R529, R615). -/
def State.polls (s : State) (i : Fin 2) : Bool :=
  (s.isl[i]).up && (s.isl[i]).func.getLsbD 4 && s.hubLink i && dramOk (s.safePage i) && dramWin (s.safePage i) == some 4

/-- SAFETY_POLL (R530, R539, R540). The island's time follows the hub's NOW, but not while the hub is silent (R552). -/
def State.safetyPoll (s : State) (i : Fin 2) : State :=
  if !s.polls i then s
  else
    let page := s.safePage i
    let s := (s.isl[i]).clears.foldl (fun s c => s.clearTrig i c.1 c.2) s
    let beat : W32 := BitVec.ofNat 32 (s.num (page + 4) 4)
    let s := s.modIsl i (fun k => { k with clears := [], time := if k.active 0x15 0 then k.time else s.hub.tb.now, beat := beat })
    let wr : W32 := BitVec.ofNat 32 (s.num page 4)
    let s := if 256 < (wr - (s.isl[i]).mbRead).toNat then (s.modIsl i (fun k => { k with mbRead := wr - 256 })).ringOverrun i 0 else s
    let s := s.mailbox i page wr [] 256
    let s := if (s.isl[i]).kindSeen then (s.ledgerPoll i page).ingestPoll i page else s
    s.refresh i

/-- HUB_SILENT: HUB_BEAT has stood still for 10 ms (R530, R615). -/
def State.hubSilent (s : State) (i : Fin 2) : State :=
  let k := s.isl[i]
  if !s.polls i || !k.func.getLsbD 3 || s.num (s.safePage i + 4) 4 != k.beat.toNat || k.active 0x15 0 then s
  else (s.orReg (.safe i) 0x1C 2#32).raiseTrig i 0x15 0 4

/-- OUTPUT_MISSING: a periodic data ID has had no record for 3 × PERIOD (R539, R615). -/
def State.outputMissing (s : State) (i : Fin 2) (idx : Fin 32) : State :=
  let k := s.isl[i]
  if !s.polls i || !k.kindSeen || s.num (s.safePage i + 0x104 + 8 * idx) 4 == 0 then s
  else
    let s := (s.orReg (.safe i) 0x1C 8#32).modIsl i (fun k => { k with onTime := tally k.onTime idx 0 })
    if k.active 0x12 idx then s else s.raiseTrig i 0x12 idx 3

/-! ### The cross-link -/

/-- The frame that an island sends (R522). -/
def State.linkFrame (s : State) (i : Fin 2) : BitVec 64 :=
  let k := s.isl[i]
  let low : BitVec 64 := BitVec.ofNat 64 (k.frameCtr.toNat * 2 ^ 24 + bit (s.armed i) * 2 ^ 17 + bit k.sl4 * 2 ^ 16 + min 255 k.trigs.length * 256 + k.own)
  low ||| ((crc8 low).setWidth 64 <<< 56)

/-- XLINK_SEND (R522). -/
def State.xlinkSend (s : State) (i : Fin 2) : State :=
  if !(s.isl[i]).up then s
  else s.modIsl i (fun k => { k with sentFrame := s.linkFrame i, frameCtr := k.frameCtr + 1 })

/-- XLINK_FRAME: a frame with a bad CRC is discarded (R522). -/
def State.xlinkFrame (s : State) (i : Fin 2) (f : BitVec 64) : State :=
  if !(s.isl[i]).up then s
  else if crc8 (f &&& 0x00FFFFFFFFFFFFFF#64) ≠ (f >>> 56).setWidth 8 then s.orReg (.safe i) 0x1C 4#32
  else ((s.modIsl i (fun k => { k with peer := f.toNat % 8, peerArm := f.getLsbD 17, fresh := true, gotFrame := true, frames := f :: k.frames.take 15 })).refresh i)

/-- PEER_LOST: no good frame within its time (R522, R614). -/
def State.peerLost (s : State) (i : Fin 2) : State :=
  if !(s.isl[i]).up then s
  else
    let s := s.modIsl i (fun k => { k with fresh := false })
    if (s.isl[i]).active 0x16 0 then s.refresh i else s.raiseTrig i 0x16 0 4

/-! ### Fault reports -/

/-- PAIR_MISMATCH or CELL_PARITY is raised for a die; a second raise within 600 s fences it (R531). -/
def State.pairTrig (s : State) (i : Fin 2) (id : Nat) (d : Fin 4) : State :=
  let k := s.isl[i]
  let again := k.pairAt.any (fun x => x.1 == d.val && decide (k.time.toNat ≤ x.2 + 600000000000))
  let s := s.modIsl i (fun q => { q with
    pairAt := tally q.pairAt d q.time.toNat,
    pairSeen := if k.active id d then q.pairSeen else q.pairSeen.filter (fun x => !(x.1 == id && x.2.1 == d.val)) })
  let s := if k.active id d then s else s.raiseTrig i id d 3
  if again then s.fenceDie d else s

/-- A unit has completed its sequence (R547, R548). -/
def State.seqDone (s : State) (i : Fin 2) (d : Fin 5) (u : Nat) : State :=
  let k := s.isl[i]
  let done := (d.val, u, k.time.toNat) :: k.tested.filter (fun x => !(x.1 == d.val && x.2.1 == u))
  let s := s.modIsl i (fun k => { k with tested := done, starved := k.starved.filter (fun x => x.1 ≠ d.val * 32 + u) })
  let recent := fun (v : Nat) => done.any (fun x => x.1 == d.val && x.2.1 == v && decide (k.time.toNat ≤ x.2.2 + 100000000))
  let all := if d.val < 4 then (List.range 19).all recent else done.all (fun x => x.1 != d.val || recent x.2.1)
  if all then (s.modIsl i (fun k => { k with starved := k.starved.filter (fun x => x.1 / 32 ≠ d.val) })).clearTrig i 0x0E d else s

/-- R549: a failed slice fences its die, or takes the part to SL4 on the hub; in a live readmission it ends that (R582). -/
def State.sliceFail (s : State) (i : Fin 2) (d : Fin 5) : State :=
  let s := s.orReg (.safe i) 0x54 (BitVec.ofNat 32 (2 ^ d.val))
  if h : d.val < 4 then
    let c : Fin 4 := ⟨d.val, h⟩
    let s := { s with hlth := { s.hlth with sliceFenced := if s.hlth.sliceFenced.contains c then s.hlth.sliceFenced else c :: s.hlth.sliceFenced } }
    (s.readmitEnd c true).fenceDie c
  else s.raiseTrig i 0x1A 0 4

/-- FAULT_REPORT: an island acts on a report (R531, R549, R572, R602). -/
def State.faultReport (s : State) (i : Fin 2) (r : Report) : State :=
  let s := { s with inbox := s.inbox.set i ((s.inbox[i]).erase r) }
  if !(s.isl[i]).up then s
  else
    let s := if i = 1 then (match healthOf r with | some (p, w) => s.healthAdd p w | none => s) else s
    match r with
    | .pairMismatch d => s.pairTrig i 0x0F d
    | .cellParity c _ => s.pairTrig i 0x10 c.die
    | .cdcStall dom => s.clockFault i dom
    | .sliceFail d => s.sliceFail i d
    | .seqDone d u => s.seqDone i d u
    | .hotTrip _ => s.raiseTrig i 0x1A 0 4
    | _ => s

/-- PAIR_TRIGGER_CLEAR: 1 s after the first JOB_KIND of SL3 that the island applied while they were active; of a die's two triggers, those that met
the earliest such JOB_KIND (R531). -/
def State.pairTriggerClear (s : State) (i : Fin 2) (d : Fin 4) : State :=
  match (s.isl[i]).pairSeen.find? (fun x => x.2.1 == d.val) with
  | none => s
  | some f =>
    if !(s.isl[i]).up then s
    else
      let due := (s.isl[i]).pairSeen.filter (fun x => x.2 == f.2)
      due.foldl (fun s x => s.clearTrig i x.1 d) (s.modIsl i (fun k => { k with pairSeen := k.pairSeen.filter (fun x => x.2 != f.2) }))

/-! ### Control and status -/

/-- What R629 asks before an island's firmware sets ARM: IMAGES and JOB, a JOB_KIND and a level below SL4, three good ledger records in a row of every
periodic data ID, a fresh frame of the peer, and no WRITE or JTAG scope granted on the hub or an island in PRODUCTION (log entry 54). -/
def State.mayArm (s : State) (i : Fin 2) : Bool :=
  let k := s.isl[i]
  let page := s.safePage i
  k.up && k.func.getLsbD 21 && k.func.getLsbD 22 && k.kindSeen && decide (k.level < 4) && k.fresh &&
    (List.range 32).all (fun j => s.num (page + 0x100 + 8 * j) 8 == 0 || s.num (page + 0x104 + 8 * j) 4 == 0 || decide (3 ≤ tallyOf k.good j)) &&
    (List.finRange 3).all (fun o => (s.boots[o]).otp.lc != .production || s.fld (.boot o) 0xA0 2 1 == 0)

/-- SAFE_ARM: island firmware sets ARM, where R629 lets it (R523, R553). -/
def State.safeArm (s : State) (i : Fin 2) : State := if s.mayArm i then (s.orReg (.safe i) 4 1#32).refresh i else s

/-- FORCE_SAFE_WRITE (R553). -/
def State.forceSafe (s : State) (i : Fin 2) : State := if (s.isl[i]).up then (s.orReg (.safe i) 4 2#32).raiseTrig i 0x1A 0 4 else s

/-- The status frame (R552). -/
def State.statusBytes (s : State) (i : Fin 2) : List Byte :=
  let k := s.isl[i]
  let invalid := k.sl4 || s.faultLow
  let v := k.level + bit invalid * 8 + k.own * 16 + k.peer * 256 + bit (s.isl[(0 : Fin 2)]).valid * 2048 + bit (s.isl[(1 : Fin 2)]).valid * 4096
  withTrailer (e2eHeader k.statusCtr.toNat k.time.toNat (Config.statusId i).toNat (bit invalid + 2 * k.level) ++ toLe 4 v ++
    toLe 8 k.trigWord.toNat ++ toLe 4 (s.islReady i).toNat ++ toLe 4 (s.reg (.safe i) 0x10).toNat ++ List.replicate 24 0)

/-- A frame leaves on both CAN ports of an island. -/
def State.bothPorts (s : State) (i : Fin 2) (l : List Byte) : State := (s.emit (.islCan i 0 l)).emit (.islCan i 1 l)

/-- STATUS_FRAME (R550, R552). -/
def State.statusFrame (s : State) (i : Fin 2) : State :=
  if !(s.isl[i]).up then s
  else (s.bothPorts i (s.statusBytes i)).modIsl i (fun k => { k with statusCtr := k.statusCtr + 1 })

/-! ### Self-test -/

/-- The sequence of a unit: whether each slice is a logic slice, and its length in µs (R541). -/
def testSeq (u : Nat) : List (Bool × Nat) :=
  if u < 16 then List.replicate 4 (true, 150) ++ List.replicate 8 (false, 200)
  else if u = 16 then List.replicate 2 (true, 100) ++ [(false, 200)]
  else if u = 17 then (true, 100) :: List.replicate 8 (false, 200)
  else List.replicate 2 (true, 200) ++ [(false, 100)]

/-- A window of the schedule, in ns after the frame mark: of a unit and a kind (R542). -/
def State.windows (s : State) (d : Fin 4) (u : Nat) (safety : Bool) : List (Nat × Nat) :=
  ((List.range 32).map (fun k => Config.testEntry (s.reg .job 0x14).toNat d k)).filterMap (fun e =>
    if e.getLsbD u && e.getLsbD 31 == safety then
      some ((e.extractLsb' 32 16).toNat * 1000, ((e.extractLsb' 32 16).toNat + (e.extractLsb' 48 16).toNat) * 1000)
    else none)

/-- R543: a slice may start: inside a grant, before any safety window; in step 4 of a live readmission, when the die's modules are in service again,
every unit is granted (R581). -/
def State.sliceOk (s : State) (d : Fin 4) (u len : Nat) : Bool :=
  if s.fenced (Fin.ofNat 7 d) then s.relinking (Fin.ofNat 7 d) && s.modsUp (Fin.ofNat 7 d)
  else match (s.tests[d]).mark with
  | none => false
  | some m =>
    let t := s.now - m
    let e := t + len * 1000
    let p := s.instPeriod
    s.jobState == 2 && (s.windows d u false).any (fun w => decide (w.1 ≤ t ∧ e ≤ w.2)) &&
      !(s.windows d u true).any (fun w => decide (w.1 < e ∧ t < w.2) || (p != 0 && decide (w.1 + p < e ∨ t + p < w.2)))

/-- SLICE_START (R543). -/
def State.sliceStart (s : State) (d : Fin 4) (u : Fin 19) : State :=
  let k := s.tests[d]
  match (testSeq u)[tallyOf k.pos u]? with
  | none => s
  | some (logic, len) =>
    if k.slices.any (fun r => r.unit == u || (r.logic && logic)) || !s.sliceOk d u len then s
    else
      let s : State := { s with tests := s.tests.set d { k with slices := k.slices ++ [⟨u, logic, s.now⟩] } }
      s.grantLower

/-- SLICE_END: the unit's sequence advances, and its end or a failure is reported (R547). -/
def State.sliceEnd (s : State) (d : Fin 4) (u : Fin 19) (pass : Bool) : State :=
  let k := s.tests[d]
  if !k.slices.any (fun r => r.unit == u) then s
  else
    let n := tallyOf k.pos u + 1
    let last := (testSeq u).length ≤ n
    let k := { k with slices := k.slices.filter (fun r => r.unit ≠ u), pos := if pass then tally k.pos u (if last then 0 else n) else k.pos,
                      done := if pass ∧ last ∧ !k.done.contains u.val then u.val :: k.done else k.done }
    let s := { s with tests := s.tests.set d k }
    if !pass then s.report (.sliceFail (d.castLE (by omega))) else if last then s.report (.seqDone (d.castLE (by omega)) u) else s

/-- TEST_STARVED: a unit has not completed for 100 ms, or for the next 100 ms in a row (R548). -/
def State.testStarved (s : State) (i : Fin 2) (d : Fin 5) (u : Fin 19) : State :=
  let k := s.isl[i]
  if !k.up then s
  else
    let n := tallyOf k.starved (d.val * 32 + u) + 1
    let s := s.modIsl i (fun k => { k with starved := tally k.starved (d.val * 32 + u) n })
    let old := (k.trigs.find? (fun t => t.id == 0x0E && t.inst == d.val)).map (fun t => t.level)
    s.raiseTrig i 0x0E d (max (old.getD 1) (min 2 n))

/-- FRAME_MARK: the schedules of the compute dies start again; a mark before its time aborts what runs (R542, R544). -/
def State.frameMark (s : State) : State :=
  { s with tests := Vector.ofFn (fun (d : Fin 4) =>
      let k := s.tests[d]
      if s.fenced (Fin.ofNat 7 d.val) || !s.edgeUp 4 (Fin.ofNat 7 d.val) then k
      else
        let early := match k.mark with | some m => decide (s.now < m + s.instPeriod) | none => false
        { k with mark := some s.now, slices := if early then [] else k.slices }) }

/-! ### Meanings of events -/

/-- FRAME_MARK. -/
def execFrameMark (s : State) : Out := .next (s.frameMark)
/-- HUB_FAULT_N_FALL. -/
def execHubFaultNFall (s : State) : Out := .next (s.hubFaultNFall)
/-- XLINK_SEND. -/
def execXlinkSend (i : Isl) (s : State) : Out := .next (s.xlinkSend i.num)
/-- XLINK_FRAME. -/
def execXlinkFrame (i : Isl) (f : BitVec 64) (s : State) : Out := .next (s.xlinkFrame i.num f)
/-- PEER_LOST. -/
def execPeerLost (i : Isl) (s : State) : Out := .next (s.peerLost i.num)
/-- SAFETY_POLL. -/
def execSafetyPoll (i : Isl) (s : State) : Out := .next (s.safetyPoll i.num)
/-- HUB_SILENT. -/
def execHubSilent (i : Isl) (s : State) : Out := .next (s.hubSilent i.num)
/-- OUTPUT_MISSING. -/
def execOutputMissing (i : Isl) (idx : Fin 32) (s : State) : Out := .next (s.outputMissing i.num idx)
/-- FAULT_REPORT. -/
def execFaultReport (i : Isl) (r : Report) (s : State) : Out := .next (s.faultReport i.num r)
/-- FAULT_N_LOW. -/
def execFaultNLow (i : Isl) (s : State) : Out := .next (s.faultNLow i.num)
/-- SAFE_ARM. -/
def execSafeArm (i : Isl) (s : State) : Out := .next (s.safeArm i.num)
/-- FORCE_SAFE_WRITE. -/
def execForceSafeWrite (i : Isl) (s : State) : Out := .next (s.forceSafe i.num)
/-- STATUS_FRAME. -/
def execStatusFrame (i : Isl) (s : State) : Out := .next (s.statusFrame i.num)
/-- PAIR_TRIGGER_CLEAR. -/
def execPairTriggerClear (i : Isl) (d : Fin 4) (s : State) : Out := .next (s.pairTriggerClear i.num d)
/-- FUNC_READY_POLL. -/
def execFuncReadyPoll (i : Isl) (s : State) : Out := .next (s.funcReadyPoll i.num)
/-- SLICE_START. -/
def execSliceStart (d : Fin 4) (unit : Fin 19) (s : State) : Out := .next (s.onDie d fun s => s.sliceStart d unit)
/-- SLICE_END. -/
def execSliceEnd (d : Fin 4) (unit : Fin 19) (pass : Bool) (s : State) : Out := .next (s.onDie d fun s => s.sliceEnd d unit pass)
/-- TEST_STARVED. -/
def execTestStarved (i : Isl) (d : Fin 5) (unit : Fin 19) (s : State) : Out := .next (s.testStarved i.num d unit)

end Sys2Proof.Machine
end

