-- ==== Sys2Proof/Machine/Cellar.lean ====
section
/-! DEFINITION. The Cellar: valid shards and committed frames, and the restore of a job's start (R559 to R570). -/

namespace Sys2Proof.Machine

/-! ### GF(256) -/

/-- Multiplication by α: a shift and a conditional XOR with 0x1D (R560). -/
def gfAlpha (b : Byte) : Byte := if b.getLsbD 7 then (b <<< 1) ^^^ 0x1D#8 else b <<< 1

/-- αⁱ times a byte. -/
def gfPow (i : Nat) (b : Byte) : Byte := (List.range i).foldl (fun (x : Byte) _ => gfAlpha x) b

/-- The inverse of αⁱ, α being of order 255. -/
def gfPowInv (i : Nat) (b : Byte) : Byte := gfPow ((255 - i % 255) % 255) b

/-- Bytes added place by place. -/
def xorBytes : List Byte → List Byte → List Byte := List.zipWith (fun a b => a ^^^ b)

/-- The parity bytes of four data bytes (R560). -/
def parity0 (d : List Byte) : Byte := d.foldl (fun a b => a ^^^ b) 0
def parity1 (d : List Byte) : Byte := d.zipIdx.foldl (fun (a : Byte) p => a ^^^ gfPow p.2 p.1) 0

/-- Division by αⁱ ⊕ αʲ for i < j: the exponent of that sum, found among the powers of α. -/
def gfDivSum (i j : Nat) (v : Byte) : Byte :=
  let d := gfPow i 1 ^^^ gfPow j 1
  match (List.range 255).find? (fun n => gfPow n 1 == d) with
  | some n => gfPowInv n v
  | none => 0

/-- R570: the four data bytes from those present and from the parity bytes present. -/
def decodeByte (d : List (Option Byte)) (p0 p1 : Option Byte) : List Byte :=
  let known := d.map (fun x => x.getD 0)
  let s0 := p0.getD 0 ^^^ parity0 known
  let s1 := p1.getD 0 ^^^ parity1 known
  match (List.range 4).filter (fun i => (d[i]?.getD none).isNone) with
  | [] => known
  | [i] => known.set i (if p0.isSome then s0 else gfPowInv i s1)
  | i :: j :: _ =>
    let di := gfDivSum i j (s1 ^^^ gfPow j s0)
    (known.set i di).set j (s0 ^^^ di)

/-! ### Shards -/

/-- A shard that carries a valid header (R564): its number, frame, length, writing job and payload. -/
structure Shard where
  num : Nat
  frame : Nat
  len : Nat
  job : Nat
  data : List Byte
  deriving DecidableEq, Repr

/-- FOLD of R564: the XOR of every 32-byte unit. -/
def foldBytes (l : List Byte) : List Byte :=
  (List.range (l.length / 32)).foldl (fun a i => xorBytes a ((l.drop (32 * i)).take 32)) (List.replicate 32 0)

/-- The image of the resident set with a JOB_ID. -/
def State.imageOf (s : State) (job : Nat) : Option Nat := s.job.eligible.find? (fun a => s.num (a + 0xC) 4 == job)

/-- The header and payload in slot `k` of a region, where they are valid (R561, R564). -/
def State.shardAt (s : State) (region k : Nat) : Option Shard × State :=
  let h := region + 0x1000 * k
  let p := region + 0x10000 + 0x400000 * k
  let s := s.touch h 64
  let f := fun (o : Nat) => s.num (h + o) 4
  let len := f 12
  if s.isMarked h 64 || f 0 ≠ 0x4C4C4543 || f 60 ≠ (crc32c (s.bytes h 60)).toNat || 2 ^ 24 < len || len % 256 ≠ 0 then (none, s)
  else
    let s := s.touch p (len / 4)
    let data := s.bytes p (len / 4)
    let num := f 8 % 8
    let place := match s.imageOf (f 16) with | some img => decide (num < 6) && Config.shardRegion img num == region | none => false
    if s.isMarked p (len / 4) || !place || foldBytes data ≠ s.bytes (h + 24) 32 then (none, s)
    else (some ⟨num, f 4, len, f 16, data⟩, s)

/-- Whether the reads of a die reach a region (R454): a region of a fenced die, or behind a lost edge, gives nothing. -/
def State.regionReads (s : State) (d : Fin 4) (region : Nat) : Bool := s.routeOk (Fin.ofNat 7 d) (s.route (Fin.ofNat 7 d) (dieOf region))

/-- R567 step 1: both slots of every region that a resident image's shard map names, and of the staging regions, as a die reads them. -/
def State.shards (s : State) (d : Fin 4) : List Shard × State :=
  let regions := (s.job.eligible.flatMap (fun img => (List.range 6).map (fun i => Config.shardRegion img i))).eraseDups
  ((regions.filter (s.regionReads d)).flatMap (fun r => [(r, 0), (r, 1)])).foldl (fun (p : List Shard × State) r =>
    let (x, s) := p.2.shardAt r.1 r.2
    (p.1 ++ x.toList, s)) ([], s)

/-- The shards of the same record. -/
def sameRecord (l : List Shard) (a : Shard) : List Shard := l.filter (fun b => b.frame == a.frame && b.len == a.len && b.job == a.job)
/-- R566: a frame is committed when four of its shards carry valid headers. -/
def committed (l : List Shard) (a : Shard) : Bool := decide (4 ≤ ((sameRecord l a).map (·.num)).eraseDups.length)

/-- R567 step 2: the newest of the committed frames that are not too old. -/
def newestFrame (l : List Shard) (now : Int) (age : Nat) : Option Shard :=
  (l.filter (fun a => committed l a && decide (sgn 32 ((now - a.frame) % 2 ^ 32).toNat ≤ (age : Int)))).foldl (fun (best : Option Shard) a =>
    match best with
    | none => some a
    | some b => if a.frame ≠ b.frame ∧ (a.frame + 2 ^ 32 - b.frame) % 2 ^ 32 < 2 ^ 31 then some a else some b) none

/-- The record of a frame (R559, R570), the data shards that were rebuilt, and those of its shards that are valid. -/
def rebuild (l : List Shard) (a : Shard) : List Byte × Nat × Nat :=
  let at_ := fun (n : Nat) => (sameRecord l a).find? (fun b => b.num == n)
  let byte := fun (n i : Nat) => (at_ n).bind (fun b => b.data[i]?)
  let rows := (List.range (a.len / 4)).map (fun i => decodeByte ((List.range 4).map (fun n => byte n i)) (byte 4 i) (byte 5 i))
  let mask := fun (f : Nat → Bool) (n : Nat) => (List.range n).foldl (fun m k => m + bit (f k) * 2 ^ k) 0
  ((List.range 4).flatMap (fun n => rows.map (fun r => r.getD n 0)), mask (fun n => (at_ n).isNone) 4, mask (fun n => (at_ n).isSome) 6)

/-- The restore of one die (R567, R569): the newest committed frame that it can read is unpacked, and the restore record written; whether it is EMPTY. -/
def State.restoreDie (s : State) (img : Nat) (d : Fin 4) : Bool × State :=
  let (l, s) := s.shards d
  let best := newestFrame l (s.instantOf s.now) ((Config.restoreAge img).getD 30)
  let put := fun (s : State) (rec : List Byte) =>
    (Config.restoreCells img d).foldl (fun (s : State) p => s.write (lsBase ⟨d, Fin.ofNat 16 p.1⟩ + p.2 % 0x600000 / 16 * 16) rec) s
  match best with
  | none => (true, put s (toLe 4 0 ++ toLe 4 1 ++ toLe 8 0))
  | some a =>
    let (rec, built, valid) := rebuild l a
    let s := (Config.unpackList img d).foldl (fun (s : State) m => s.write m.2.1 ((rec.drop m.1).take m.2.2)) s
    (false, put s (toLe 4 a.frame ++ toLe 4 (valid * 256 + built * 65536) ++ toLe 4 a.job ++ toLe 4 0))

/-- R567: the restore of a job's start on its dies; RESTORE follows with RESTORE_COMPLETE, EMPTY when any die's is (R569). -/
def State.restore (s : State) (img : Nat) (dies : List (Fin 4)) : State :=
  let (empty, s) := dies.foldl (fun (p : Bool × State) d => let (e, s) := p.2.restoreDie img d; (p.1 || e, s)) (false, s)
  { s with job := { s.job with restore := some empty } }

end Sys2Proof.Machine
end

