-- ==== Sys2Proof/Machine/Health.lean ====
section
/-! DEFINITION. SIB's health scores (R571 to R577), aging monitors (R694 to R698), live readmission (R578 to R583) and the training of DRAM
(R22, R611). -/

namespace Sys2Proof.Machine

def State.modHlth (s : State) (f : Health → Health) : State := { s with hlth := f s.hlth }

/-! ### Parts -/

/-- The class of a part (R571), none for a number that is not assigned. -/
def partClass (n : Nat) : Option Nat :=
  if n < 7 then some 0 else if 8 ≤ n ∧ n < 44 then some 1 else if 48 ≤ n ∧ n < 74 then some 2 else if 80 ≤ n ∧ n < 84 then some 3 else none

/-- The level that HEALTH demands for a part at LIMIT (R575). -/
def partDemand (n : Nat) : Nat :=
  if n < 4 ∨ (8 ≤ n ∧ n < 40) then 2 else if n = 4 ∨ (40 ≤ n ∧ n < 44) then 3 else if 48 ≤ n ∧ n < 72 then 1 else 2

/-- The compute die that a part at LIMIT has fenced (R575). -/
def partDie (n : Nat) : Option (Fin 4) := if n < 4 then some (Fin.ofNat 4 n) else if 8 ≤ n ∧ n < 40 then some (Fin.ofNat 4 ((n - 8) / 8)) else none

/-- The thresholds of a class; a LIMIT below WARN is taken as WARN (R574, R585). -/
def State.warnAt (s : State) (c : Nat) : Nat := (s.reg .hlth (0x80 + 8 * c)).toNat
def State.limitAt (s : State) (c : Nat) : Nat := max (s.warnAt c) (s.reg .hlth (0x84 + 8 * c)).toNat

/-- The score of a part: the current bucket and the 99 before it; at least LIMIT where a counter was read at its holding value. -/
def State.score99 (s : State) (n c : Nat) : Nat :=
  let sum := s.hlth.buckets.foldl (fun a b => a + sparseGet (fun _ => 0) n b) 0
  min 0xFFFFFFFF (if s.hlth.held.contains n then max sum (s.limitAt c) else sum)

/-- One part is evaluated (R574, R575). -/
def State.evalPart (s : State) (n : Nat) : State :=
  match partClass n with
  | none => s
  | some c =>
    let v := s.score99 n c
    let warn := decide (s.warnAt c ≤ v)
    let limit := decide (s.limitAt c ≤ v)
    let s := s.setReg .hlth (0x100 + 4 * n) (BitVec.ofNat 32 v)
    let s := s.setFld .hlth (0x40 + 4 * (n / 32)) (n % 32) (n % 32) (bit warn)
    let s := s.setFld .hlth (0x50 + 4 * (n / 32)) (n % 32) (n % 32) (bit limit)
    if limit then
      let s := if (s.isl[(1 : Fin 2)]).active 0x19 n then s else s.raiseTrig 1 0x19 n (partDemand n)
      match partDie n with | some d => s.fenceDie d | none => s
    else if warn then s
    else if (s.isl[(1 : Fin 2)]).active 0x19 n then s.clearTrig 1 0x19 n else s

/-- Ones in the four words of a part bitmap. -/
def State.partCount (s : State) (o : Nat) : Nat := (List.range 4).foldl (fun a k => a + popcNat (s.reg .hlth (o + 4 * k))) 0

/-- Every part is evaluated. -/
def State.evalParts (s : State) : State :=
  let s := (List.range 84).foldl (fun s n => s.evalPart n) s
  s.setReg .hlth 8 (BitVec.ofNat 32 (s.partCount 0x50 * 256 + s.partCount 0x40))

/-! ### Counters -/

/-- A counter is read: its growth since the last reading counts for its part; a reading below the last one follows a reset (R572). -/
def State.readCounter (s : State) (a v hold part w : Nat) : State :=
  let old := sparseGet (fun _ => 0) a s.hlth.last
  let n := if v < old then v else v - old
  let s := s.modHlth (fun h => { h with last := sparseSet (fun _ => 0) a v h.last, held := if v = hold ∧ !h.held.contains part then part :: h.held else h.held })
  if n = 0 then s else s.healthAdd part (n * w)

/-- The counters of a compute die. -/
def State.readDie (s : State) (d : Fin 4) : State :=
  if s.fenced (Fin.ofNat 7 d.val) || !s.edgeUp 4 (Fin.ofNat 7 d.val) then s
  else
    let s := (List.finRange 16).foldl (fun (s : State) (i : Fin 16) =>
      let b := Blk.cell (CellId.num ⟨d, i⟩)
      s.readCounter (b.at 0x14) (s.fld b 0x14 15 0) 0xFFFF d 1) s
    s.readCounter ((Blk.loft d).at 8) (s.fld (.loft d) 8 15 0) 0xFFFF d 4

/-- The replay counters of the modules that are counted at a die, read over the hub's links (R571, R572). -/
def State.readReplays (s : State) (d : Fin 7) : State :=
  if s.fenced d || (d.val == 5 && !s.hubLink 0) || (decide (d.val < 4) && !s.edgeUp 4 d) then s
  else (List.range 10).foldl (fun s m =>
    match (if countEnd d m then modulePart d m else none) with
    | none => s
    | some p => s.readCounter ((Blk.d2d d).at (0x180 + 4 * m)) (s.reg (.d2d d) (0x180 + 4 * m)).toNat 0xFFFFFFFF p 1) s

/-- HEALTH_READ (R572, R574). -/
def State.healthRead (s : State) : State :=
  if !(s.isl[(1 : Fin 2)]).up then s
  else
    let s := if s.hubLink 1 then (List.finRange 7).foldl State.readReplays ((List.finRange 4).foldl State.readDie s) else s.readReplays 6
    s.evalParts

/-! ### Aging -/

/-- The nominal voltage of a rail channel, in 0.1 mV (R586, R591). -/
def railNom (ch : Nat) : Int := if ch = 5 then 8500 else if ch = 6 then 18000 else if ch = 7 then 9000 else 7500

/-- The die of aging monitor `j` of 24: four of each of dies 0 to 4, two of each island (R695). -/
def monDie (j : Nat) : Nat := if j < 20 then j / 4 else 5 + (j - 20) / 2

/-- Whether the first fraction is at most the second. -/
def fracLe (a b : Nat × Nat) : Bool := decide (a.1 * b.2 ≤ b.1 * a.2)
def fracInsert (x : Nat × Nat) : List (Nat × Nat) → List (Nat × Nat)
  | [] => [x]
  | y :: r => if fracLe x y then x :: y :: r else y :: fracInsert x r

/-- The median in units of 0.01 %, truncated; of an even number of values, the mean of the middle two (log entry 57). -/
def medianBp (l : List (Nat × Nat)) : Nat :=
  let v := l.foldr fracInsert []
  let a := (v[(l.length - 1) / 2]?).getD (0, 1)
  let b := (v[l.length / 2]?).getD (0, 1)
  (a.1 * b.2 + b.1 * a.2) * 10000 / (2 * a.2 * b.2)

/-- A valid measurement of a monitor: the first is its baseline, a later one gives a degradation (R697). -/
def ageMeasure (l : List AgeMon) (d j ns nr : Nat) : List AgeMon :=
  match l.find? (fun a => a.mon == j) with
  | none => l ++ [⟨d, j, (ns, nr), []⟩]
  | some a =>
    let g := (nr * a.base.1 - ns * a.base.2, nr * a.base.1)
    l.map (fun x => if x.mon = j then { a with vals := g :: a.vals.take 7 } else x)

/-- HLTH_AGE_v (R698, R706). -/
def State.ageWord (s : State) (v : Nat) : W32 :=
  let l := s.hlth.ages.filter (fun a => a.die == v && !a.vals.isEmpty)
  let deg := min 0xFFFF (l.foldl (fun m a => max m (medianBp a.vals)) 0)
  let warn := s.fld .hlth 0x320 15 0
  let limit := max warn (s.fld .hlth 0x320 31 16)
  if l.isEmpty then 0
  else BitVec.ofNat 32 (2 ^ 31 + bit (decide (limit ≤ deg)) * 2 ^ 30 + bit (decide (warn ≤ deg)) * 2 ^ 29 + deg)

/-- Every die is judged by the limits as they stand (R698). -/
def State.ageWords (s : State) : State := (List.range 7).foldl (fun s v => s.setReg .hlth (0x300 + 4 * v) (s.ageWord v)) s

/-- The unique device secret of a die (R625; log entry 33), and its identity's public key (R630). -/
def identSeed (o : Nat) : List Byte := (hmacSha512 (toLe 32 (Config.uds o).toNat) (("PHG74-IDENTITY").toList.map (fun c => BitVec.ofNat 8 c.toNat))).take 32
def identPub (o : Nat) : List Byte := ed25519Pub (identSeed o)

/-- SIB writes its record to flash (R573, R697, R705). -/
def State.healthFlash (s : State) : State :=
  s.modHlth (fun h => { h with flash := some ⟨h.buckets, s.reg .hlth 4, h.ages, sha512 (identPub 2)⟩ })

/-- The ADC channel of the logic rail of a die (R591): VDD_CD01, VDD_CD23, VDD_HD, an island's own VDD_SI. -/
def railChan (d : Nat) : Fin 8 := if d < 2 then 2 else if d < 4 then 3 else if d = 4 then 4 else 7

/-- Whether a die's rail sample lies within 2 % of its nominal value (R696): SIB's last one, of SIA's own rail SIA's. A rail that is down lies outside. -/
def State.railSteady (s : State) (d : Nat) : Bool :=
  let c := railChan d
  let v := (s.isl[(if d = 5 then 0 else 1 : Fin 2)]).rail[c]
  decide (98 * railNom c ≤ 100 * v ∧ 100 * v ≤ 102 * railNom c)

/-- HOUR_BOUNDARY: an hour during which PWROK was asserted ends: the buckets roll, the monitors are measured, and the record is written (R573, R694,
R696). -/
def State.hourBoundary (s : State) (counts : List (Nat × Nat)) : State :=
  if !(s.isl[(1 : Fin 2)]).up || !s.pwrok then s
  else
    let hours := s.reg .hlth 4 + 1
    let s := s.setReg .hlth 4 hours
    let s := if 20000 ≤ hours.toNat then s.orReg .hlth 0x324 0x80000000#32 else s
    let ages := (List.range 24).foldl (fun l j =>
      let (ns, nr) := counts.getD j (0, 0)
      if s.railSteady (monDie j) && decide (ns ≠ 0 ∧ nr ≠ 0) then ageMeasure l (monDie j) j ns nr else l) s.hlth.ages
    let s := s.modHlth (fun h => { h with ages := ages, buckets := [] :: h.buckets.take 99 })
    s.ageWords.healthFlash

/-- The pulses of SIB's sensor in the last whole 100 ms of its time, with the windows brought up to that time (R603). -/
def State.rollPulses (s : State) (i : Fin 2) : State :=
  s.modIsl i (fun k =>
    let n := k.time.toNat / 100000000
    if n = k.pulseAt then k
    else { k with pulseAt := n, pulsesLast := if n = k.pulseAt + 1 then k.pulses else 0, pulses := 0 })

/-- HEALTH_FRAME (R577). SIB's pulse count stands in bytes 56 to 59 where the implementation reports it there (R603; log entry 133). -/
def State.healthFrame (s : State) : State :=
  let s := if (s.isl[(1 : Fin 2)]).up then s.rollPulses 1 else s
  let k := s.isl[(1 : Fin 2)]
  if !k.up then s
  else
    let words := fun (o : Nat) => (List.range 4).flatMap (fun i => toLe 4 (s.reg .hlth (o + 4 * i)).toNat)
    let l := e2eHeader s.hlth.ctr.toNat k.time.toNat Config.healthId.toNat (bit (k.sl4 || s.faultLow) + 2 * k.level) ++
      toLe 4 (s.partCount 0x40 + 256 * s.partCount 0x50) ++ words 0x40 ++ words 0x50 ++ toLe 4 (s.reg .hlth 4).toNat ++ toLe 4 (if Config.pulsesSent then k.pulsesLast else 0)
    (s.bothPorts 1 (withTrailer l)).modHlth (fun h => { h with ctr := h.ctr + 1 })

/-- SIB's firmware sets the thresholds of its signed configuration (R574; log entry 117). -/
def State.healthLimits (s : State) : State :=
  (List.range 4).foldl (fun (s : State) c =>
    (s.setReg .hlth (0x80 + 8 * c) (Config.healthThresholds c).1).setReg .hlth (0x84 + 8 * c) (Config.healthThresholds c).2) s

/-- SIB restores its record at its start, unless it belongs to another part (R573, R705), and judges its parts by its own thresholds (R576). -/
def State.healthRestore (s : State) : State :=
  let s := { s with hlth := { Health.reset with flash := s.hlth.flash } }.healthLimits
  match s.hlth.flash with
  | some f =>
    if f.ident = sha512 (identPub 2) then
      let s := (s.modHlth (fun h => { h with buckets := f.buckets, ages := f.ages })).setReg .hlth 4 f.hours
      let s := if 20000 ≤ f.hours.toNat then s.orReg .hlth 0x324 0x80000000#32 else s
      s.ageWords.evalParts
    else s.orReg .hlth 0x324 0x40000000#32
  | none => s.orReg .hlth 0x324 0x40000000#32

/-! ### Readmission -/

/-- READMIT_TIMEOUT (R582). -/
def State.readmitTimeout (s : State) (d : Fin 4) : State := s.readmitEnd d true

/-- What lies in a compute die: its windows of the package map (R183). -/
def inDie (d pa : Nat) : Bool := decide (pa / 0x1000000000 = d ∨ (dieBase d ≤ pa ∧ pa < dieBase d + 0x100000000))

/-- PATH_TICK and REG_TICK of a step (R598). -/
def tickOf (st : Nat) : Nat × Nat := if st = 0 then (1300, 26) else if st = 1 then (1100, 22) else if st = 2 then (900, 18) else (650, 13)
def State.setTicks (s : State) (d : Fin 4) (st : Nat) : State :=
  (s.setReg (.path d) 0x28 (BitVec.ofNat 32 (tickOf st).1)).setReg (.reg (d.castLE (by omega))) 4 (BitVec.ofNat 32 (tickOf st).2)

/-- The state of a compute die after its reset. -/
def State.clearDie (s : State) (d : Fin 4) : State :=
  { s with
    cells := Vector.ofFn (fun (c : Fin 64) => if c.val / 16 = d.val then Cell.reset else s.cells[c]),
    lofts := s.lofts.set d Loft.reset, tlbs := s.tlbs.set d Tlb.reset, paths := s.paths.set d PathUnit.reset,
    tests := s.tests.set d DieTest.reset, links := s.links.set d (Vector.replicate 10 Link.reset),
    mem := s.mem.filter (fun p => !inDie d p.1), ecc := s.ecc.filter (fun p => !inDie d p.1), regs := s.regs.filter (fun p => !inDie d p.1),
    jobFaults := s.jobFaults.filter (fun p => p.1 ≠ d), stores := s.stores.filter (fun k => !inDie d k.pa), dramGib := s.dramGib.set d none,
    regPorts := s.regPorts.filter (fun p => p.1 / 32 ≠ d.val), crossings := s.crossings.filter (fun k => k.die.val ≠ d.val) }

/-- DIE_RESET: a fenced die in live readmission, its clock-stop lines released, is reset (R580, R581), and the crossings of its neighbours toward it flush
(R477, R478). It is not ready until its DRAM is trained again (R611), and it keeps its ladder step (R599). -/
def State.dieReset (s : State) (d : Fin 4) : State :=
  if !s.fenced (Fin.ofNat 7 d.val) || !s.readmitting d || s.clkStopped d then s
  else
    let x : Fin 7 := Fin.ofNat 7 d
    (neighbours x).foldl (fun (s : State) y => s.farReset y (Fin.ofNat 18 (linkDom x)))
      ((((s.clearDie d).setTicks d (s.fld .therm 8 (2 * d + 1) (2 * d))).clrReg (.boot 0) 4 (BitVec.ofNat 32 (2 ^ (5 + d.val) + 2 ^ (9 + d.val)))).modHlth
        (fun h => { h with resetDone := d :: h.resetDone.filter (fun x => x ≠ d) }))

/-- Compute dies whose trained capacities differ (R22). -/
def State.dramDiffer (s : State) : Bool :=
  let l := (List.finRange 4).filterMap (fun (d : Fin 4) => s.dramGib[d.val])
  l.any (fun a => l.any (fun b => a != b))

/-- DRAM_TRAINED: the ready bit sets; compute capacities that differ set error 8 and clear CD_READY (R22, R611, R628). A
fenced die trains its DRAM only in a live readmission, after its reset (R581). -/
def State.dramTrained (s : State) (w : Fin 5) (gib : Nat) : State :=
  if (match cdOf (w.castLE (by omega)) with
      | some d => s.fenced (Fin.ofNat 7 d) && !(s.readmitting d && s.hlth.resetDone.contains d && !s.clkStopped d)
      | none => false) then s else
  let s := { s with dramGib := s.dramGib.set w (some gib) }
  if w = 4 then (s.setFld (.boot 0) 0 7 0 (max 1 (s.fld (.boot 0) 0 7 0))).orReg (.boot 0) 4 0x14#32
  else
    let s := s.orReg (.boot 0) 4 (BitVec.ofNat 32 (2 ^ (5 + w.val)))
    if s.dramDiffer then (s.setFld (.boot 0) 0 15 8 8).clrReg (.boot 0) 4 0x1E00#32 else s

/-! ### Meanings of events -/

/-- HEALTH_READ. -/
def execHealthRead (s : State) : Out := .next (s.healthRead)
/-- HOUR_BOUNDARY. -/
def execHourBoundary (counts : List (Nat × Nat)) (s : State) : Out := .next (s.hourBoundary counts)
/-- HEALTH_FRAME. -/
def execHealthFrame (s : State) : Out := .next (s.healthFrame)
/-- READMIT_TIMEOUT. -/
def execReadmitTimeout (d : Fin 4) (s : State) : Out := .next (s.readmitTimeout d)
/-- DIE_RESET. -/
def execDieReset (d : Fin 4) (s : State) : Out := .next (s.dieReset d)
/-- DRAM_TRAINED. -/
def execDramTrained (w : Fin 5) (gib : Nat) (s : State) : Out := .next (s.dramTrained w gib)

end Sys2Proof.Machine
end

