-- ==== Sys2Proof/Machine/Lines.lean ====
section
/-! DEFINITION. The lines of the Hatch monitors: the form of a request, their text, their checksum and the answers (R641, R642, R644, R646). -/

namespace Sys2Proof.Machine

/-- ASCII of characters. -/
def ascii (l : List Char) : List Byte := l.map (fun c => BitVec.ofNat 8 c.toNat)

/-- A hex digit, and a number in `n` hex digits (R641). -/
def hexDigit (v : Nat) : Byte := BitVec.ofNat 8 (if v % 16 < 10 then 0x30 + v % 16 else 0x37 + v % 16)
def hexNum : Nat → Nat → List Byte
  | 0, _ => []
  | n + 1, v => hexNum n (v / 16) ++ [hexDigit v]

/-- The checksum: the sum modulo 256 of the bytes from the first tag digit to the byte before the asterisk. -/
def lineSum (l : List Byte) : Byte := l.foldl (fun a b => a + b) 0

/-- A whole line: its text, the asterisk, the checksum, CR and LF. -/
def lineOf (text : List Byte) : List Byte := text ++ [0x2A#8] ++ hexNum 2 (lineSum text).toNat ++ [0x0D#8, 0x0A#8]

/-- A hex digit in either case. -/
def isHex (b : Byte) : Bool :=
  let v := b.toNat
  decide ((0x30 ≤ v ∧ v ≤ 0x39) ∨ (0x41 ≤ v ∧ v ≤ 0x46) ∨ (0x61 ≤ v ∧ v ≤ 0x66))
def hexOf (b : Byte) : Nat := let v := b.toNat; if v ≤ 0x39 then v - 0x30 else v % 0x20 + 9
/-- The number that two hex digits spell. -/
def hexPair (a b : Byte) : Option Byte := if isHex a && isHex b then some (BitVec.ofNat 8 (hexOf a * 16 + hexOf b)) else none

/-- The fields of a text, separated by single spaces. -/
def lineSplit : List Byte → List (List Byte)
  | [] => [[]]
  | b :: r =>
    if b = 0x20#8 then [] :: lineSplit r
    else match lineSplit r with
      | [] => [[b]]
      | f :: fs => (b :: f) :: fs

/-- The fields of a request line, its tag first; none where the line breaks R641: ASCII, at most 256 bytes with its CR LF, a tag of two digits, a
command, no empty field, and a checksum that is right. -/
def lineFields (l : List Byte) : Option (List (List Byte)) :=
  let n := l.length
  let text := l.take (n - 5)
  let f := lineSplit text
  if 9 ≤ n ∧ n ≤ 256 ∧ l.all (fun b => decide (b.toNat < 0x80)) ∧ l.drop (n - 2) = [0x0D#8, 0x0A#8] ∧ l.getD (n - 5) 0 = 0x2A#8 ∧
      hexPair (l.getD (n - 4) 0) (l.getD (n - 3) 0) = some (lineSum text) ∧ (hexPair (l.getD 0 0) (l.getD 1 0)).isSome ∧
      (f.headD []).length = 2 ∧ 2 ≤ f.length ∧ f.all (fun x => !x.isEmpty) then some f
  else none

/-- The tag of a line, where its first two bytes are digits. -/
def lineTag (l : List Byte) : Option Byte := hexPair (l.getD 0 0) (l.getD 1 0)

/-- The monitors in the order of the BOOT_ blocks (R625). -/
def monNum : MonId → Fin 3 | .hd => 0 | .sia => 1 | .sib => 2

/-- The error codes (R646). -/
inductive LineErr where
  | line | locked | cmd | arg | priv | fault | state | checker | expired | refused
  deriving DecidableEq, Repr

def LineErr.text : LineErr → List Byte
  | .line => ascii ['L', 'I', 'N', 'E']
  | .locked => ascii ['L', 'O', 'C', 'K', 'E', 'D']
  | .cmd => ascii ['C', 'M', 'D']
  | .arg => ascii ['A', 'R', 'G']
  | .priv => ascii ['P', 'R', 'I', 'V']
  | .fault => ascii ['F', 'A', 'U', 'L', 'T']
  | .state => ascii ['S', 'T', 'A', 'T', 'E']
  | .checker => ascii ['C', 'H', 'E', 'C', 'K', 'E', 'R']
  | .expired => ascii ['E', 'X', 'P', 'I', 'R', 'E', 'D']
  | .refused => ascii ['R', 'E', 'F', 'U', 'S', 'E', 'D']

/-- A data line, and the line that ends a response. -/
def dataLine (tag : Byte) (fields : List (List Byte)) : List Byte :=
  lineOf (hexNum 2 tag.toNat ++ [0x20#8, 0x3D#8] ++ fields.flatMap (fun f => 0x20#8 :: f))
def endLine (tag : Byte) (err : Option LineErr) : List Byte :=
  lineOf (hexNum 2 tag.toNat ++ (match err with | none => ascii [' ', 'O', 'K'] | some e => ascii [' ', 'E', 'R', 'R', ' '] ++ e.text))

/-- The data lines of words: up to eight of them in a line (R641). -/
def wordLines (tag : Byte) : Nat → List W32 → List (List Byte)
  | 0, _ => []
  | _, [] => []
  | n + 1, l => dataLine tag ((l.take 8).map (fun w => hexNum 8 w.toNat)) :: wordLines tag n (l.drop 8)

/-- Lines of a monitor go out. -/
def State.sendLines (s : State) (m : MonId) (l : List (List Byte)) : State := { s with out := s.out ++ l.map (fun x => OutMsg.line m x) }

/-- The tag of the request that a monitor serves, which every line of its answer echoes (R641). -/
def State.reqTag (s : State) (m : MonId) : Byte := (s.uart[monNum m]).tag
def State.modUart (s : State) (m : MonId) (f : Uart → Uart) : State := { s with uart := s.uart.set (monNum m) (f (s.uart[monNum m])) }

/-- The answer to a request: words, and how it ended. -/
def State.reply (s : State) (m : MonId) (words : List W32) (err : Option LineErr) : State :=
  s.sendLines m (wordLines (s.reqTag m) words.length words ++ [endLine (s.reqTag m) err])

/-- The answer that carries one field of bytes, two hex digits each (R647). -/
def State.replyBytes (s : State) (m : MonId) (l : List Byte) : State :=
  s.sendLines m [dataLine (s.reqTag m) [l.flatMap (fun (b : Byte) => hexNum 2 b.toNat)], endLine (s.reqTag m) none]

/-- A line that breaks R641, or that found the buffer full, is answered ERR LINE, and nothing is executed (R642). The tag of a line whose first bytes are
no digits is a free value (log entry 71). -/
def State.badLine (s : State) (m : MonId) (l : List Byte) : State :=
  match lineTag l with
  | some t => s.sendLines m [endLine t (some .line)]
  | none => { s with free := s.free + 1 }.sendLines m [endLine (Config.freeVal 8 s.free) (some .line)]

end Sys2Proof.Machine
end

