-- ==== Sys2Proof/Machine/Jobs.lean ====
section
/-! DEFINITION. Jobs: images, starts, switches, stops, completion, aborts and faults (R410 to R434). -/

namespace Sys2Proof.Machine

def State.modJob (s : State) (f : JobSt → JobSt) : State := { s with job := f s.job }

/-! ### Images -/

/-- The reserved fields of a header, those of its CAP among them (R439), and of its section table are 0, and every section has a type of R411. -/
def State.imageClean (s : State) (img : Nat) : Bool :=
  let zero := fun (o n : Nat) => s.num (img + o) n == 0
  decide (s.img img 4 < 2 ^ 16 ∧ s.img img 0x10 < 2 ^ 12 ∧ s.img img 0x64 < 2 ^ 16) && zero 0x1C 4 && s.img img 8 / 8 % 4 == 0 &&
    (List.range 4).all (fun d => zero (0x2C + 16 * d) 4) && zero 0x68 0x18 && zero 0xC0 0xC0 && zero 0x1C0 0x40 &&
    (s.sections img).all (fun e => decide (1 ≤ s.num e 1 ∧ s.num e 1 ≤ 8 ∧ s.num (e + 2) 2 = 0 ∧ s.num (e + 24) 8 = 0))

/-- R443: a job's CAP is above the negotiated capability. -/
def capAbove (cap neg : Nat) : Bool :=
  decide (neg / 2 ^ 28 % 16 < cap / 2 ^ 28 % 16 ∨ neg / 2 ^ 24 % 16 < cap / 2 ^ 24 % 16 ∨ neg % 8 < cap % 8) ||
    (cap / 32 % 2 ^ 19 &&& neg / 32 % 2 ^ 19) != cap / 32 % 2 ^ 19

/-- The checks of R413: the status code of a refusal. -/
def State.imageRefused (s : State) (img : Nat) : Option Nat :=
  if s.img img 0 ≠ 0x424F4A50 ∨ s.img img 4 % 2 ^ 16 ≠ 0x0101 ∨ !s.job.eligible.contains img || !s.imageClean img then some 0x15
  else if capAbove (s.img img 8) (s.reg (.d2d 4) 4).toNat then some 0x16
  else if (s.diesOf img).any (fun (d : Fin 4) => s.fenced (Fin.ofNat 7 d.val)) then some 0x17
  else none

/-! ### The registers of the JOB_ block -/

def State.setJobState (s : State) (st : Nat) (busy : Bool) : State := (s.setFld .job 4 2 0 st).setFld .job 0 31 31 (bit busy)
def State.jobResult (s : State) (code : Nat) (late : Bool := false) : State := s.setReg .job 8 (status code 0 late)
def State.jobOverrun (s : State) : State := s.orReg .job 0 0x40000000#32
/-- The image that JOB_IMAGE names (R433). -/
def State.jobImage (s : State) : Nat := (s.reg .job 0xC).toNat + s.fld .job 0x10 7 0 * 2 ^ 32

/-- JOB_CUR_ID and JOB_LIVE_d follow the running header (R433, R434). -/
def State.showJob (s : State) (img : Option Nat) : State :=
  let v := fun (o : Nat) => match img with | some a => BitVec.ofNat 32 (s.img a o) | none => 0#32
  (List.range 4).foldl (fun (t : State) d => t.setReg .job (0x20 + 4 * d) (v (0x24 + 16 * d))) (s.setReg .job 0x14 (v 0xC))

/-! ### Loading a job (R416) -/

/-- Step 1: a resident section of type 1 or 2 is loaded into the buffers of its cell, from its destination there on (R411, R412). -/
def State.loadSection (s : State) (img i : Nat) (x : Section) : State :=
  let c : CellId := ⟨Fin.ofNat 4 x.die, Fin.ofNat 16 x.cell⟩
  let put := fun (base size : Nat) => s.copyMem (x.resident img i) (cellBase c.num + base + x.dst % size) (min x.len (size - x.dst % size))
  if x.typ = 1 then put 0x800000 0x10000 else if x.typ = 2 then put 0x900000 0x80000 else s

/-- Whether the start loads a register from the image: PATH_, REG_ and D2D_ROUTE of the dies it uses. -/
def jobLoadsReg (dies : List (Fin 4)) (b : Blk) (o : Nat) : Bool :=
  match b with
  | .path d => dies.contains d
  | .reg r => r.val == 4 || dies.any (fun d => d.val == r.val)
  | .d2d d => o == 0x10 && dies.any (fun x => x.val == d.val)
  | _ => false

/-- Step 1: those registers, and both CELL_SHELF_CFG of every cell (R259). -/
def State.loadRegs (s : State) (img : Nat) (dies : List (Fin 4)) : State :=
  let s := (cellsOf dies).foldl (fun (s : State) c => [0, 1].foldl (fun (s : State) k =>
    s.setReg (cellBlk c) (0x200 + 4 * k) (Config.shelfCfg img c.num k &&& 0x07FF007F#32)) s) s
  (Config.jobRegs img).foldl (fun (s : State) p =>
    match blkOf p.1 with
    | some (b, o) => if jobLoadsReg dies b o then s.plainWrite b o p.2 else s
    | none => s) s

/-- A move of the job before that has not completed (R220): it is performed, but its token would enter an emptied queue, and the lines that wait for
Shelf claims are withdrawn with the slots. -/
def Move.orphan (m : Move) : Move :=
  match m.shelf with
  | none => { m with tok := none }
  | some _ =>
    { m with tok := none, shelf := none, rest := none, count := m.requested,
             pieces := m.pieces.filter (fun p => decide (p.line < m.requested) && !m.filled.contains p.line) }

/-- Step 3: the registers, tiles, halves, queues and slots of a cell (R112, R259, R416); what waits at its queues for another die stays, and so does a
debug halt given since the last job stopped (R649). -/
def Cell.renew (k : Cell) (draw : Nat) : Cell :=
  let tile := fun (t : Fin 4) => { Tile.reset with undef := some (draw + t.val) }
  { k with
    level := .supervisor,
    seq := { Seq.reset with stop := k.seq.stop, run := if k.seq.stop = 0 then .idle else k.seq.run, dbg := k.seq.dbg },
    slv := k.slv.map (fun (v : Sliver) => { Sliver.reset with run := .halted, dbg := v.dbg }),
    tiles := Vector.ofFn tile, halves := Vector.replicate 2 Half.reset, loading := none, passes := [], draining := none,
    gridFree := k.cycle, loadFree := k.cycle, drainFree := k.cycle, attFree := k.cycle,
    queues := (k.queues.filterMap (fun p =>
      let w := p.2.waiting.filter (fun x => match x.who with | .crate _ => true | .eng (.host _) => true | _ => false)
      if w.isEmpty then none else some (p.1, { Queue.none with waiting := w }))),
    moves := k.moves.map Move.orphan, slots := Vector.replicate 128 Slot.reset, kv := [], syncCover := none, norm := [], bcastOut := [], excQ := [],
    pairStopped := false }

/-- The stores and the ATT.KV that a cell has issued are performed, and its moves have translated their lines (R220, R420). -/
def State.settleCell (s : State) (c : CellId) : State :=
  let s := s.performAll (fun k => match k.who with | .eng e => engCell e == some c | _ => false)
  let s := (s.cell c).moves.foldl (fun (s : State) m => if m.shelf.isSome then s else s.moveLate c m.id m.count) s
  (s.cell c).kv.foldl (fun (s : State) k =>
    if k.dropped.isSome then s else (List.range k.count).foldl (fun (s : State) i => s.kvRow c k (s.memCut c.die != 0) i) s) s

/-- Step 3 for one cell, with the SEED, and the ATT_ block cleared. -/
def State.renewCell (s : State) (c : CellId) (seed : W32) : State :=
  let s := s.settleCell c
  let s := { s.modCell c (fun k => k.renew s.free) with free := s.free + 4 }
  let s := ((s.setReg (cellBlk c) 0x210 0).setReg (cellBlk c) 0x214 0).seed c seed
  { s with regs := s.regs.filter (fun p => decide (p.1 < (Blk.att c.num).base ∨ (Blk.att c.num).base + 0x10000 ≤ p.1)) }

/-- Steps 1 to 4 of R416 on one die. -/
def State.loadDie (s : State) (img : Nat) (d : Fin 4) : State :=
  let s := (cellsOf [d]).foldl (fun (s : State) c => s.renewCell c (BitVec.ofNat 32 (s.img img 0x14))) s
  let loft := { s.lofts[d] with lines := [], fills := (s.lofts[d]).fills.map (fun (f : LoftFill) => { f with dead := true }) }
  let s := { s with lofts := s.lofts.set d loft, tlbs := s.tlbs.set d.val Tlb.reset }
  let clear : PathOp :=
    { ticket := none, kind := .upd, cell := 0, level := .supervisor, desc := 0, cand := 0, res := 0, ncand := 0, nrank := 0, budget := 0,
      basegen := 0, cq := 0, batch := 0, clear := true, newgen := 0 }
  s.modPath d (fun u => { u with
    ticketNext := 0, aborts := [], queue := if (s.reg (.path d) 0).getLsbD 0 then u.queue ++ [clear] else u.queue })

/-- R532: the pairs of a die. -/
def State.loadPairs (s : State) (img : Nat) (d : Fin 4) : State :=
  (List.finRange 8).foldl (fun (s : State) (k : Fin 8) => s.setPair d k ((Config.jobPairs img d).getLsbD k)) s

/-- R416: the image is loaded on every die it uses: pairs, buffers and registers, the restore and the load list, then what a start clears. -/
def State.loadJob (s : State) (img : Nat) : State :=
  let dies := s.liveDies img
  let s := dies.foldl (fun (s : State) d => s.loadPairs img d) s
  let s := (s.sections img).zipIdx.foldl (fun (s : State) p =>
    let x := s.sectionAt img p.1
    if dies.any (fun d => d.val == x.die) then s.loadSection img p.2 x else s) s
  let s := dies.foldl (fun (s : State) d => s.loadDie img d) (s.loadRegs img dies)
  let s := s.restore img dies
  dies.foldl (fun (s : State) (d : Fin 4) => (Config.jobLoads img d).foldl (fun (s : State) m => s.copyMem m.1 m.2.1 m.2.2) s) s

/-- A start, or the second half of a switch, begins. What the job before it has reported faults no other job (R422). -/
def State.beginJob (s : State) (img st : Nat) : State :=
  (({ s with jobFaults := [] }.modJob (fun j => { j with next := some img, stop := none, imm := false })).setJobState st true).loadJob img

/-! ### Commands (R431) -/

/-- R581 step 7: the switch of a readmission to a job that uses the die again. -/
def State.step7 (s : State) (img : Nat) : State :=
  let l := (s.liveDies img).filter (fun (d : Fin 4) => (s.reg .hlth 0xC).getLsbD (4 + d) && !s.hlth.step7.contains d)
  { s with hlth := { s.hlth with step7 := s.hlth.step7 ++ l } }

/-- A sleep frame has been accepted before ARMED, and hub firmware, which reads its flag over SIA's link, has abandoned bring-up (R592, R618). -/
def State.abandoned (s : State) : Bool :=
  (s.reg .therm 0x64).getLsbD 6 && s.hubLink 0 && !((s.isl[(0 : Fin 2)]).peerArm && (s.isl[(1 : Fin 2)]).peerArm)

/-- No job starts: the hub has stopped, bring-up is abandoned, the capacities differ, or an image of R414 is not eligible (R22, R618, R628). -/
def State.noStart (s : State) : Bool := (s.boots[(0 : Fin 3)]).stopped || s.abandoned || s.dramDiffer || !s.ready 21

/-- JOB_START: the image at JOB_IMAGE is checked and started (R413, R416, R431), where hub firmware starts jobs at all. -/
def State.jobStart (s : State) : State :=
  let img := s.jobImage
  if s.noStart then s
  else if s.jobState != 0 then s.jobOverrun
  else match s.imageRefused img with
  | some c => s.jobResult c
  | none => (((s.setFld .job 4 7 6 0).step7 img)).beginJob img 1

/-- R544: the stop of the job aborts the slices of its dies. -/
def State.endSlices (s : State) : State := { s with tests := s.tests.map (fun (t : DieTest) => { t with slices := [] }) }

/-- JOB_SWITCH: the image at JOB_IMAGE is checked, and the running job is to be stopped for it (R413, R418, R419, R431). -/
def State.jobSwitch (s : State) (imm : Bool) : State :=
  let s := s.setFld .job 0 3 3 (bit imm)
  let img := s.jobImage
  if s.jobState != 2 then s.jobOverrun
  else match s.imageRefused img with
  | some c => s.jobResult c
  | none =>
    let s := (s.setFld .job 4 7 6 0).step7 img
    ((s.modJob (fun j => { j with next := some img, stop := some .switch, imm := imm })).setJobState 3 true).endSlices

/-- SWITCH_WAIT_EXPIRED: the wait for switch points ends, and the switch goes on in immediate mode (R419). -/
def State.switchWaitExpired (s : State) : State :=
  if s.jobState == 3 && s.job.stop == some .switch && !s.job.imm then
    (s.modJob (fun j => { j with imm := true })).orReg .job 4 0x10#32
  else s

/-! ### The stop of a job (R418, R420) -/

/-- Whether an engine of the running job counts as stopped in boundary mode (R418). -/
def State.counted (s : State) (e : Engine) : Bool :=
  let wait := match s.hold e with | .get .. => true | .swait .. => true | .put .. => true | .putWait _ => true | .putAck _ => true | _ => false
  match e with
  | .seq c =>
    let q := (s.cell c).seq
    wait || q.run == .halted || q.run == .excHalted || q.stop != 0 || q.dbg == .halted || s.isChecker c || s.atPoint c (engCode e) (s.pc e)
  | .slv x =>
    let v := s.slvAt x
    wait || v.run != .running || v.dbg == .halted || (s.cell x.cell).pairStopped || s.isChecker x.cell ||
      (if v.bcast then v.bq.isEmpty && (s.cell x.cell).bcastOut.isEmpty else s.atPoint x.cell (engCode e) (s.pc e))
  | .host _ => true

/-- The engines of a cell. -/
def enginesOf (c : CellId) : List Engine := .seq c :: (List.finRange 64).map (fun k => .slv ⟨c, k⟩)

/-- The running job is stopped: every engine of its dies counts as stopped; a fenced die's do (R458). -/
def State.jobIsStopped (s : State) : Bool :=
  s.job.imm || (cellsOf (s.liveDies s.job.cur)).all (fun c => (enginesOf c).all (fun e => s.counted e))

/-- Moves and crates already issued by the job have completed or were declared lost (R420). -/
def State.jobDrained (s : State) : Bool :=
  let dies := s.liveDies s.job.cur
  let of_ := fun (c : CellId) => dies.contains c.die
  let eng := fun (e : Engine) => match engCell e with | some c => of_ c | none => false
  (cellsOf dies).all (fun c => (s.cell c).moves.isEmpty && (s.cell c).kv.isEmpty) &&
    !s.crates.any (fun k => match k.who with | .move c _ => of_ c | .moveTok e => eng e | .eng e => eng e | .loft d _ => dies.contains d | _ => false)

/-- The state of a cell whose job has stopped: a running sequencer stops for the cause given, sliver cores issue nothing more, no debug halt
stands, and the engines are at Supervisor (R122, R138, R651). -/
def Cell.stopped (k : Cell) (cause : Nat) : Cell :=
  { k with
    level := .supervisor, pairStopped := false,
    seq := { k.seq with stop := if k.seq.run == .running && k.seq.stop == 0 then BitVec.ofNat 2 cause else k.seq.stop, dbg := .run, skip := false },
    slv := k.slv.map (fun (v : Sliver) => { v with run := if v.run == .running then .halted else v.run, dbg := .run, skip := false }) }

/-- R420: one path operation ends ABORTED; `part`: a candidate of it is in progress. An update writes nothing more where it was rejected or has
faulted. -/
def State.stopPathOp (s : State) (d : Fin 4) (part : Bool) (r : PathRun) : State :=
  let fin := fun (s : State) (r : PathRun) => ({ s with free := s.free + 1 }).pathFinish d r (Config.freeVal 32 s.free)
  if r.fin = some 1 then fin s r
  else if r.op.kind = .upd then
    fin (if r.fin = some 0x0D ∨ r.fin = some 0x0E then s else s.partUpd d r) { r with fin := some 1 }
  else if r.fin = some 0x0D ∨ r.fin = some 6 ∨ r.fin = some 7 ∨ (r.expired ∧ r.fin.isSome) then fin s r
  else
    let (r, s) := if r.fin.isSome || !part then (r, s) else ({ s with free := s.free + 1 }).partCand d (Config.freeNat s.free) r
    fin s (if r.fin = some 0x0D then r else { r with fin := some 1 })

/-- R420: every path operation of a die ends. -/
def State.stopPath (s : State) (d : Fin 4) : State :=
  let u := s.path d
  let l := u.inter.toList ++ u.ended ++ u.queue.map (fun o => { startRun o u.gen with fin := some 1 })
  let s := s.modPath d (fun u => { u with queue := [], run := none, inter := none, ended := [] })
  let s := match u.run with | some r => s.stopPathOp d u.inter.isNone r | none => s
  l.foldl (fun (s : State) r => s.stopPathOp d false r) s

/-- The save regions of a die go to SAVE_d of the running header (R420). -/
def State.saveDie (s : State) (d : Fin 4) : State :=
  let base := d.val * 0x1000000000 + s.img s.job.cur (0x28 + 16 * d)
  ((Config.jobSaves s.job.cur d).foldl (fun (p : State × Nat) r => (p.1.copyMem r.1 (base + p.2) r.2, p.2 + r.2)) (s, 0)).1

/-- What the end of a job does on its dies: path operations, channels, engines and regulators (R122, R420, R505, R511). -/
def State.quitJob (s : State) (cause : Nat) : State :=
  let dies := s.diesOf s.job.cur
  let s := (cellsOf dies).foldl State.settleCell s
  let s := dies.foldl (fun (s : State) d => s.stopPath d) s.pdmaJobStop
  (((cellsOf dies).foldl (fun (s : State) c => (s.modCell c (fun k => k.stopped cause)).clrReg (.perf c.num) 0x404 1#32) s).setHoldMode false).endSlices

/-- The part is without a job. -/
def State.idleJob (s : State) : State := ((s.modJob (fun j => { j with next := none, stop := none, imm := false, restore := none })).setJobState 0 false).showJob none

/-- JOB_STOPPED: every engine is stopped and what the job issued has ended: its operations end, then the switch goes on, or the abort or the
fault is complete, and the part is IDLE (R418 to R422, R429; log entry 32). -/
def State.jobStopped (s : State) : State :=
  match s.job.stop with
  | none => s
  | some why =>
    if (s.jobState ≠ 3 ∧ s.jobState ≠ 5) ∨ !s.jobIsStopped || !s.jobDrained then s
    else
      let imm := s.job.imm
      let s := s.quitJob (if imm then 2 else 1)
      match why, s.job.next with
      | .switch, some img =>
        let s := (s.liveDies s.job.cur).foldl (fun (s : State) d => s.saveDie d) s
        (if imm then s.orReg .job 4 0x20#32 else s).beginJob img 4
      | .fault, _ => s.idleJob
      | _, _ => (s.jobResult 1).idleJob

/-- RESTORE_COMPLETE: the restores of every die have ended (R569). -/
def State.restoreComplete (s : State) : State :=
  match s.job.restore with
  | none => s
  | some e => (s.modJob (fun j => { j with restore := none })).setFld .job 4 7 6 (if e then 2 else 1)

/-- A cell of the new job at its first bundle (R122, R138, R416). -/
def Cell.release (k : Cell) : Cell :=
  { k with
    level := .user, seq := { k.seq with run := .running, stop := 0 }, slv := k.slv.map (fun (v : Sliver) => { v with run := .running }) }

/-- JOB_RELEASE: the first bundle of the job is released on every die, once no move of an earlier job is outstanding there (R220, R416, R421, R424,
R511, R581). -/
def State.jobRelease (s : State) (swTime : W32) : State :=
  match s.job.next with
  | none => s
  | some img =>
    if !(s.jobState == 1 || s.jobState == 4) || s.fld .job 4 7 6 == 0 || (cellsOf (s.liveDies img)).any (fun c => !(s.cell c).moves.isEmpty) then s
    else
      let s := if s.jobState == 4 then s.setReg .job 0x1C swTime else s
      let s := (cellsOf (s.liveDies img)).foldl (fun (s : State) c => s.modCell c Cell.release) s
      let s := s.modJob (fun j => { j with cur := img, next := none, driven := j.driven || s.jobKindOf img == 0 })
      let s := s.modIng (fun g => { g with counters := Vector.replicate 24 0 })
      let s := (((s.setJobState 2 false).jobResult 0).showJob (some img)).setHoldMode true
      let s := s.setFld (.boot 0) 0 7 0 (max 6 (s.fld (.boot 0) 0 7 0))
      s.hlth.step7.foldl (fun (s : State) d => s.readmitEnd d false) s

/-! ### Completion, abort and fault (R422, R428, R429) -/

/-- Every engine of the running job has executed HALT; a fenced die's engines count. -/
def State.allHalted (s : State) : Bool :=
  (cellsOf (s.liveDies s.job.cur)).all (fun c =>
    let k := s.cell (s.mainOf c)
    k.seq.run == .halted && k.slv.all (fun (v : Sliver) => v.run == .halted))

/-- A completion is captured: DONE. Where a switch waits, the completion stands and the switch goes on. -/
def State.completeJob (s : State) (late : Bool) : State :=
  let s := s.jobResult 0 late
  if s.jobState == 3 then s else (s.quitJob 0).idleJob

/-- JOB_COMPLETE: the halt of the last engine is captured (R429). -/
def State.jobComplete (s : State) : State :=
  if (s.jobState == 2 || (s.jobState == 3 && s.job.stop == some .switch)) && s.allHalted then s.completeJob false else s

/-- JOB_ABORT: an abort is captured; in the cycle of a completion the completion wins (R428, R429). -/
def State.jobAbort (s : State) (withCompletion : Bool) : State :=
  let st := s.jobState
  if withCompletion && st == 2 && s.allHalted then s.completeJob true
  else if st == 2 || (st == 3 && s.job.stop == some .switch) then
    (s.modJob (fun j => { j with next := none, stop := some .abort, imm := true })).setJobState 3 true
  else if st == 1 || st == 4 then
    let s := (s.liveDies (s.job.next.getD 0)).foldl (fun (s : State) d => s.modPath d (fun u => { u with queue := [] })) s
    (s.jobResult 1).idleJob
  else s.jobOverrun

/-- JOB_FAULT: the oldest fault reported to the JOB_ block is captured: it is recorded, and the job stops at once, FAULTED until it has stopped
(R422, R434; log entry 32). A fault of a job that starts is captured once it runs. -/
def State.jobFault (s : State) : State :=
  match s.jobFaults with
  | [] => s
  | (d, c, cause) :: r =>
    let st := s.jobState
    if st == 1 || st == 4 then s
    else
    let s := { s with jobFaults := r }
    if !(st == 2 || st == 3 || st == 5) then s
    else
      let s := if (s.reg .job 0x18).getLsbD 31 then s.orReg .job 0x18 0x40000000#32
        else s.setReg .job 0x18 (BitVec.ofNat 32 (2 ^ 31 + (s.reg .job 0x18).toNat / 2 ^ 30 % 2 * 2 ^ 30 + d * 65536 + c * 4096 + cause.toNat))
      if st == 2 || (st == 3 && s.job.stop == some .switch) then
        ((s.jobResult 0x14).modJob (fun j => { j with next := none, stop := some .fault, imm := true })).setJobState 5 false
      else s

/-- NO_JOB: an island finds that no job has been RUNNING for 10 ms (R424). -/
def State.noJob (s : State) (i : Fin 2) : State :=
  if s.job.driven && s.jobState != 2 && (s.isl[i]).up then s.raiseTrig i 0x0A 0 4 else s

/-- A job command that Hatch has given ends: the monitor sends JOB_RESULT (R644). -/
def State.hatchDone (s : State) : State :=
  if s.job.owed && !(s.reg .job 0).getLsbD 31 then (s.modJob (fun j => { j with owed := false })).reply .hd [s.reg .job 8] none else s

/-! ### Meanings of events -/

/-- JOB_START. -/
def execJobStart (s : State) : Out := .next (s.jobStart)
/-- JOB_SWITCH. -/
def execJobSwitch (imm : Bool) (s : State) : Out := .next (s.jobSwitch imm)
/-- JOB_ABORT. -/
def execJobAbort (withCompletion : Bool) (s : State) : Out := .next ((s.jobAbort withCompletion).hatchDone)
/-- JOB_STOPPED. -/
def execJobStopped (s : State) : Out := .next ((s.jobStopped).hatchDone)
/-- SWITCH_WAIT_EXPIRED. -/
def execSwitchWaitExpired (s : State) : Out := .next ((s.switchWaitExpired).hatchDone)
/-- JOB_RELEASE. -/
def execJobRelease (swTime : BitVec 32) (s : State) : Out := .next ((s.jobRelease swTime).hatchDone)
/-- RESTORE_COMPLETE. -/
def execRestoreComplete (s : State) : Out := .next ((s.restoreComplete).hatchDone)
/-- JOB_COMPLETE. -/
def execJobComplete (s : State) : Out := .next ((s.jobComplete).hatchDone)
/-- JOB_FAULT. -/
def execJobFault (s : State) : Out := .next ((s.jobFault).hatchDone)
/-- NO_JOB. -/
def execNoJob (i : Isl) (s : State) : Out := .next (s.noJob i.num)

end Sys2Proof.Machine
end

