-- ==== Sys2Proof/Machine/Power.lean ====
section
/-! DEFINITION. Power and temperature: the ADC channels (R591), SIA's thermal model and ladder (R595 to R602), flow (R603 to R605), sleep
(R592, R593), and the resets of the part and of an island (R587 to R590). -/

namespace Sys2Proof.Machine

def State.modTherm (s : State) (f : Therm → Therm) : State := { s with therm := f s.therm }

/-! ### Stopped flow -/

/-- The clamp of stopped flow holds. -/
def State.clamped (s : State) : Bool := (s.reg .therm 0).getLsbD 1

/-- A field of a die's ladder step (R598, R606). -/
def State.stepOf (s : State) (d : Fin 4) : Nat := s.fld .therm 8 (2 * d + 1) (2 * d)

/-- The dies that take step commands. -/
def State.unfenced (s : State) (d : Fin 4) : Bool := !s.fenced (Fin.ofNat 7 d.val)

/-- T_DOWN in 1/64 of a degree; values above 115 are taken as 115 (R606). -/
def State.tDown (s : State) : Int := (min 115 (s.fld .therm 4 7 0) : Nat) * 64
def State.tUp (s : State) : Int := (s.fld .therm 4 15 8 : Nat) * 64

/-- A forecast as its register holds it. -/
def State.forecast (s : State) (d : Nat) : Int := sgn 16 (s.fld .therm (0x10 + 4 * d) 15 0)

/-- The level that THERMAL demands (R601). -/
def State.thermalLevel (s : State) : Nat :=
  let ladder := (List.finRange 4).foldl (fun m d => max m (s.stepOf d)) 0
  let hot := (List.range 7).any (fun d => decide (8000 ≤ s.forecast d)) || s.therm.reading.toList.any (fun t => decide (8000 ≤ t))
  if hot then 4
  else max (max ladder (if s.tDown ≤ s.forecast 4 then 3 else 0)) (max (if s.clamped then 3 else 0) (if s.therm.sensorHold ≠ 0 then 1 else 0))

/-- THERMAL is raised again whenever its level changes, and clears without a contribution (R601). The SL4 that it has caused stays latched (R6). -/
def State.setThermal (s : State) : State :=
  let lv := s.thermalLevel
  match (s.isl[(0 : Fin 2)]).trigs.find? (fun t => t.id == 0x18) with
  | none => if lv = 0 then s else s.raiseTrig 0 0x18 0 lv
  | some t => if t.level = lv then s else if lv = 0 then s.clearTrig 0 0x18 0 else s.raiseTrig 0 0x18 0 lv

/-- Stopped flow is declared; the caps reach the dies over the hub's links (R20, R603, R604). -/
def State.stopFlow (s : State) (err : W32) : State :=
  let s := s.orReg .therm 0x64 err
  if s.clamped then s
  else
    let s := (s.orReg .therm 0 2#32).modTherm (fun t => { t with
      cmd := Vector.ofFn (fun (d : Fin 4) => if s.unfenced d then some 3 else t.cmd[d]),
      cap := Vector.ofFn (fun (d : Fin 4) => if s.reaches (d.castLE (by omega)) then
        some (match t.host with | none => 20 | some h => if d = h then 50 else 10) else t.cap[d]) })
    s.setThermal

/-! ### ADC -/

/-- Whether a sample of a rail channel lies in its tolerance, in 0.1 mV (R586, R591). -/
def railOk (ch : Nat) (v : Int) : Bool :=
  let nom := railNom ch
  let tol : Int := if ch = 6 then 5 else 3
  decide (nom * (100 - tol) ≤ 100 * v ∧ 100 * v ≤ nom * (100 + tol))

/-- A coolant reading, none when the sensor is open, short or out of its range (R597). -/
def coolantOk (v : Int) : Option Int := if -2560 ≤ v ∧ v ≤ 9600 then some v else none

/-- The inlet that SIA uses (R597). -/
def State.inlet (s : State) : Int := ((s.isl[(0 : Fin 2)]).coolant[(0 : Fin 2)]).getD 4160

/-- The powers that the model uses: a report missing for 3 ms gives the die's peak (R596). -/
def State.powers (s : State) : List Nat := (List.finRange 5).map (fun (d : Fin 5) => if 3 ≤ s.therm.age[d] then Config.peakPower d else s.therm.power[d])

/-- A sample as THERM_INLET and THERM_OUTLET hold it (R606, R608). -/
def tempField (v : Int) : Nat := (max (-32768) (min 32767 v) % 65536).toNat

/-- SIA's part of a sample of the inlet `a` and the outlet `b`: the coolant registers and the outlet rule (R597, R603, R608). -/
def State.coolantSample (s : State) (a b : Int) : State :=
  let cool := (s.isl[(0 : Fin 2)]).coolant
  let put := fun (s : State) (o : Nat) (v : Int) (ok : Bool) => s.setReg .therm o (BitVec.ofNat 32 (bit ok * 2 ^ 31 + tempField v))
  let s := put (put s 0x50 a (cool[(0 : Fin 2)]).isSome) 0x54 b (cool[(1 : Fin 2)]).isSome
  match cool[(0 : Fin 2)], cool[(1 : Fin 2)] with
  | some a, some b =>
    let expect := Config.outletDiff (s.powers.foldl (· + ·) 0) (s.fld .therm 0x58 15 0)
    let past := decide (expect * 10 + (s.fld .therm 0x60 7 0 : Nat) * 64 < (b - a) * 10)
    let s := s.modTherm (fun t => { t with sensorHold := t.sensorHold - 1, outlet := if past then t.outlet + 1 else 0 })
    if s.therm.outlet = 3 then s.stopFlow 2#32 else s
  | _, _ => (s.orReg .therm 0x64 16#32).modTherm (fun t => { t with sensorHold := 100000, outlet := 0 })

/-- ADC_SAMPLE: coolant in 1/64 of a degree, rails in 0.1 mV; ten samples of a rail outside its tolerance in a row end service (R591). -/
def State.adcSample (s : State) (i : Fin 2) (v : List Int) : State :=
  if !(s.isl[i]).up then s
  else
    let s := s.modIsl i (fun k => { k with
      coolant := Vector.ofFn (fun (c : Fin 2) => coolantOk (v.getD c.val 0)),
      rail := Vector.ofFn (fun (c : Fin 8) => v.getD c.val 0),
      railBad := Vector.ofFn (fun (c : Fin 8) => if c.val < 2 ∨ railOk c (v.getD c.val 0) then 0 else k.railBad[c] + 1) })
    let s := if i = 0 then s.coolantSample (v.getD 0 0) (v.getD 1 0) else s
    if (s.isl[i]).railBad.toList.any (fun n => n == 10) then
      let s := s.orReg (.safe i) 0x1C 32#32
      let s := if i = 0 then s.orReg .therm 0x64 8#32 else s
      s.raiseTrig i 0x1A 0 4
    else s

/-! ### Power and the model -/

/-- POWER_ESTIMATE: in 0.1 W; a capped die's estimate stays within its cap (R596, R604). -/
def State.powerEstimate (s : State) (d : Fin 5) (p : Nat) : State :=
  let p := if h : d.val < 4 then (match s.therm.cap[d.val] with | some w => min p (10 * w) | none => p) else p
  s.modTherm (fun t => { t with est := t.est.set d ((t.est[d]).1 + p, (t.est[d]).2 + 1) })

/-- POWER_REPORT: a die's mean power and highest reading reach SIA (R596, R607). -/
def State.powerReport (s : State) (d : Fin 5) (temp : Int) : State :=
  if !(s.isl[(0 : Fin 2)]).up || !s.reaches d then s
  else
    let e := s.therm.est[d]
    let p := if e.2 = 0 then s.therm.power[d] else e.1 / e.2
    (s.modTherm (fun t => { t with power := t.power.set d p, reading := t.reading.set d temp, age := t.age.set d 0, est := t.est.set d (0, 0) })).setReg
      .therm (0x30 + 4 * d) (BitVec.ofNat 32 (min p 0xFFFF))

/-- The nodes (R595): hot spot and bulk of CD0 to CD3 and of HD, 0 to 9; SIA and SIB, 10 and 11; the substrate, the lid, the cold plate and the coolant in
it, 12 to 15. The node of a die's hot spot: -/
def hotNode (d : Nat) : Nat := if d < 6 then 2 * d else 11

/-- (flow / 6 L/min)^0.8 in 2^-16, truncated: the fifth root of the fourth power (R595). -/
def flowFactor (flow : Nat) : Nat :=
  (List.range 23).reverse.foldl (fun r b => if (r + 2 ^ b) ^ 5 * 600 ^ 4 ≤ flow ^ 4 * 2 ^ 80 then r + 2 ^ b else r) 0

/-- What the model takes for given while it is integrated: the powers, the inlet, the flow in 0.01 L/min, and whether it is stopped (R595, R596). -/
structure ThermIn where
  power : List Nat
  inlet : Int
  flow : Nat
  stopped : Bool
  deriving DecidableEq, Repr

/-- The conductance between two nodes; from plate to coolant G_ref × (flow / 6 L/min)^0.8, and 0 while the flow is stopped (R595). -/
def ThermIn.cond (t : ThermIn) (j k : Nat) : Nat :=
  if min j k = 14 ∧ max j k = 15 then (if t.stopped then 0 else Config.thermalRef * flowFactor t.flow / 65536)
  else Config.thermalCond (min j k) (max j k)

/-- The power that enters a node, in µW. -/
def ThermIn.into (t : ThermIn) (k : Nat) : Nat :=
  let p := t.power.getD (k / 2) 0 * 100000
  let hot := p * min 65536 (Config.hotShare (k / 2)) / 65536
  if k < 10 then (if k % 2 = 0 then hot else p - hot) else if k < 12 then Config.islandPower (k - 10) * 100000 else 0

/-- A quotient rounded one way or the other. -/
def roundQ (q : Int) (c : Nat) : Int := q / c + (if q % c ≠ 0 ∧ Config.thermalRound q c then 1 else 0)

/-- The model after 100 µs: each node takes up the heat that enters it and that flows to it from the others; the coolant is driven by the inlet through
the mass flow (R595, R596). -/
def ThermIn.advance (t : ThermIn) (node : List Int) : List Int :=
  (List.range 16).map (fun k =>
    let own := node.getD k 0
    let q : Int := (t.into k : Int) * 2 ^ 32 + (List.range 16).foldl (fun (a : Int) j => if j = k then a else a + (t.cond j k : Int) * (node.getD j 0 - own)) 0 +
      (if k = 15 then (Config.coolantHeat * t.flow / 600 : Nat) * (t.inlet * 2 ^ 26 - own) else 0)
    own + roundQ q (10000 * max 1 (Config.thermalCap k)))

/-- The model after `n` steps of 100 µs with the powers held. -/
def ThermIn.run (t : ThermIn) : Nat → List Int → List Int
  | 0, l => l
  | n + 1, l => t.run n (t.advance l)

/-- What the model takes now. The flow is stopped from its declaration to the release of the clamp (R603, R605). -/
def State.thermIn (s : State) : ThermIn := ⟨s.powers, s.inlet, s.fld .therm 0x58 15 0, s.clamped⟩

/-- A node as a 16-bit temperature in 1/64 of a degree. -/
def nodeTemp (v : Int) : Nat := (max (-32768) (min 32767 (v / 2 ^ 26)) % 65536).toNat

/-- The model reaches the present; hot spots are raised to what is measured; the forecasts are written, integrated 20 ms ahead with every power held
(R596). -/
def State.modelStep (s : State) : State :=
  let s := s.modTherm (fun t => { t with age := t.age.map (· + 1) })
  let t := s.thermIn
  let now := t.run 10 s.therm.node.toList
  let past := (List.finRange 5).any (fun (d : Fin 5) => decide (now.getD (hotNode d) 0 + 5 * 2 ^ 32 < s.therm.reading[d] * 2 ^ 26))
  let node := Vector.ofFn (fun (k : Fin 16) =>
    if h : k.val < 10 ∧ k.val % 2 = 0 then max (now.getD k.val 0) (s.therm.reading[k.val / 2]'(by omega) * 2 ^ 26) else now.getD k.val 0)
  let s := s.modTherm (fun t => { t with node := node })
  let s := if past then s.orReg .therm 0x64 4#32 else s
  (List.range 7).foldl (fun s d =>
    s.setReg .therm (0x10 + 4 * d) (BitVec.ofNat 32 (nodeTemp ((t.run 200 node.toList).getD (hotNode d) 0)))) s

/-- The ladder of one die: a step down at T_DOWN, 20 ms after the last; a step up after 1 s below T_UP (R599, R605). Both times run on while the die is
fenced or the governor is off, which only receives no commands. -/
def State.ladderStep (s : State) (d : Fin 4) : State :=
  let t := s.therm
  let f := s.forecast d
  let cur : Fin 4 := (t.cmd[d]).getD (Fin.ofNat 4 (s.stepOf d))
  let below := if f < s.tUp then t.below[d] + 1 else 0
  let since := t.since[d] + 1
  if !s.unfenced d || !(s.reg .therm 0).getLsbD 0 then
    s.modTherm (fun t => { t with since := t.since.set d since, below := t.below.set d below })
  else if s.tDown ≤ f ∧ cur.val < 3 ∧ 20 ≤ since then
    s.modTherm (fun t => { t with cmd := t.cmd.set d (some (Fin.ofNat 4 (cur.val + 1))), since := t.since.set d 0, below := t.below.set d 0 })
  else if f < s.tDown ∧ 1000 ≤ below ∧ 0 < cur.val ∧ !s.clamped then
    s.modTherm (fun t => { t with cmd := t.cmd.set d (some (Fin.ofNat 4 (cur.val - 1))), since := t.since.set d since, below := t.below.set d 0 })
  else s.modTherm (fun t => { t with since := t.since.set d since, below := t.below.set d below })

/-- The pulses of each 100 ms, and the flow in 0.01 L/min (R603, R608). -/
def State.flowWindow (s : State) : State :=
  if s.therm.window + 1 < 100 then s.modTherm (fun t => { t with window := t.window + 1 })
  else
    let n := min 0xFFFF (s.isl[(0 : Fin 2)]).pulses
    let kpl := s.fld .therm 0x5C 15 0
    let flow := if kpl = 0 then (Config.freeVal 16 s.free).toNat else min 0xFFFF (n * 60000 / kpl)
    let s := { (s.modTherm (fun t => { t with window := 0 })).modIsl 0 (fun k => { k with pulses := 0 }) with free := s.free + 1 }
    s.setReg .therm 0x58 (BitVec.ofNat 32 (n * 65536 + flow))

/-- SIA's sample for a dump: THERM_FORECAST_0 to 6, inlet and outlet in 2 bytes each, flow and THERM_STEP in 4, then zeros (R659; log entry 72). -/
def State.thermalSample (s : State) : State :=
  let two := fun (o : Nat) => toLe 2 (s.reg .therm o).toNat
  let x := (List.range 7).flatMap (fun d => two (0x10 + 4 * d)) ++ two 0x50 ++ two 0x54 ++ toLe 4 (s.reg .therm 0x58).toNat ++ toLe 4 (s.reg .therm 8).toNat ++
    List.replicate 6 0#8
  s.modTherm (fun t => { t with log := ((s.isl[(0 : Fin 2)]).time.toNat, x) :: t.log.take 999 })

/-- THERMAL_STEP (R596, R599, R601). -/
def State.thermalStep (s : State) : State :=
  if !(s.isl[(0 : Fin 2)]).up then s
  else (((List.finRange 4).foldl State.ladderStep s.modelStep).flowWindow).thermalSample.setThermal

/-! ### The ladder's commands -/

/-- LADDER_APPLY: a governor applies its command, which comes over the hub's links (R20), and acknowledges it (R598, R600). -/
def State.ladderApply (s : State) (d : Fin 4) : State :=
  match s.therm.cmd[d] with
  | none => s
  | some st =>
    if !s.unfenced d || !s.reaches (d.castLE (by omega)) then s
    else
      let s := s.setFld .therm 8 (2 * d + 1) (2 * d) st
      let s := s.setTicks d st
      let s := { s with isl := s.isl.map (fun (k : Island) => { k with skipWin := Fin.ofNat 18 d.val :: k.skipWin }) }
      s.modTherm (fun t => { t with cmd := t.cmd.set d none })

/-- LADDER_ACK_TIMEOUT: a die that does not acknowledge is fenced (R600). -/
def State.ladderAckTimeout (s : State) (d : Fin 4) : State :=
  if (s.therm.cmd[d]).isNone || !s.unfenced d || !(s.isl[(0 : Fin 2)]).up then s
  else ((s.orReg .therm 0x64 32#32).modTherm (fun t => { t with cmd := t.cmd.set d none })).fenceDie d

/-- FLOW_PULSE (R603). -/
def State.flowPulse (s : State) (i : Fin 2) : State := if (s.isl[i]).up then (if i = 1 then s.rollPulses 1 else s).modIsl i (fun k => { k with pulses := k.pulses + 1 }) else s

/-- FLOW_TIMEOUT (R603). -/
def State.flowTimeout (s : State) : State := if (s.isl[(0 : Fin 2)]).up then s.stopFlow 1#32 else s

/-- CLAMP_RELEASE: flow of at least 4 L/min and no outlet rule for 10 s (R605). -/
def State.clampRelease (s : State) : State :=
  if !(s.isl[(0 : Fin 2)]).up || !s.clamped || decide (s.fld .therm 0x58 15 0 < 400) || decide (3 ≤ s.therm.outlet) then s
  else ((s.clrReg .therm 0 2#32).modTherm (fun t => { t with cap := Vector.ofFn (fun (d : Fin 4) => if s.reaches (d.castLE (by omega)) then none else t.cap[d]), below := Vector.replicate 4 0 })).setThermal

/-- HOT_TRIP: a die asserts its error line (R602). -/
def State.hotTrip (s : State) (d : Fin 7) : State := s.report (.hotTrip d)

/-! ### Sleep -/

/-- Whether a CAN payload is a sleep frame: the header with the sleep DATA_ID, eight zero bytes and the trailer (R536, R592). -/
def isSleepFrame (l : List Byte) : Bool :=
  decide (28 ≤ l.length) && l.take 28 == withTrailer (l.take 24) && leNat ((l.drop 12).take 2) == Config.sleepId.toNat &&
    (l.drop 16).take 8 == List.replicate 8 0#8

/-- SLEEP_FRAME (R592, R593). -/
def State.sleepFrame (s : State) (data : List Byte) : State :=
  if !(s.isl[(0 : Fin 2)]).up || !isSleepFrame data then s
  else
    let s := (s.orReg .therm 0x64 64#32).raiseTrig 0 0x1A 0 4
    let s := (List.finRange 4).foldl (fun (s : State) (d : Fin 4) => s.readmitEnd d true) s
    let s := if (s.isl[(1 : Fin 2)]).up then s.healthFlash else s
    { s with isl := s.isl.map (fun (k : Island) => { k with sleep := k.up }) }

/-- SLEEP_READY: the header with the status DATA_ID and INVALID, and its trailer (R592). -/
def State.sleepReady (s : State) (i : Fin 2) : State :=
  let k := s.isl[i]
  if !k.sleep then s
  else (s.bothPorts i (withTrailer (e2eHeader k.statusCtr.toNat k.time.toNat (Config.statusId i).toNat (1 + 2 * k.level)))).modIsl i
    (fun k => { k with sleep := false, statusCtr := k.statusCtr + 1 })

/-! ### Resets -/

/-- What lies in an island's window. -/
def inIsl (i : Nat) (pa : Nat) : Bool := decide (islBase i ≤ pa ∧ pa < islBase i + 0x100000000)

/-- The boot state that a reset leaves: what is blown. -/
def BootSt.restart (b : BootSt) : BootSt := { BootSt.reset with otp := b.otp }

/-- R590: an island resets itself in full; its memory stays, and so the Attic, whose unfinished dump is torn (R656, R664). -/
def State.resetIsland (s : State) (i : Fin 2) (rel up : Bool) : State :=
  let s := { s with
    isl := s.isl.set i { Island.reset with up := up, rel := rel, sram := (s.isl[i]).sram, sramEcc := (s.isl[i]).sramEcc },
    regs := s.regs.filter (fun p => !inIsl i p.1),
    links := s.links.set (5 + i.val) (Vector.replicate 10 Link.reset),
    crossings := s.crossings.filter (fun k => k.die.val ≠ 5 + i.val),
    inbox := s.inbox.set i [],
    boots := s.boots.set (1 + i.val) (s.boots[1 + i.val]).restart, uart := s.uart.set (1 + i.val) Uart.reset }
  if i = 0 then
    let torn := fun (s : State) (k : Nat) => if s.dumpState k = 1 ∨ s.dumpState k = 2 then s.write (atticSlot k + 5) [4#8] else s
    { torn (torn s 0) 1 with therm := Therm.reset, dump := { s.dump with run := none, done := false } }
  else if up then s.healthRestore else { s with hlth := { Health.reset with flash := s.hlth.flash } }

/-- An island's ROM runs: it tries the firmware images of its flash in directory order, and its configuration, under its own OTP; the island is up where it
accepts both. In OPEN with no key slot programmed it starts no image. BOOT_STATUS of the island says how far it came (R590, R620, R622, R626, R627,
R636). -/
def State.startIsland (s : State) (i : Fin 2) : State :=
  let o : Fin 3 := Fin.ofNat 3 (1 + i.val)
  let t := (s.boots[o]).otp
  let dir := if t.blank then [] else Config.flashDir i s.free
  let (fw, e1) := firstImage t 1 (dirImages dir 1) 0
  let (cfg, err) := firstImage t 2 ((dirImages dir 2).take 1) e1
  let up := fw.isSome && cfg.isSome
  let s := ({ s with free := s.free + 1 }).resetIsland i true up
  let s := (s.setFld (.boot o) 0 7 0 (if up then 3 else 1)).setFld (.boot o) 0 15 8 err
  match fw, cfg with
  | some f, some c =>
    { s with boots := s.boots.set o { s.boots[o] with
        slot := some f.slot, svn := (s.boots[o].svn.set 1 f.svn).set 2 c.svn, entry := f.entry, hash := #v[f.hash, c.hash] } }
  | _, _ => s

/-- R589: the hub and the compute dies are reset. -/
def State.resetMain (s : State) : State :=
  let keep := fun (pa : Nat) => inIsl 0 pa || inIsl 1 pa
  { State.reset with
    pending := s.pending, free := s.free, out := s.out, faultExt := s.faultExt,
    mem := s.mem.filter (fun p => keep p.1), ecc := s.ecc.filter (fun p => keep p.1), regs := s.regs.filter (fun p => keep p.1),
    isl := s.isl, inbox := s.inbox, therm := s.therm, hlth := s.hlth, dump := s.dump, jtag := s.jtag,
    crossings := s.crossings.filter (fun k => decide (5 ≤ k.die.val)),
    boots := s.boots.set 0 (s.boots[(0 : Fin 3)]).restart, uart := s.uart.set 0 Uart.reset }

/-- PWROK_FALL: the hub and the compute dies are reset and stay in reset; each island raises FORCE_SAFE, and SIB writes its flash (R589, R590). -/
def State.pwrokFall (s : State) : State :=
  if !s.pwrok then s else
  let s := { s.resetMain with pwrok := false }
  let fall := fun (s : State) (i : Fin 2) =>
    let s := if (s.isl[i]).up then s.raiseTrig i 0x1A 0 4 else s
    s.modIsl i (fun k => { k with pwrLow := k.rel })
  let s := fall (fall s 0) 1
  if (s.isl[(1 : Fin 2)]).up then s.healthFlash else s

/-- PWROK_RISE: the hub and the compute dies leave reset, with nothing of what was sent to them meanwhile (R589, R681); an island that has captured
the fall resets itself in full, once a dump under way is written (R590). SIB, where it has been up since before PWROK first rose, fences the dies at LIMIT
now (R576). -/
def State.pwrokRise (s : State) : State :=
  if s.pwrok then s else
  let s := s.resetMain
  let s := if (s.isl[(1 : Fin 2)]).up && !(s.isl[(1 : Fin 2)]).pwrLow then s.evalParts else s
  let rise := fun (s : State) (i : Fin 2) =>
    if !(s.isl[i]).pwrLow then s
    else if i = 0 ∧ s.dump.run.isSome then s.modIsl i (fun k => { k with pwrLow := false, resetDue := true })
    else s.startIsland i
  rise (rise s 0) 1

/-- An island's supply is gone: its pseudo-static DRAM, its SRAM, and with SIA's the Attic, hold nothing of what they held (R593, R656). -/
def State.powerOff (s : State) (i : Fin 2) : State :=
  { s with mem := s.mem.filter (fun p => !inIsl i p.1), ecc := s.ecc.filter (fun p => !inIsl i p.1),
           isl := s.isl.set i { s.isl[i] with sram := [], sramEcc := [] } }

/-- SUPERVISOR_RESET: the island's supply leaves its tolerance (R587), or is gone altogether, as a free choice says (R593, R656; log entry 132). -/
def State.supervisorReset (s : State) (i : Fin 2) : State :=
  let (off, s) := s.drawBool
  let s := s.resetIsland i false false
  if off then s.powerOff i else s

/-- SUPERVISOR_RELEASE (R587, R590). -/
def State.supervisorRelease (s : State) (i : Fin 2) : State := if (s.isl[i]).up then s else s.startIsland i

/-! ### Meanings of events -/

/-- ADC_SAMPLE. -/
def execAdcSample (i : Isl) (v : List Int) (s : State) : Out := .next (s.adcSample i.num v)
/-- PWROK_FALL. -/
def execPwrokFall (s : State) : Out := .next (s.pwrokFall)
/-- PWROK_RISE. -/
def execPwrokRise (s : State) : Out := .next (s.pwrokRise)
/-- SUPERVISOR_RELEASE. -/
def execSupervisorRelease (i : Isl) (s : State) : Out := .next (s.supervisorRelease i.num)
/-- SUPERVISOR_RESET. -/
def execSupervisorReset (i : Isl) (s : State) : Out := .next (s.supervisorReset i.num)
/-- SLEEP_FRAME. -/
def execSleepFrame (_port : Fin 2) (data : List (BitVec 8)) (s : State) : Out := .next (s.sleepFrame data)
/-- SLEEP_READY. -/
def execSleepReady (i : Isl) (s : State) : Out := .next (s.sleepReady i.num)
/-- POWER_ESTIMATE. -/
def execPowerEstimate (d : Fin 5) (p : Nat) (s : State) : Out := .next (s.onDie5 d fun s => s.powerEstimate d p)
/-- POWER_REPORT. -/
def execPowerReport (d : Fin 5) (temp : Int) (s : State) : Out := .next (s.powerReport d temp)
/-- THERMAL_STEP. -/
def execThermalStep (s : State) : Out := .next (s.thermalStep)
/-- LADDER_APPLY. -/
def execLadderApply (d : Fin 4) (s : State) : Out := .next (s.ladderApply d)
/-- LADDER_ACK_TIMEOUT. -/
def execLadderAckTimeout (d : Fin 4) (s : State) : Out := .next (s.ladderAckTimeout d)
/-- FLOW_PULSE. -/
def execFlowPulse (i : Isl) (s : State) : Out := .next (s.flowPulse i.num)
/-- FLOW_TIMEOUT. -/
def execFlowTimeout (s : State) : Out := .next (s.flowTimeout)
/-- CLAMP_RELEASE. -/
def execClampRelease (s : State) : Out := .next (s.clampRelease)
/-- HOT_TRIP. -/
def execHotTrip (d : Fin 7) (s : State) : Out := .next (s.hotTrip d)

end Sys2Proof.Machine
end

