-- ==== Sys2Proof/Machine/Boot.lean ====
section
/-! DEFINITION. The boot chain, one-time-programmable memory, measurements and attestation, debug unlock and ready bits (R611, R619 to R639). -/

namespace Sys2Proof.Machine

def State.boot (s : State) (o : Fin 3) : BootSt := s.boots[o]
def State.modBoot (s : State) (o : Fin 3) (f : BootSt → BootSt) : State := { s with boots := s.boots.set o (f (s.boots[o])) }
def State.modOtp (s : State) (o : Fin 3) (f : Otp → Otp) : State := s.modBoot o (fun b => { b with otp := f b.otp })

/-- Bytes drawn as free values. -/
def State.drawBytes (s : State) (n : Nat) : List Byte × State :=
  ((List.range n).map (fun i => Config.freeVal 8 (s.free + i)), { s with free := s.free + n })

/-! ### Lifecycle and OTP (R625 to R627) -/

def lcCode : Lifecycle → Nat | .open => 0 | .develop => 1 | .production => 2
def lifecycleOf : Nat → Option Lifecycle | 0 => some .open | 1 => some .develop | 2 => some .production | _ => none
/-- The moves of R627. -/
def lifecycleOk : Lifecycle → Lifecycle → Bool
  | .open, .develop => true | .open, .production => true | .develop, .production => true | _, _ => false

/-- The image types that a die verifies (R620). -/
def bootTypes (o : Fin 3) : List Nat := if o = 0 then [3, 4] else [1, 2]

/-- A command of BOOT_OTP_CMD: it overruns while another programs, and is refused or starts to program (R626, R637). -/
def State.otpCmd (s : State) (o : Fin 3) (ok : Bool) (f : Otp → Otp) : State :=
  if (s.reg (.boot o) 0x10).getLsbD 31 then s.orReg (.boot o) 0x10 0x20000000#32
  else if !ok then s.orReg (.boot o) 0x10 0x40000000#32
  else (s.modOtp o f).orReg (.boot o) 0x10 0x80000000#32

/-- OTP_REVOKE: never the slot of the running firmware, nor the last live slot (R626). -/
def State.otpRevoke (s : State) (o : Fin 3) (slot : Nat) : State :=
  let b := s.boot o
  let k : Fin 4 := Fin.ofNat 4 slot
  let ok := decide (slot < 4) && b.slot != some k && (b.otp.live.any (fun x => x != k))
  s.otpCmd o ok (fun t => { t with rev := t.rev ||| BitVec.ofNat 4 (2 ^ k.val) })

/-- OTP_REVOKE_DEBUG (R626). -/
def State.otpRevokeDebug (s : State) (o : Fin 3) (slot : Nat) : State :=
  s.otpCmd o (decide (slot < 2)) (fun t => { t with drev := t.drev ||| BitVec.ofNat 2 (2 ^ slot) })

/-- OTP_ADVANCE_SVN: up to the version of the running image (R626, R637). -/
def State.otpAdvance (s : State) (o : Fin 3) (typ : Nat) : State :=
  let b := s.boot o
  s.otpCmd o ((bootTypes o).contains typ) (fun t =>
    { t with svn := t.svn.set (Fin.ofNat 5 typ) (max t.svn[Fin.ofNat 5 typ] b.svn[Fin.ofNat 5 typ]) })

/-- OTP_SET_LIFECYCLE (R627). -/
def State.otpLifecycle (s : State) (o : Fin 3) (lc : Nat) : State :=
  match lifecycleOf lc with
  | some l => s.otpCmd o (lifecycleOk (s.boot o).otp.lc l) (fun t => { t with lc := l })
  | none => s.otpCmd o false id

/-- OTP_PROGRAM_DONE (R637). -/
def State.otpDone (s : State) (o : Fin 3) : State := s.clrReg (.boot o) 0x10 0x80000000#32

/-! ### Images (R619 to R624) -/

/-- STAGE of BOOT_STATUS goes up (R636). -/
def State.bootStage (s : State) (n : Nat) : State := s.setFld (.boot 0) 0 7 0 (max n (s.fld (.boot 0) 0 7 0))
def State.bootErr (s : State) (n : Nat) : State := s.setFld (.boot 0) 0 15 8 n

/-- A 64-byte measurement goes into a slot (R631). -/
def State.putMeas (s : State) (slot : Nat) (l : List Byte) : State :=
  let s := (List.range 16).foldl (fun (s : State) i => s.setReg (.boot 0) (0x200 + 0x40 * slot + 4 * i) (BitVec.ofNat 32 (leNat ((l.drop (4 * i)).take 4)))) s
  s.orReg (.boot 0) 0x80 (BitVec.ofNat 32 (2 ^ slot))

/-- Hub firmware that passed the checks starts at its entry, with its job key list; slot 1 takes the hash of its header and body (R611, R619, R621, R622,
R631). -/
def State.startHubFw (s : State) (source : Nat) (x : BootImage) : State :=
  let s := (s.modJob (fun j => { j with keys := jobKeys x.body })).modBoot 0 (fun b => { b with slot := some x.slot, svn := b.svn.set 3 x.svn, entry := x.entry })
  (((s.setFld (.boot 0) 0 17 16 source).bootStage 3).putMeas 1 x.hash).orReg (.boot 0) 4 0xC#32

/-- What hub firmware keeps of the compute microcode: the verified copy in hub DRAM, where it fits (R623). -/
def State.keepUcode (s : State) (x : BootImage) : State :=
  let s := (s.modBoot 0 (fun b => { b with svn := b.svn.set 4 x.svn, ucode := true })).bootStage 4
  if dramWin Config.ucodeAt = some 4 && dramOk Config.ucodeAt && dramOk (Config.ucodeAt + x.body.length) then s.write Config.ucodeAt x.body else s

/-- FLASH_READ_REQUEST: an island serves the hub firmware entry before HUB_FW and the microcode entry before IMAGES, and refuses every other
read; what it serves is verified. The hub ROM asks SIA first, and SIB where SIA's copy was refused or has not arrived; hub firmware verifies the
microcode once, and fences the compute dies where it refuses it (R620, R622 to R624, R627, R628). -/
def State.flashRead (s : State) (i : Fin 2) (typ : Nat) : State :=
  let b := s.boot 0
  let entry := (dirImages (Config.flashDir i s.free) typ).head?
  if !(s.isl[i]).up || !s.hubLink i || b.stopped || b.otp.blank then s
  else if typ = 3 ∧ !s.ready 3 ∧ (i = 0 ∨ b.asksSib) then
    match entry.map (verifyImage b.otp 3) with
    | none => { s with free := s.free + 1 }
    | some (.ok x) => { s with free := s.free + 1 }.startHubFw i.val x
    | some (.error n) =>
      let s := { s with free := s.free + 1 }.bootErr n
      if i = 0 then s.modBoot 0 (fun b => { b with asksSib := true }) else s.bootStage 2
  else if typ = 4 ∧ s.ready 3 ∧ !s.ready 21 ∧ !b.ucode then
    match entry.map (verifyImage b.otp 4) with
    | none => { s with free := s.free + 1 }
    | some (.ok x) => { s with free := s.free + 1 }.keepUcode x
    | some (.error n) => ({ s with free := s.free + 1 }.bootErr n).fenceSet 15#4
  else s

/-- HUB_FW_TIMEOUT: SIA's copy has not arrived, and the hub ROM asks SIB (R622). -/
def State.hubFwTimeout (s : State) : State := if s.ready 3 then s else s.modBoot 0 (fun b => { b with asksSib := true })

/-- READY_LIMIT: a function's bit is not set by its limit (R611, R628). -/
def State.readyLimit (s : State) (f : ReadyFn) : State :=
  match f with
  | .hubFw => if s.ready 3 then s else (s.bootErr 7).bootStage 2
  | .hubDram => if s.ready 4 then s else (s.bootErr 6).modBoot 0 (fun b => { b with stopped := true })
  | .cdReady d => if s.ready (9 + d) || s.dramDiffer then s else s.fenceDie d
  | .ring =>
    if s.funcReady.getLsbD 13 then s
    else (List.finRange 4).foldl (fun (s : State) (e : Fin 4) => s.edgeFenceTimeout e) s
  | .job =>
    if s.jobState == 2 || s.abandoned then s
    else if (s.boot 0).retried then s.raiseBoth 0x1A 0 4
    else (s.modBoot 0 (fun b => { b with retried := true })).jobStart

/-- The images of R414 by KIND and PARAM; PARAM of a DRIVE job is not looked at. -/
def shippedJobs : List (Nat × Nat) := [(1, 1), (1, 2)] ++ (List.range 4).map (fun d => (2, d)) ++ (List.range 4).map (fun d => (3, d))

/-- Every image of R414 is eligible (R611, R628). -/
def State.imagesReady (s : State) : Bool :=
  s.job.eligible.any (fun a => s.jobKindOf a == 0) &&
    shippedJobs.all (fun p => s.job.eligible.any (fun a => s.jobKindOf a == p.1 && s.img a 0x10 / 16 % 16 == p.2))

/-- FUNC_READY_WRITE: firmware writes its ready bits, unless it has stopped or has abandoned bring-up (R618, R628); a 1 for CD_READY is not performed
while the capacities differ, or before the microcode is verified and loaded (R623). With IMAGES, firmware has verified each image that it has loaded into
hub DRAM, and marks those that it accepts eligible; the bit sets where all of R414 are (R412, R611, R621, R628, R636; log entry 59). -/
def State.funcReadyWrite (s : State) (v : W32) : State :=
  let old := s.reg (.boot 0) 4
  if (s.boot 0).stopped || s.abandoned then s
  else
    let v := if s.dramDiffer || !(s.boot 0).ucode then v &&& ~~~(0x1E00#32 &&& ~~~old) else v
    let s := s.setReg (.boot 0) 4 ((old &&& ~~~0x2FDE00#32) ||| (v &&& 0x2FDE00#32))
    if v.getLsbD 21 && !old.getLsbD 21 then
      let l := Config.loadedImages s.free
      let s := l.foldl State.admitImage ({ s with free := s.free + 1 }.modJob (fun j => { j with eligible := [] }))
      if s.imagesReady then s.bootStage 5 else s.clrReg (.boot 0) 4 0x200000#32
    else s

/-! ### Measurements and attestation (R631, R632, R639) -/

/-- MEAS_GO: BOOT_BUF_0 to 15 go into a slot, once; slots 0, 3 and 4 belong to hardware. -/
def State.measGo (s : State) (slot : Nat) : State :=
  let s := s.setFld (.boot 0) 0x80 19 16 slot
  if slot = 0 ∨ slot = 3 ∨ slot = 4 ∨ (s.reg (.boot 0) 0x80).getLsbD slot then s.orReg (.boot 0) 0x80 0x80000000#32
  else s.putMeas slot ((List.range 16).flatMap (fun i => toLe 4 (s.reg (.boot 0) (0x100 + 4 * i)).toNat))

/-- ATTEST_GO: the nonce is taken, and the report is begun. -/
def State.attestGo (s : State) : State :=
  if (s.reg (.boot 0) 0x84).getLsbD 31 then s.orReg (.boot 0) 0x84 0x40000000#32
  else
    let nonce := (List.range 8).flatMap (fun i => toLe 4 (s.reg (.boot 0) (0x100 + 4 * i)).toNat)
    let at_ := (s.reg (.boot 0) 0x88).toNat + s.fld (.boot 0) 0x8C 7 0 * 2 ^ 32
    (s.modBoot 0 (fun b => { b with report := some (nonce, at_) })).orReg (.boot 0) 0x84 0x80000000#32

/-- Whether the hub can read an island. -/
def State.readable (s : State) (i : Fin 2) : Bool := (s.isl[i]).up && s.hubLink i

/-- Slot `k` of the measurements, where it is written. -/
def State.measSlot (s : State) (k : Nat) : Option (List Byte) :=
  if k = 0 then some (sha512 Config.hubRom)
  else if (s.reg (.boot 0) 0x80).getLsbD k then
    some ((List.range 16).flatMap (fun i => toLe 4 (s.reg (.boot 0) (0x200 + 0x40 * k + 4 * i)).toNat))
  else none

/-- When a report is built, slots 3 and 4 take the hashes of the islands' running firmware, each once, where the island can be read (R631). -/
def State.measIslands (s : State) : State :=
  (List.finRange 2).foldl (fun (s : State) i =>
    if s.readable i && !(s.reg (.boot 0) 0x80).getLsbD (3 + i.val) then s.putMeas (3 + i.val) ((s.boot (Fin.ofNat 3 (1 + i.val))).hash[(0 : Fin 2)]) else s) s

/-- The first 0x480 bytes of a report (R632): what an island that cannot be read would give is zero. -/
def State.reportBody (s : State) (nonce : List Byte) : List Byte :=
  let t := (s.boot 0).otp
  let sib := s.readable 1
  let hlth := fun (o : Nat) => if sib then (s.reg .hlth o).toNat else 0
  let slots := (List.range 16).map (fun k => if (k = 3 ∧ !s.readable 0) ∨ (k = 4 ∧ !s.readable 1) then none else s.measSlot k)
  toLe 4 0x54544141 ++
    toLe 4 (1 + 256 + lcCode t.lc * 65536 + s.fld (.boot 0) 0xA0 2 0 * 2 ^ 18 + bit (!s.readable 0) * 2 ^ 21 + bit (!sib) * 2 ^ 22) ++
    toLe 8 s.now ++ nonce ++ identPub 0 ++
    toLe 4 (slots.zipIdx.foldl (fun m p => m + bit p.1.isSome * 2 ^ p.2) 0) ++
    toLe 4 (t.rev.toNat + t.drev.toNat * 16) ++ toLe 4 (t.svn[(3 : Fin 5)] + t.svn[(4 : Fin 5)] * 256) ++
    toLe 4 (if sib then s.partCount 0x40 + 256 * s.partCount 0x50 else 0) ++ toLe 4 (hlth 4) ++ toLe 4 s.funcReady.toNat ++ List.replicate 24 0 ++
    slots.flatMap (fun x => x.getD (List.replicate 64 0))

/-- ATTEST_DONE: the report is signed and written, and BUSY clears. -/
def State.attestDone (s : State) : State :=
  match (s.boot 0).report with
  | none => s
  | some (nonce, at_) =>
    let s := s.measIslands
    let body := s.reportBody nonce
    let sig := ed25519Sign (identSeed 0) (sha512 body)
    let s := (s.modBoot 0 (fun b => { b with report := none })).clrReg (.boot 0) 0x84 0x80000000#32
    if dramWin at_ = some 4 && dramOk at_ && dramOk (at_ + 1215) then s.write at_ (body ++ sig) else s

/-! ### Debug unlock (R633 to R635) -/

/-- A challenge of 96 bytes (R634). -/
def State.challenge (s : State) (o : Fin 3) (scope : BitVec 3) : List Byte × State :=
  let (nonce, s) := s.drawBytes 32
  let time := if o = 0 then s.now else (s.isl[Fin.ofNat 2 (o - 1)]).time.toNat
  (nonce ++ identPub o ++ toLe 8 time ++ toLe 8 scope.toNat ++ toLe 8 (lcCode (s.boot o).otp.lc) ++ toLe 8 (s.boot o).grants, s)

def State.dropChallenge (s : State) (o : Fin 3) : State :=
  (s.modBoot o (fun b => { b with chal := none })).clrReg (.boot o) 0xA0 0x80000#32

/-- CHALLENGE_EXPIRY (R635). -/
def State.challengeExpiry (s : State) (o : Fin 3) : State := if (s.boot o).chal.isSome then s.dropChallenge o else s

/-- Whether R635 refuses a scope now. -/
def State.scopeRefused (s : State) (o : Fin 3) (scope : BitVec 3) : Bool :=
  (s.boot o).otp.lc == .production && (scope.getLsbD 1 || scope.getLsbD 2) && (s.armed 0 || s.armed 1) && decide (s.partLevel < 4)

/-- What became of a response. -/
inductive Answer where
  | granted | expired | locked | failed
  deriving DecidableEq, Repr

/-- R634 step 4: the challenge is answered at most once; a grant adds its scope, a failure counts. -/
def State.response (s : State) (o : Fin 3) (key sig : List Byte) : Answer × State :=
  match (s.boot o).chal with
  | none => (.expired, s)
  | some (c, scope) =>
    let t := (s.boot o).otp
    let s := s.dropChallenge o
    let known := (List.finRange 2).any (fun (k : Fin 2) => t.dprog.getLsbD k && !t.drev.getLsbD k && t.dbg[k] == sha512 key)
    if !(known && ed25519Verify key (sha512 c) sig) then (.failed, s.setFld (.boot o) 0xA0 23 20 (min 8 (s.fld (.boot o) 0xA0 23 20 + 1)))
    else if s.scopeRefused o scope then (.locked, s)
    else (.granted, (s.modBoot o (fun b => { b with grants := b.grants + 1 })).orReg (.boot o) 0xA0 (scope.setWidth 32))

/-- A scope bit is granted: 0 READ, 1 WRITE, 2 JTAG. -/
def State.granted (s : State) (o : Fin 3) (b : Nat) : Bool := (s.reg (.boot o) 0xA0).getLsbD b

/-! ### The BOOT_ block as it reads -/

/-- A register of a BOOT_ block (R636 to R639). -/
def State.bootRead (s : State) (o : Fin 3) (off : Nat) : W32 :=
  let b := s.boot o
  let t := b.otp
  let word := fun (l : List Byte) (i : Nat) => BitVec.ofNat 32 (leNat ((l.drop (4 * i)).take 4))
  if off = 0 then s.reg (.boot o) 0 ||| BitVec.ofNat 32 (lcCode t.lc * 2 ^ 18)
  else if off = 8 then BitVec.ofNat 32 (t.dprog.toNat * 1024 + t.drev.toNat * 256 + t.prog.toNat * 16 + t.rev.toNat)
  else if off = 0xC then
    if o = 0 then BitVec.ofNat 32 (t.svn[(4 : Fin 5)] * 256 + t.svn[(3 : Fin 5)]) else BitVec.ofNat 32 (t.svn[(2 : Fin 5)] * 256 + t.svn[(1 : Fin 5)])
  else if o = 0 then
    if off = 4 then s.funcReady
    else if 0x40 ≤ off ∧ off < 0x60 then word (identPub 0) ((off - 0x40) / 4)
    else if off = 0x80 then s.reg (.boot 0) 0x80 ||| 1#32
    else if 0x200 ≤ off ∧ off < 0x600 then word ((s.measSlot ((off - 0x200) / 0x40)).getD (List.replicate 64 0)) ((off - 0x200) % 0x40 / 4)
    else s.reg (.boot 0) off
  else if 0x200 ≤ off ∧ off < 0x280 ∧ (s.isl[Fin.ofNat 2 (o - 1)]).up then
    word (b.hash[Fin.ofNat 2 ((off - 0x200) / 0x40)]) ((off - 0x200) % 0x40 / 4)
  else if off = 0x10 ∨ off = 0xA0 then s.reg (.boot o) off
  else 0

/-! ### Meanings of events -/

/-- OTP_REVOKE. -/
def execOtpRevoke (o : MonId) (slot : Fin 16) (s : State) : Out := .next (s.otpRevoke (monNum o) slot)
/-- OTP_REVOKE_DEBUG. -/
def execOtpRevokeDebug (o : MonId) (slot : Fin 16) (s : State) : Out := .next (s.otpRevokeDebug (monNum o) slot)
/-- OTP_ADVANCE_SVN. -/
def execOtpAdvanceSvn (o : MonId) (typ : Fin 16) (s : State) : Out := .next (s.otpAdvance (monNum o) typ)
/-- OTP_SET_LIFECYCLE. -/
def execOtpSetLifecycle (o : MonId) (lc : Fin 16) (s : State) : Out := .next (s.otpLifecycle (monNum o) lc)
/-- OTP_PROGRAM_DONE. -/
def execOtpProgramDone (o : MonId) (s : State) : Out := .next (s.otpDone (monNum o))
/-- MEAS_GO. -/
def execMeasGo (slot : Fin 16) (s : State) : Out := .next (s.measGo slot)
/-- ATTEST_GO. -/
def execAttestGo (s : State) : Out := .next (s.attestGo)
/-- ATTEST_DONE. -/
def execAttestDone (s : State) : Out := .next (s.attestDone)
/-- CHALLENGE_EXPIRY. -/
def execChallengeExpiry (m : MonId) (s : State) : Out := .next (s.challengeExpiry (monNum m))
/-- READY_LIMIT. -/
def execReadyLimit (f : ReadyFn) (s : State) : Out := .next (s.readyLimit f)
/-- FLASH_READ_REQUEST. -/
def execFlashReadRequest (i : Isl) (typ : Nat) (s : State) : Out := .next (s.flashRead i.num typ)
/-- HUB_FW_TIMEOUT. -/
def execHubFwTimeout (s : State) : Out := .next (s.hubFwTimeout)
/-- FUNC_READY_WRITE. -/
def execFuncReadyWrite (v : BitVec 32) (s : State) : Out := .next (s.funcReadyWrite v)

end Sys2Proof.Machine
end

