-- ==== Sys2Proof/Machine/Vector.lean ====
section
/-! DEFINITION. Vector instructions of the sliver cores (R67 to R71, R149 to R159). -/

namespace Sys2Proof

/-- The floating-point format of a lane format. -/
def LaneFmt.ff : LaneFmt → Machine.FFmt
  | .bf16 => Machine.fBf16
  | .f16 => Machine.fF16
  | _ => Machine.fF32

/-- R68: a floating-point result in a lane format: BF16 computes in FP32 and rounds the result. -/
def LaneFmt.toBits (f : LaneFmt) (v : Machine.FV) : Nat :=
  match f with
  | .bf16 => (Machine.toBf16 v).toNat
  | .f16 => (Machine.toF16 v).toNat
  | _ => (Machine.toF32 v).toNat

/-- The value of lane j of a floating-point format. -/
def LaneFmt.val (f : LaneFmt) (v : W256) (j : Nat) : Machine.FV :=
  f.ff.decode (Machine.lane (8 * f.bytes) v j).toNat

end Sys2Proof

namespace Sys2Proof.Machine

/-- A lane-wise operation, on integers or on values (R150). -/
def lanes2 (f : LaneFmt) (fi : BinFn) (ff : FV → FV → FV) (a b : W256) : W256 :=
  let w := 8 * f.bytes
  ofLanes w (256 / w) (fun j =>
    if f.isInt then fi w (lane w a j) (lane w b j) else BitVec.ofNat w (f.toBits (ff (f.val a j) (f.val b j))))

/-- An integer clamped to the signed range of `n` bits. -/
def clampS (n : Nat) (v : Int) : Int :=
  if v < -(2 ^ (n - 1) : Nat) then -(2 ^ (n - 1) : Nat) else if (2 ^ (n - 1) : Nat) - 1 < v then (2 ^ (n - 1) : Nat) - 1 else v

def fnAdds : BinFn := fun n a b => BitVec.ofInt n (clampS n (a.toInt + b.toInt))
def fnSubs : BinFn := fun n a b => BitVec.ofInt n (clampS n (a.toInt - b.toInt))
def fnAbs : BinFn := fun _ a _ => if a.slt 0 then -a else a
def fnNeg : BinFn := fun _ a _ => -a

def opLanes (x : SlvId) (f : LaneFmt) (p : Fin 8) (d a b : Reg) (legal : Bool) (fi : BinFn) (ff : FV → FV → FV) : Op :=
  opVec x p d f.bytes legal (fun s => lanes2 f fi ff (s.vr x a) (s.vr x b))

def opVadd (x : SlvId) (f : LaneFmt) (p : Fin 8) (d a b : Reg) : Op := opLanes x f p d a b true (fun _ u v => u + v) FV.add
def opVsub (x : SlvId) (f : LaneFmt) (p : Fin 8) (d a b : Reg) : Op :=
  opLanes x f p d a b true (fun _ u v => u - v) (fun u v => u.add v.neg)
def opVmul (x : SlvId) (f : LaneFmt) (p : Fin 8) (d a b : Reg) : Op := opLanes x f p d a b true (fun _ u v => u * v) FV.mul
/-- R150: d + a × b, fused, for floating-point formats only. -/
def opVmac (x : SlvId) (f : LaneFmt) (p : Fin 8) (d a b : Reg) : Op :=
  opVec x p d f.bytes (!f.isInt) (fun s =>
    let w := 8 * f.bytes
    ofLanes w (256 / w) (fun j => BitVec.ofNat w (f.toBits (((f.val (s.vr x a) j).mul (f.val (s.vr x b) j)).add (f.val (s.vr x d) j)))))
def opVmin (x : SlvId) (f : LaneFmt) (p : Fin 8) (d a b : Reg) : Op := opLanes x f p d a b true fnMin FV.minv
def opVmax (x : SlvId) (f : LaneFmt) (p : Fin 8) (d a b : Reg) : Op := opLanes x f p d a b true fnMax FV.maxv
def opVabs (x : SlvId) (f : LaneFmt) (p : Fin 8) (d a : Reg) : Op := opLanes x f p d a a true fnAbs (fun u _ => u.abs)
def opVneg (x : SlvId) (f : LaneFmt) (p : Fin 8) (d a : Reg) : Op := opLanes x f p d a a true fnNeg (fun u _ => u.neg)
def opVadds (x : SlvId) (f : LaneFmt) (p : Fin 8) (d a b : Reg) : Op := opLanes x f p d a b f.isInt fnAdds FV.add
def opVsubs (x : SlvId) (f : LaneFmt) (p : Fin 8) (d a b : Reg) : Op := opLanes x f p d a b f.isInt fnSubs FV.add
def opVsll (x : SlvId) (f : LaneFmt) (p : Fin 8) (d a b : Reg) : Op := opLanes x f p d a b f.isInt fnSll FV.add
def opVsrl (x : SlvId) (f : LaneFmt) (p : Fin 8) (d a b : Reg) : Op := opLanes x f p d a b f.isInt fnSrl FV.add
def opVsra (x : SlvId) (f : LaneFmt) (p : Fin 8) (d a b : Reg) : Op := opLanes x f p d a b f.isInt fnSra FV.add

/-- The exact sum of `n` signed products of fields of `w` bits, from field `k0` (R152). -/
def dotInt (w : Nat) (a b : W256) (k0 n : Nat) : Int :=
  (List.range n).foldl (fun acc k => acc + (lane w a (k0 + k)).toInt * (lane w b (k0 + k)).toInt) 0

/-- R152: integer widening dot products; the sum is exact, its addition into d wraps or saturates. -/
def opDot (x : SlvId) (p : Fin 8) (d a b : Reg) (w n : Nat) (sat : Bool) : Op :=
  opVec x p d 4 true (fun s =>
    ofLanes 32 8 (fun j =>
      let t := (lane 32 (s.vr x d) j).toInt + dotInt w (s.vr x a) (s.vr x b) (n * j) n
      BitVec.ofInt 32 (if sat then clampS 32 t else t)))
def opVdot4I8 (x : SlvId) (p : Fin 8) (d a b : Reg) : Op := opDot x p d a b 8 4 false
def opVdot4sI8 (x : SlvId) (p : Fin 8) (d a b : Reg) : Op := opDot x p d a b 8 4 true
def opVdot2I16 (x : SlvId) (p : Fin 8) (d a b : Reg) : Op := opDot x p d a b 16 2 false
def opVdot2sI16 (x : SlvId) (p : Fin 8) (d a b : Reg) : Op := opDot x p d a b 16 2 true

/-- R152: floating-point widening dot products; each fma rounds once to FP32. -/
def opDotF (x : SlvId) (f : LaneFmt) (p : Fin 8) (d a b : Reg) : Op :=
  opVec x p d 4 true (fun s =>
    let va := s.vr x a
    let vb := s.vr x b
    ofLanes 32 8 (fun j =>
      let acc := f32Fma (f.val va (2 * j)) (f.val vb (2 * j)) (f32 (lane 32 (s.vr x d) j))
      f32Fma (f.val va (2 * j + 1)) (f.val vb (2 * j + 1)) (f32 acc)))
def opVdot2Bf16 (x : SlvId) (p : Fin 8) (d a b : Reg) : Op := opDotF x .bf16 p d a b
def opVdot2F16 (x : SlvId) (p : Fin 8) (d a b : Reg) : Op := opDotF x .f16 p d a b

/-- R153: one lane converted: narrower integers and integers from values saturate, values round to nearest even, once, to the target
itself: an INT32 for BF16 does not round to FP32 first (R68; DESIGN CHOICE, log entry 110). -/
def cvtLane (src tgt : LaneFmt) (v : Nat) : Nat :=
  let wt := 8 * tgt.bytes
  if src.isInt then
    let i := sgn (8 * src.bytes) v
    if tgt.isInt then (BitVec.ofInt wt (clampS wt i)).toNat else tgt.ff.round (FV.ofInt i)
  else
    let x := src.ff.decode v
    if tgt.isInt then (BitVec.ofInt wt (x.toIntSat (-(2 ^ (wt - 1) : Nat)) ((2 ^ (wt - 1) : Nat) - 1))).toNat else tgt.ff.round x

/-- R153: the lanes of d after a conversion with part P. -/
def convert (src tgt : LaneFmt) (part : Nat) (a old : W256) : W256 :=
  let ws := 8 * src.bytes
  let wt := 8 * tgt.bytes
  ofLanes wt (256 / wt) (fun j =>
    if ws ≤ wt then BitVec.ofNat wt (cvtLane src tgt (lane ws a (part * (256 / wt) + j)).toNat)
    else
      let n := 256 / ws
      if part * n ≤ j ∧ j < part * n + n then BitVec.ofNat wt (cvtLane src tgt (lane ws a (j - part * n)).toNat) else lane wt old j)

def opVectorConvert (x : SlvId) (p : Fin 8) (tgt src : BitVec 4) (part : Fin 4) (d a : Reg) : Op :=
  match laneOfCode src.toNat, laneOfCode tgt.toNat with
  | some fs, some ft =>
    let ok := decide (part.val < max 1 (max (ft.bytes / fs.bytes) (fs.bytes / ft.bytes)))
    { opVec x p d ft.bytes true (fun s => convert fs ft part (s.vr x a) (s.vr x d)) with
      check := fun _ => if ok then none else some excOperand }
  | _, _ => { slot := 2, check := fun _ => some excOperand, act := fun s => .ok (s, .fall) }

def opVand (x : SlvId) (p : Fin 8) (d a b : Reg) : Op := opVec x p d 1 true (fun s => s.vr x a &&& s.vr x b)
def opVor (x : SlvId) (p : Fin 8) (d a b : Reg) : Op := opVec x p d 1 true (fun s => s.vr x a ||| s.vr x b)
def opVxor (x : SlvId) (p : Fin 8) (d a b : Reg) : Op := opVec x p d 1 true (fun s => s.vr x a ^^^ s.vr x b)
def opVandn (x : SlvId) (p : Fin 8) (d a b : Reg) : Op := opVec x p d 1 true (fun s => s.vr x a &&& ~~~s.vr x b)
/-- R154: the predicate selects, and every byte is written. -/
def opVsel (x : SlvId) (p : Fin 8) (d a b : Reg) : Op :=
  opVec x 0 d 1 true (fun s => mergePred (s.pr x p) 1 (s.vr x b) (s.vr x a))
def opVsplatB (x : SlvId) (p : Fin 8) (d a : Reg) : Op := opVec x p d 1 true (fun s => ofLanes 8 32 (fun _ => (s.sv x a).setWidth 8))
def opVsplatH (x : SlvId) (p : Fin 8) (d a : Reg) : Op := opVec x p d 2 true (fun s => ofLanes 16 16 (fun _ => (s.sv x a).setWidth 16))
def opVsplatW (x : SlvId) (p : Fin 8) (d a : Reg) : Op := opVec x p d 4 true (fun s => ofLanes 32 8 (fun _ => s.sv x a))

/-- An operation of a sliver core that writes s[d]. -/
def opVecToS (x : SlvId) (d : Reg) (bad : Bool) (f : State → W32) : Op :=
  { slot := 2, check := fun _ => if bad then some excOperand else none,
    act := fun s => .ok (s.setX (.slv x) 2 1 d ((f s).setWidth 64), .fall) }
def opVextw (x : SlvId) (d a b : Reg) : Op := opVecToS x d (decide (8 ≤ b.val)) (fun s => lane 32 (s.vr x a) b)
def opVinsw (x : SlvId) (p : Fin 8) (d a b : Reg) : Op :=
  { opVec x p d 4 true (fun s => ofLanes 32 8 (fun j => if j = b.val then s.sv x a else lane 32 (s.vr x d) j)) with
    check := fun _ => if 8 ≤ b.val then some excOperand else none }

/-- Lane j of a reduction, where an excluded lane counts as `z` (R154). -/
def State.redLane (s : State) (x : SlvId) (p : Fin 8) (a : Reg) (z : W32) (j : Nat) : W32 :=
  if (s.pr x p).getLsbD (4 * j) then lane 32 (s.vr x a) j else z
def opVrsumI32 (x : SlvId) (p : Fin 8) (d a : Reg) : Op :=
  opVecToS x d false (fun s => (List.range 8).foldl (fun acc j => acc + s.redLane x p a 0 j) 0)
def opVrsumF32 (x : SlvId) (p : Fin 8) (d a : Reg) : Op :=
  opVecToS x d false (fun s =>
    let l := s.redLane x p a 0
    f32Add (f32Add (f32Add (l 0) (l 1)) (f32Add (l 2) (l 3))) (f32Add (f32Add (l 4) (l 5)) (f32Add (l 6) (l 7))))
def opVrmaxF32 (x : SlvId) (p : Fin 8) (d a : Reg) : Op :=
  opVecToS x d false (fun s =>
    toF32 ((List.range 8).foldl (fun acc j => acc.maxv (f32 (s.redLane x p a 0xFF800000#32 j))) (.inf true)))

/-- R155: comparisons by lane into a predicate register; excluded lanes give 0. -/
def opCmp (x : SlvId) (f : LaneFmt) (p : Fin 8) (d a b : Reg) (legal : Bool) (ci : (n : Nat) → BitVec n → BitVec n → Bool)
    (cf : FV → FV → Bool) : Op :=
  { slot := 2, legal := legal, check := fun _ => if 8 ≤ d.val then some excOperand else none,
    act := fun s =>
      let w := 8 * f.bytes
      let va := s.vr x a
      let vb := s.vr x b
      let hit := fun (i : Nat) =>
        let j := i / f.bytes
        (s.pr x p).getLsbD (j * f.bytes) &&
          (if f.isInt then ci w (lane w va j) (lane w vb j) else cf (f.val va j) (f.val vb j))
      .ok (s.setPr x d (BitVec.ofNat 32 ((List.range 32).foldl (fun acc i => acc + if hit i then 2 ^ i else 0) 0)), .fall) }
def opVcmpEq (x : SlvId) (f : LaneFmt) (p : Fin 8) (d a b : Reg) : Op := opCmp x f p d a b true (fun _ u v => u == v) FV.eqv
def opVcmpNe (x : SlvId) (f : LaneFmt) (p : Fin 8) (d a b : Reg) : Op :=
  opCmp x f p d a b true (fun _ u v => u != v) (fun u v => !(u.eqv v))
def opVcmpLt (x : SlvId) (f : LaneFmt) (p : Fin 8) (d a b : Reg) : Op := opCmp x f p d a b true (fun _ u v => u.slt v) FV.lt
def opVcmpLe (x : SlvId) (f : LaneFmt) (p : Fin 8) (d a b : Reg) : Op :=
  opCmp x f p d a b true (fun _ u v => u.sle v) (fun u v => u.lt v || u.eqv v)
def opVcmpLtu (x : SlvId) (f : LaneFmt) (p : Fin 8) (d a b : Reg) : Op := opCmp x f p d a b f.isInt (fun _ u v => u.ult v) FV.lt
def opVcmpLeu (x : SlvId) (f : LaneFmt) (p : Fin 8) (d a b : Reg) : Op := opCmp x f p d a b f.isInt (fun _ u v => u.ule v) FV.lt

/-- R155: operations on predicate registers. -/
def opPred (x : SlvId) (d a b : Reg) (f : W32 → W32 → W32) : Op :=
  { slot := 2, check := fun _ => if 8 ≤ d.val ∨ 8 ≤ a.val ∨ 8 ≤ b.val then some excOperand else none,
    act := fun s => .ok (s.setPr x d (f (s.pr x (Fin.ofNat 8 a)) (s.pr x (Fin.ofNat 8 b))), .fall) }
def opPand (x : SlvId) (d a b : Reg) : Op := opPred x d a b (fun u v => u &&& v)
def opPor (x : SlvId) (d a b : Reg) : Op := opPred x d a b (fun u v => u ||| v)
def opPxor (x : SlvId) (d a b : Reg) : Op := opPred x d a b (fun u v => u ^^^ v)
def opPandn (x : SlvId) (d a b : Reg) : Op := opPred x d a b (fun u v => u &&& ~~~v)

def opVexpF32 (x : SlvId) (p : Fin 8) (d a : Reg) : Op := opVec x p d 4 true (fun s => ofLanes 32 8 (fun j => expF32 (lane 32 (s.vr x a) j)))
def opVrecipF32 (x : SlvId) (p : Fin 8) (d a : Reg) : Op :=
  opVec x p d 4 true (fun s => ofLanes 32 8 (fun j => recipF32 (lane 32 (s.vr x a) j)))

/-- R108, R156: leaves broadcast mode; outside it, ILLEGAL_INSTR. Entries queued behind it stay in the core's queue and run after a later JOIN (DESIGN
CHOICE, log entry 111). -/
def opBleave (x : SlvId) : Op :=
  { slot := 2, check := fun s => if (s.slvAt x).bcast then none else some excIllegal,
    act := fun s => .ok (s.modSlv x (fun k => { k with bcast := false }), .fall) }

/-- R157: the local store offset of a vector access. -/
def State.vecOff (s : State) (x : SlvId) (a : Reg) (off : BitVec 13) : Nat := offAdd (s.sv x a) (off.toInt * 32)

/-- R118, R157: a predicate masks what a vector load writes, not what it reads: the checks are those of all 32 bytes, so a marked word raises
DATA_ERROR also where the predicate excludes it (DESIGN CHOICE, log entry 126). -/
def opVectorLoad (x : SlvId) (p : Fin 8) (d a : Reg) (off : BitVec 13) : Op :=
  { slot := 2,
    act := fun s => do
      let (v, s') ← s.lsRead (.slv x) (s.vecOff x a off) 32
      .ok (s'.setVr x d (mergePred (s.pr x p) 1 (s.vr x d) (BitVec.ofNat 256 v)), .fall) }

/-- The bytes of a store that the predicate allows, word by word: a 64-bit word that it allows whole is written whole, and clears its mark (R40). -/
def storeBytes (s : State) (e : Engine) (pa : Nat) (p : W32) (v : W256) : State :=
  if p = 0xFFFFFFFF#32 then s.store (.eng e) pa (toLe 32 v.toNat)
  else (List.range 4).foldl (fun s w =>
    if bits p (8 * w + 7) (8 * w) = 255 then s.store (.eng e) (pa + 8 * w) (toLe 8 (lane 64 v w).toNat)
    else (List.range 8).foldl (fun s i => if p.getLsbD (8 * w + i) then s.store (.eng e) (pa + 8 * w + i) [lane 8 v (8 * w + i)] else s) s) s

def opVectorStore (x : SlvId) (p : Fin 8) (d a : Reg) (off : BitVec 13) : Op :=
  { slot := 2,
    act := fun s =>
      let o := s.vecOff x a off
      if o % 32 ≠ 0 || !lsIn o 32 then .error (s, excAccess o)
      else .ok (storeBytes s (.slv x) (lsBase x.cell + o) (s.pr x p) (s.vr x d), .fall) }

/-- R158: channel c of the accumulator group after `n` taps, in tap order. -/
def vdwInt (s : State) (x : SlvId) (a b : Nat) (c n : Nat) (acc : W32) : W32 :=
  (List.range n).foldl (fun acc t =>
    BitVec.ofInt 32 (acc.toInt + (lane 8 (s.vr x (Fin.ofNat 32 (a + t))) c).toInt * (lane 8 (s.vr x (Fin.ofNat 32 (b + t))) c).toInt)) acc
def vdwFp (f : LaneFmt) (s : State) (x : SlvId) (a b : Nat) (c n : Nat) (acc : W32) : W32 :=
  (List.range n).foldl (fun acc t =>
    f32Fma (f.val (s.vr x (Fin.ofNat 32 (a + t))) c) (f.val (s.vr x (Fin.ofNat 32 (b + t))) c) (f32 acc)) acc

/-- R158: depthwise sliding window. -/
def opVdw (x : SlvId) (fmt : BitVec 4) (n1 : Fin 16) (p : Fin 8) (d a b : Reg) : Op :=
  let n := n1.val + 1
  let regs := if fmt = 0 then 4 else 2
  let f : LaneFmt := if fmt = 4 then .bf16 else .f16
  let bad := decide (8 < n) || !(fmt == 0 || fmt == 4 || fmt == 5) || decide (31 < a.val + n - 1) || decide (31 < b.val + n - 1) ||
    decide (31 < d.val + regs - 1)
  { slot := 2, check := fun _ => if bad then some excOperand else none,
    act := fun s =>
      .ok ((List.range regs).foldl (fun t k =>
        let r : Reg := Fin.ofNat 32 (d + k)
        let old := s.vr x r
        let new := ofLanes 32 8 (fun j =>
          let acc := lane 32 old j
          if fmt = 0 then vdwInt s x a b (8 * k + j) n acc else vdwFp f s x a b (8 * k + j) n acc)
        t.setVr x r (mergePred (s.pr x p) 4 old new)) s, .fall) }

/-- One tap of R159: 0 outside the source, otherwise a 16-bit value of the local store. -/
def gsTap (s : State) (c : Engine) (f : LaneFmt) (base stride w h : Nat) (i j : Int) (ch : Nat) : Ex (FV × State) :=
  if 0 ≤ i ∧ i < w ∧ 0 ≤ j ∧ j < h then do
    let (v, s) ← s.lsRead c (base + j.toNat * stride + i.toNat * 32 + 2 * ch) 2
    .ok (f.ff.decode v, s)
  else .ok (.fin false 0 0, s)

/-- One channel of R159, every operation rounding to FP32 in the order written. -/
def gsChan (s : State) (c : Engine) (f : LaneFmt) (base stride w h : Nat) (x0 y0 : Int) (fx fy : W32) (ch : Nat) : Ex (W32 × State) := do
  let (t00, s) ← gsTap s c f base stride w h x0 y0 ch
  let (t10, s) ← gsTap s c f base stride w h (x0 + 1) y0 ch
  let (t01, s) ← gsTap s c f base stride w h x0 (y0 + 1) ch
  let (t11, s) ← gsTap s c f base stride w h (x0 + 1) (y0 + 1) ch
  let one : W32 := 0x3F800000#32
  let gx := f32Sub one fx
  let gy := f32Sub one fy
  let m := fun (u v : W32) (t : FV) => toF32 ((f32 (f32Mul u v)).mul t)
  .ok (f32Add (f32Add (f32Add (m gx gy t00) (m fx gy t10)) (m gx fy t01)) (m fx fy t11), s)

def gsChans (s : State) (c : Engine) (f : LaneFmt) (base stride w h : Nat) (x0 y0 : Int) (fx fy : W32) : Nat → Nat → List W32 →
    Ex (List W32 × State)
  | 0, _, acc => .ok (acc.reverse, s)
  | n + 1, ch, acc => do
    let (v, s) ← gsChan s c f base stride w h x0 y0 fx fy ch
    gsChans s c f base stride w h x0 y0 fx fy n (ch + 1) (v :: acc)

/-- A coordinate's floor and fraction; a magnitude of 2^24 or more counts as outside, where every tap reads 0 (R159). -/
def gsCoord (v : W32) : Int × W32 :=
  match (f32 v).floor with
  | some i => if i < -16777216 ∨ 16777216 ≤ i then (-4, 0) else (i, f32Sub v (toF32 (FV.ofInt i)))
  | none => (-4, 0)

/-- R159: grid sample. -/
def opVgs (x : SlvId) (fmt : BitVec 4) (d a b : Reg) : Op :=
  let f : LaneFmt := if fmt = 4 then .bf16 else .f16
  { slot := 2,
    check := fun _ => if !(fmt == 4 || fmt == 5) || decide (29 < b.val) || decide (30 < d.val) then some excOperand else none,
    act := fun s =>
      let r1 : Reg := Fin.ofNat 32 (b + 1)
      let r2 : Reg := Fin.ofNat 32 (b + 2)
      let d1 : Reg := Fin.ofNat 32 (d + 1)
      let cx := lane 32 (s.vr x a) 0
      let cy := lane 32 (s.vr x a) 1
      let put := fun (s : State) (l : List W32) =>
        (s.setVr x d (ofLanes 32 8 (fun j => (l[j]?).getD 0))).setVr x d1 (ofLanes 32 8 (fun j => (l[8 + j]?).getD 0))
      if (f32 cx).isNan || (f32 cy).isNan then .ok ((put s []).arith x.cell afDrainNan, .fall)
      else do
        let (x0, fx) := gsCoord cx
        let (y0, fy) := gsCoord cy
        let dims := s.sv x r1
        let (l, s') ← gsChans s (.slv x) f (s.sv x b).toNat (s.sv x r2).toNat (bits dims 15 0) (bits dims 31 16) x0 y0 fx fy 16 0 []
        .ok (put s' l, .fall) }

/-! ### Meanings -/

/-- VADD. -/
def execVadd (x : SlvId) (f : LaneFmt) (p : Fin 8) (d a b : Reg) (s : State) : Out :=
  .next (runVec x (wordOf (.vadd x f p d a b)) (opVadd x f p d a b) s)
/-- VSUB. -/
def execVsub (x : SlvId) (f : LaneFmt) (p : Fin 8) (d a b : Reg) (s : State) : Out :=
  .next (runVec x (wordOf (.vsub x f p d a b)) (opVsub x f p d a b) s)
/-- VMUL. -/
def execVmul (x : SlvId) (f : LaneFmt) (p : Fin 8) (d a b : Reg) (s : State) : Out :=
  .next (runVec x (wordOf (.vmul x f p d a b)) (opVmul x f p d a b) s)
/-- VMAC. -/
def execVmac (x : SlvId) (f : LaneFmt) (p : Fin 8) (d a b : Reg) (s : State) : Out :=
  .next (runVec x (wordOf (.vmac x f p d a b)) (opVmac x f p d a b) s)
/-- VMIN. -/
def execVmin (x : SlvId) (f : LaneFmt) (p : Fin 8) (d a b : Reg) (s : State) : Out :=
  .next (runVec x (wordOf (.vmin x f p d a b)) (opVmin x f p d a b) s)
/-- VMAX. -/
def execVmax (x : SlvId) (f : LaneFmt) (p : Fin 8) (d a b : Reg) (s : State) : Out :=
  .next (runVec x (wordOf (.vmax x f p d a b)) (opVmax x f p d a b) s)
/-- VABS. -/
def execVabs (x : SlvId) (f : LaneFmt) (p : Fin 8) (d a : Reg) (s : State) : Out :=
  .next (runVec x (wordOf (.vabs x f p d a)) (opVabs x f p d a) s)
/-- VNEG. -/
def execVneg (x : SlvId) (f : LaneFmt) (p : Fin 8) (d a : Reg) (s : State) : Out :=
  .next (runVec x (wordOf (.vneg x f p d a)) (opVneg x f p d a) s)
/-- VADDS. -/
def execVadds (x : SlvId) (f : LaneFmt) (p : Fin 8) (d a b : Reg) (s : State) : Out :=
  .next (runVec x (wordOf (.vadds x f p d a b)) (opVadds x f p d a b) s)
/-- VSUBS. -/
def execVsubs (x : SlvId) (f : LaneFmt) (p : Fin 8) (d a b : Reg) (s : State) : Out :=
  .next (runVec x (wordOf (.vsubs x f p d a b)) (opVsubs x f p d a b) s)
/-- VSLL. -/
def execVsll (x : SlvId) (f : LaneFmt) (p : Fin 8) (d a b : Reg) (s : State) : Out :=
  .next (runVec x (wordOf (.vsll x f p d a b)) (opVsll x f p d a b) s)
/-- VSRL. -/
def execVsrl (x : SlvId) (f : LaneFmt) (p : Fin 8) (d a b : Reg) (s : State) : Out :=
  .next (runVec x (wordOf (.vsrl x f p d a b)) (opVsrl x f p d a b) s)
/-- VSRA. -/
def execVsra (x : SlvId) (f : LaneFmt) (p : Fin 8) (d a b : Reg) (s : State) : Out :=
  .next (runVec x (wordOf (.vsra x f p d a b)) (opVsra x f p d a b) s)
/-- VDOT4_I8. -/
def execVdot4I8 (x : SlvId) (p : Fin 8) (d a b : Reg) (s : State) : Out :=
  .next (runVec x (wordOf (.vdot4I8 x p d a b)) (opVdot4I8 x p d a b) s)
/-- VDOT4S_I8. -/
def execVdot4sI8 (x : SlvId) (p : Fin 8) (d a b : Reg) (s : State) : Out :=
  .next (runVec x (wordOf (.vdot4sI8 x p d a b)) (opVdot4sI8 x p d a b) s)
/-- VDOT2_I16. -/
def execVdot2I16 (x : SlvId) (p : Fin 8) (d a b : Reg) (s : State) : Out :=
  .next (runVec x (wordOf (.vdot2I16 x p d a b)) (opVdot2I16 x p d a b) s)
/-- VDOT2S_I16. -/
def execVdot2sI16 (x : SlvId) (p : Fin 8) (d a b : Reg) (s : State) : Out :=
  .next (runVec x (wordOf (.vdot2sI16 x p d a b)) (opVdot2sI16 x p d a b) s)
/-- VDOT2_BF16. -/
def execVdot2Bf16 (x : SlvId) (p : Fin 8) (d a b : Reg) (s : State) : Out :=
  .next (runVec x (wordOf (.vdot2Bf16 x p d a b)) (opVdot2Bf16 x p d a b) s)
/-- VDOT2_F16. -/
def execVdot2F16 (x : SlvId) (p : Fin 8) (d a b : Reg) (s : State) : Out :=
  .next (runVec x (wordOf (.vdot2F16 x p d a b)) (opVdot2F16 x p d a b) s)
/-- VECTOR_CONVERT. -/
def execVectorConvert (x : SlvId) (p : Fin 8) (tgt src : BitVec 4) (part : Fin 4) (d a : Reg) (s : State) : Out :=
  .next (runVec x (wordOf (.vectorConvert x p tgt src part d a)) (opVectorConvert x p tgt src part d a) s)
/-- VAND. -/
def execVand (x : SlvId) (p : Fin 8) (d a b : Reg) (s : State) : Out :=
  .next (runVec x (wordOf (.vand x p d a b)) (opVand x p d a b) s)
/-- VOR. -/
def execVor (x : SlvId) (p : Fin 8) (d a b : Reg) (s : State) : Out :=
  .next (runVec x (wordOf (.vor x p d a b)) (opVor x p d a b) s)
/-- VXOR. -/
def execVxor (x : SlvId) (p : Fin 8) (d a b : Reg) (s : State) : Out :=
  .next (runVec x (wordOf (.vxor x p d a b)) (opVxor x p d a b) s)
/-- VANDN. -/
def execVandn (x : SlvId) (p : Fin 8) (d a b : Reg) (s : State) : Out :=
  .next (runVec x (wordOf (.vandn x p d a b)) (opVandn x p d a b) s)
/-- VSEL. -/
def execVsel (x : SlvId) (p : Fin 8) (d a b : Reg) (s : State) : Out :=
  .next (runVec x (wordOf (.vsel x p d a b)) (opVsel x p d a b) s)
/-- VSPLAT_B. -/
def execVsplatB (x : SlvId) (p : Fin 8) (d a : Reg) (s : State) : Out :=
  .next (runVec x (wordOf (.vsplatB x p d a)) (opVsplatB x p d a) s)
/-- VSPLAT_H. -/
def execVsplatH (x : SlvId) (p : Fin 8) (d a : Reg) (s : State) : Out :=
  .next (runVec x (wordOf (.vsplatH x p d a)) (opVsplatH x p d a) s)
/-- VSPLAT_W. -/
def execVsplatW (x : SlvId) (p : Fin 8) (d a : Reg) (s : State) : Out :=
  .next (runVec x (wordOf (.vsplatW x p d a)) (opVsplatW x p d a) s)
/-- VEXTW. -/
def execVextw (x : SlvId) (d a b : Reg) (s : State) : Out := .next (runVec x (wordOf (.vextw x d a b)) (opVextw x d a b) s)
/-- VINSW. -/
def execVinsw (x : SlvId) (p : Fin 8) (d a b : Reg) (s : State) : Out :=
  .next (runVec x (wordOf (.vinsw x p d a b)) (opVinsw x p d a b) s)
/-- VRSUM_I32. -/
def execVrsumI32 (x : SlvId) (p : Fin 8) (d a : Reg) (s : State) : Out :=
  .next (runVec x (wordOf (.vrsumI32 x p d a)) (opVrsumI32 x p d a) s)
/-- VRSUM_F32. -/
def execVrsumF32 (x : SlvId) (p : Fin 8) (d a : Reg) (s : State) : Out :=
  .next (runVec x (wordOf (.vrsumF32 x p d a)) (opVrsumF32 x p d a) s)
/-- VRMAX_F32. -/
def execVrmaxF32 (x : SlvId) (p : Fin 8) (d a : Reg) (s : State) : Out :=
  .next (runVec x (wordOf (.vrmaxF32 x p d a)) (opVrmaxF32 x p d a) s)
/-- VCMP_EQ. -/
def execVcmpEq (x : SlvId) (f : LaneFmt) (p : Fin 8) (d a b : Reg) (s : State) : Out :=
  .next (runVec x (wordOf (.vcmpEq x f p d a b)) (opVcmpEq x f p d a b) s)
/-- VCMP_NE. -/
def execVcmpNe (x : SlvId) (f : LaneFmt) (p : Fin 8) (d a b : Reg) (s : State) : Out :=
  .next (runVec x (wordOf (.vcmpNe x f p d a b)) (opVcmpNe x f p d a b) s)
/-- VCMP_LT. -/
def execVcmpLt (x : SlvId) (f : LaneFmt) (p : Fin 8) (d a b : Reg) (s : State) : Out :=
  .next (runVec x (wordOf (.vcmpLt x f p d a b)) (opVcmpLt x f p d a b) s)
/-- VCMP_LE. -/
def execVcmpLe (x : SlvId) (f : LaneFmt) (p : Fin 8) (d a b : Reg) (s : State) : Out :=
  .next (runVec x (wordOf (.vcmpLe x f p d a b)) (opVcmpLe x f p d a b) s)
/-- VCMP_LTU. -/
def execVcmpLtu (x : SlvId) (f : LaneFmt) (p : Fin 8) (d a b : Reg) (s : State) : Out :=
  .next (runVec x (wordOf (.vcmpLtu x f p d a b)) (opVcmpLtu x f p d a b) s)
/-- VCMP_LEU. -/
def execVcmpLeu (x : SlvId) (f : LaneFmt) (p : Fin 8) (d a b : Reg) (s : State) : Out :=
  .next (runVec x (wordOf (.vcmpLeu x f p d a b)) (opVcmpLeu x f p d a b) s)
/-- PAND. -/
def execPand (x : SlvId) (d a b : Reg) (s : State) : Out := .next (runVec x (wordOf (.pand x d a b)) (opPand x d a b) s)
/-- POR. -/
def execPor (x : SlvId) (d a b : Reg) (s : State) : Out := .next (runVec x (wordOf (.por x d a b)) (opPor x d a b) s)
/-- PXOR. -/
def execPxor (x : SlvId) (d a b : Reg) (s : State) : Out := .next (runVec x (wordOf (.pxor x d a b)) (opPxor x d a b) s)
/-- PANDN. -/
def execPandn (x : SlvId) (d a b : Reg) (s : State) : Out := .next (runVec x (wordOf (.pandn x d a b)) (opPandn x d a b) s)
/-- VEXP_F32. -/
def execVexpF32 (x : SlvId) (p : Fin 8) (d a : Reg) (s : State) : Out :=
  .next (runVec x (wordOf (.vexpF32 x p d a)) (opVexpF32 x p d a) s)
/-- VRECIP_F32. -/
def execVrecipF32 (x : SlvId) (p : Fin 8) (d a : Reg) (s : State) : Out :=
  .next (runVec x (wordOf (.vrecipF32 x p d a)) (opVrecipF32 x p d a) s)
/-- BLEAVE. -/
def execBleave (x : SlvId) (s : State) : Out := .next (runVec x (wordOf (.bleave x)) (opBleave x) s)
/-- VECTOR_LOAD. -/
def execVectorLoad (x : SlvId) (p : Fin 8) (d a : Reg) (off : BitVec 13) (s : State) : Out :=
  .next (runVec x (wordOf (.vectorLoad x p d a off)) (opVectorLoad x p d a off) s)
/-- VECTOR_STORE. -/
def execVectorStore (x : SlvId) (p : Fin 8) (d a : Reg) (off : BitVec 13) (s : State) : Out :=
  .next (runVec x (wordOf (.vectorStore x p d a off)) (opVectorStore x p d a off) s)
/-- VDW. -/
def execVdw (x : SlvId) (fmt : BitVec 4) (n1 : Fin 16) (p : Fin 8) (d a b : Reg) (s : State) : Out :=
  .next (runVec x (wordOf (.vdw x fmt n1 p d a b)) (opVdw x fmt n1 p d a b) s)
/-- VGS. -/
def execVgs (x : SlvId) (fmt : BitVec 4) (d a b : Reg) (s : State) : Out :=
  .next (runVec x (wordOf (.vgs x fmt d a b)) (opVgs x fmt d a b) s)

end Sys2Proof.Machine
end

