-- ==== Sys2Proof/Machine/Bundle.lean ====
section
/-! DEFINITION. The events of a cell and of its die: whole bundles (R102 to R107), broadcast delivery, variable results (R115), exception
reports (R129), corrected words (R40), pair mismatches (R534), translation invalidations (R198, R228), and the scrub of DRAM (R203). -/

namespace Sys2Proof.Machine

/-! ### Bundles -/

/-- The operation of an instruction that a bundle may hold outside the broadcast class. -/
def opOf : Instr → Option Op
  | .add e w d a b => some (opAdd e w d a b)
  | .sub e w d a b => some (opSub e w d a b)
  | .mul e w d a b => some (opMul e w d a b)
  | .mulh e w d a b => some (opMulh e w d a b)
  | .mulhu e w d a b => some (opMulhu e w d a b)
  | .div e w d a b => some (opDiv e w d a b)
  | .divu e w d a b => some (opDivu e w d a b)
  | .rem e w d a b => some (opRem e w d a b)
  | .remu e w d a b => some (opRemu e w d a b)
  | .and e w d a b => some (opAnd e w d a b)
  | .or e w d a b => some (opOr e w d a b)
  | .xor e w d a b => some (opXor e w d a b)
  | .andn e w d a b => some (opAndn e w d a b)
  | .sll e w d a b => some (opSll e w d a b)
  | .srl e w d a b => some (opSrl e w d a b)
  | .sra e w d a b => some (opSra e w d a b)
  | .slli e w hi d a b => some (opSlli e w hi d a b)
  | .srli e w hi d a b => some (opSrli e w hi d a b)
  | .srai e w hi d a b => some (opSrai e w hi d a b)
  | .slt e w d a b => some (opSlt e w d a b)
  | .sltu e w d a b => some (opSltu e w d a b)
  | .seq e w d a b => some (opSeq e w d a b)
  | .sne e w d a b => some (opSne e w d a b)
  | .min e w d a b => some (opMin e w d a b)
  | .max e w d a b => some (opMax e w d a b)
  | .minu e w d a b => some (opMinu e w d a b)
  | .maxu e w d a b => some (opMaxu e w d a b)
  | .clz e w d a => some (opClz e w d a)
  | .ctz e w d a => some (opCtz e w d a)
  | .popc e w d a => some (opPopc e w d a)
  | .addi e d a imm => some (opAddi e d a imm)
  | .andi e d a imm => some (opAndi e d a imm)
  | .ori e d a imm => some (opOri e d a imm)
  | .lui e d imm => some (opLui e d imm)
  | .aadd c d a b => some (opAadd c d a b)
  | .asub c d a b => some (opAsub c d a b)
  | .amov c d a => some (opAmov c d a)
  | .ahi c d a => some (opAhi c d a)
  | .ard c d a => some (opArd c d a)
  | .ardh c d a => some (opArdh c d a)
  | .aaddi c d a imm => some (opAaddi c d a imm)
  | .wload c d a cls h sp wfmt => some (opWload c d a cls h sp wfmt)
  | .mma c d a w2 => some (opMma c d a w2)
  | .drain c d a w2 => some (opDrain c d a w2)
  | .aseed c a => some (opAseed c a)
  | .move e d a scope tok loft w2 => some (opMove e d a scope tok loft w2)
  | .lds e d a b => some (opLds e d a b)
  | .sts e d a b => some (opSts e d a b)
  | .crd e d a => some (opCrd e d a)
  | .cwr e a b => some (opCwr e a b)
  | .fence e a scope kind m => some (opFence e a scope kind m)
  | .ifence e => some (opIfence e)
  | .stat e d => some (opStat e d)
  | .loftInv e a => some (opLoftInv e a)
  | .tput e a scope q => some (opTput e a scope q)
  | .tget e d scope q => some (opTget e d scope q)
  | .nop e => some (opNop e)
  | .halt e => some (opHalt e)
  | .brk e => some (opBrk e)
  | .jalr e d a => some (opJalr e d a)
  | .b e imm => some (opB e imm)
  | .beqz e a imm => some (opBeqz e a imm)
  | .bnez e a imm => some (opBnez e a imm)
  | .bltz e a imm => some (opBltz e a imm)
  | .bgez e a imm => some (opBgez e a imm)
  | .bl e imm => some (opBl e imm)
  | .bcnz c n imm => some (opBcnz c n imm)
  | .loop e n a imm => some (opLoop e n a imm)
  | .li e d imm => some (opLi e d imm)
  | .swait e d a => some (opSwait e d a)
  | .srel e a => some (opSrel e a)
  | .sstat e d a => some (opSstat e d a)
  | .attKv c d a => some (opAttKv c d a)
  | .attNorm c d a => some (opAttNorm c d a)
  | .attMerge c d a => some (opAttMerge c d a)
  | .attSync c => some (opAttSync c)
  | .pathPlan e d a => some (opPath e .plan d a (wordOf (.pathPlan e d a)))
  | .pathCommit e d a => some (opPath e .commit d a (wordOf (.pathCommit e d a)))
  | .pathUpd e d a => some (opPath e .upd d a (wordOf (.pathUpd e d a)))
  | .pathAbort e d a => some (opPathAbort e d a)
  | .pathGen e d => some (opPathGen e d)
  | _ => none

/-- The operation of an instruction of the vector class, which slot V broadcasts (R101, R107). BLEAVE has nothing that a sequencer could check. -/
def opOfVec : Instr → Option Op
  | .vadd x f p d a b => some (opVadd x f p d a b)
  | .vsub x f p d a b => some (opVsub x f p d a b)
  | .vmul x f p d a b => some (opVmul x f p d a b)
  | .vmac x f p d a b => some (opVmac x f p d a b)
  | .vmin x f p d a b => some (opVmin x f p d a b)
  | .vmax x f p d a b => some (opVmax x f p d a b)
  | .vabs x f p d a => some (opVabs x f p d a)
  | .vneg x f p d a => some (opVneg x f p d a)
  | .vadds x f p d a b => some (opVadds x f p d a b)
  | .vsubs x f p d a b => some (opVsubs x f p d a b)
  | .vsll x f p d a b => some (opVsll x f p d a b)
  | .vsrl x f p d a b => some (opVsrl x f p d a b)
  | .vsra x f p d a b => some (opVsra x f p d a b)
  | .vdot4I8 x p d a b => some (opVdot4I8 x p d a b)
  | .vdot4sI8 x p d a b => some (opVdot4sI8 x p d a b)
  | .vdot2I16 x p d a b => some (opVdot2I16 x p d a b)
  | .vdot2sI16 x p d a b => some (opVdot2sI16 x p d a b)
  | .vdot2Bf16 x p d a b => some (opVdot2Bf16 x p d a b)
  | .vdot2F16 x p d a b => some (opVdot2F16 x p d a b)
  | .vectorConvert x p tgt src part d a => some (opVectorConvert x p tgt src part d a)
  | .vand x p d a b => some (opVand x p d a b)
  | .vor x p d a b => some (opVor x p d a b)
  | .vxor x p d a b => some (opVxor x p d a b)
  | .vandn x p d a b => some (opVandn x p d a b)
  | .vsel x p d a b => some (opVsel x p d a b)
  | .vsplatB x p d a => some (opVsplatB x p d a)
  | .vsplatH x p d a => some (opVsplatH x p d a)
  | .vsplatW x p d a => some (opVsplatW x p d a)
  | .vextw x d a b => some (opVextw x d a b)
  | .vinsw x p d a b => some (opVinsw x p d a b)
  | .vrsumI32 x p d a => some (opVrsumI32 x p d a)
  | .vrsumF32 x p d a => some (opVrsumF32 x p d a)
  | .vrmaxF32 x p d a => some (opVrmaxF32 x p d a)
  | .vcmpEq x f p d a b => some (opVcmpEq x f p d a b)
  | .vcmpNe x f p d a b => some (opVcmpNe x f p d a b)
  | .vcmpLt x f p d a b => some (opVcmpLt x f p d a b)
  | .vcmpLe x f p d a b => some (opVcmpLe x f p d a b)
  | .vcmpLtu x f p d a b => some (opVcmpLtu x f p d a b)
  | .vcmpLeu x f p d a b => some (opVcmpLeu x f p d a b)
  | .pand x d a b => some (opPand x d a b)
  | .por x d a b => some (opPor x d a b)
  | .pxor x d a b => some (opPxor x d a b)
  | .pandn x d a b => some (opPandn x d a b)
  | .vexpF32 x p d a => some (opVexpF32 x p d a)
  | .vrecipF32 x p d a => some (opVrecipF32 x p d a)
  | .vectorLoad x p d a off => some (opVectorLoad x p d a off)
  | .vectorStore x p d a off => some (opVectorStore x p d a off)
  | .vdw x fmt n1 p d a b => some (opVdw x fmt n1 p d a b)
  | .vgs x fmt d a b => some (opVgs x fmt d a b)
  | .bleave x => some { opBleave x with check := fun _ => none }
  | _ => none

/-- The vector class (R101, R107). -/
def isVec (i : Instr) : Bool := (opOfVec i).isSome

/-- An instruction of a bundle: its slot, its word and its operation. -/
structure SlotOp where
  slot : Fin 4
  word : W32
  op : Op

/-- What decoding a bundle gives: the instructions of its slots in the order C, M, V, A, the one to broadcast, and the exceptions. -/
structure Bundle where
  ops : List SlotOp
  bcast : Option SlotOp
  excs : List (Fin 4 × W32 × Exc)

/-- One word of a bundle in a slot, with the second word of an extended instruction (R101, R103, R107). -/
def decodeSlot (c : CellId) (slot : Fin 4) (w w2 : W32) : Bundle :=
  let bad := fun (x : Exc) => (⟨[], none, [(slot, w, x)]⟩ : Bundle)
  let ext := wMaj w == 0x3F
  if ext && slot.val % 2 == 1 then bad excIllegal
  else match decodeWord (.seq c) w w2 with
  | .illegalInstr => bad excIllegal
  | .illegalOperand => bad excOperand
  | .ok i =>
    if i = .nop (.seq c) then ⟨[], none, []⟩
    else match opOfVec i with
    | some op => if slot.val = 2 ∧ op.legal then ⟨[], some ⟨slot, w, op⟩, []⟩ else bad excIllegal
    | none =>
      match opOf i with
      | none => bad excIllegal
      | some op =>
        let fits := if ext then op.slot.val / 2 == slot.val / 2 else op.slot == slot
        if fits && op.legal then ⟨[⟨slot, w, op⟩], none, []⟩ else bad excIllegal

/-- The slots of a bundle (R102, R103): an extended instruction in C takes M, one in V takes A. -/
def decodeBundle (c : CellId) (cw mw vw aw : W32) : List Bundle :=
  (decodeSlot c 0 cw mw :: (if wMaj cw = 0x3F then [] else [decodeSlot c 1 mw 0])) ++
    (decodeSlot c 2 vw aw :: (if wMaj vw = 0x3F then [] else [decodeSlot c 3 aw 0]))

/-- The depth of a broadcast queue (R107). -/
def bcastDepth : Nat := 16

/-- Whether a core receives broadcast entries (R108). -/
def Sliver.receives (v : Sliver) : Bool := v.bcast && v.run == .running

/-- R107: an entry of every receiving queue is free, entries on their way counted. -/
def Cell.bcastRoom (k : Cell) : Bool := k.slv.all (fun v => !v.receives || decide (v.bq.length + k.bcastOut.length < bcastDepth))

/-- The instructions of a bundle take effect in the order A, V, M, C (R105); the faults of the slots and the flow of slot C. -/
def runSlots : List SlotOp → State → (List (Fin 4 × W32 × Exc) × Flow) × State
  | [], s => (([], .fall), s)
  | k :: r, s =>
    let ((xs, f), s) := runSlots r s
    match k.op.act s with
    | .error (s, x) => (((k.slot, k.word, x) :: xs, f), s)
    | .ok (s, g) => ((xs, if g = .fall then f else g), s)

/-- Exceptions of one bundle in the order of its slots (R129). -/
def bySlot (l : List (Fin 4 × W32 × Exc)) : List (Fin 4 × W32 × Exc) := (List.finRange 4).flatMap (fun k => l.filter (fun x => x.1 == k))

/-- An operation of the move unit: one of slot M, or the extended MOVE in slots C and M (R103). -/
def Op.moves (o : Op) : Bool := o.slot == 1 || (o.ext && o.slot == 0)

/-- R106: the memory accesses of the move unit and of slot A have no order among themselves; a free choice gives one. -/
def State.slotOrder (s : State) (ops : List SlotOp) : List SlotOp × State :=
  if ops.any (fun k => k.op.moves) && ops.any (fun k => k.op.slot == 3) then
    (if Config.freeBool s.free then ops else ops.filter (fun k => !k.op.moves) ++ ops.filter (fun k => k.op.moves),
     { s with free := s.free + 1 })
  else (ops, s)

/-- Exceptions of one bundle, recorded in the order of its slots (R128, R129). A BRK among them is offered to Hatch while WRITE is held, and the
bundle then counts as passed (R130, R650; log entry 107). -/
def State.raiseAll (s : State) (e : Engine) (pc : Nat) (l : List (Fin 4 × W32 × Exc)) : State :=
  if s.dbgWrite && l.any (fun x => x.2.2 == excBreak) then s.fail e 0 pc 0 16 excBreak
  else (bySlot l).foldl (fun s x => s.raise e x.1 pc x.2.1 x.2.2) s

/-- BUNDLE_ISSUE: `idle` ARR cycles pass without an issue; then the sequencer, where it may issue, fetches, decodes and issues its next
bundle, or holds it for a cycle (R102 to R107, R115, R128). The operands of a broadcast word are checked here, at decode (R118). -/
def State.bundleIssue (s : State) (c : CellId) (idle : Nat) : State :=
  let e : Engine := .seq c
  let s := if s.isChecker c then s else s.tick c idle
  if !s.able e then s
  else
    let pc := s.pc e
    if !fetchOk e pc 16 then s.raise e 0 pc 0 excFetch
    else
      let pa := cellBase c.num + 0x800000 + pc
      let word := fun (i : Nat) => BitVec.ofNat 32 (s.num (pa + 4 * i) 4)
      match s.bkptMatch e with
      | some i => s.breakpoint e 0 pc (word 0) i
      | none =>
        let bs := decodeBundle c (word 0) (word 1) (word 2) (word 3)
        let ops := bs.flatMap (·.ops)
        let bw := bs.filterMap (·.bcast)
        let xs := bs.flatMap (·.excs) ++ (ops ++ bw).filterMap (fun k => (k.op.check s).map (fun x => (k.slot, k.word, x)))
        if !xs.isEmpty then s.raiseAll e pc xs
        else
          let v := ops.any (fun k => s.pendsOn e k.op.uses)
          let h := ops.any (fun k => k.op.holds s)
          let q := !bw.isEmpty && !(s.cell c).bcastRoom
          if v || h || q then
            (s.note c (fun k => { k with held := k.held + 1, heldVar := k.heldVar + bit v,
                                         heldArr := k.heldArr + bit (ops.any (fun k => k.op.slot == 3 && k.op.holds s)),
                                         heldBc := k.heldBc + bit q })).tick c 1
          else
            let (ops, s) := s.slotOrder ops
            let ((xs, f), s) := runSlots ops s
            let s := s.modCell c (fun k => { k with bcastOut := k.bcastOut ++ bw.map (·.word) })
            match xs with
            | [] => ((s.issued e).advance e 16 f).tick c f.cycles
            | l => (s.noteIssue e).raiseAll e pc l

/-- BROADCAST_DELIVERY: the oldest word on its way enters the queue of every receiving core (R107, R108). -/
def State.broadcastDelivery (s : State) (c : CellId) : State :=
  s.modCell c (fun k =>
    match k.bcastOut with
    | [] => k
    | w :: r => { k with bcastOut := r, slv := k.slv.map (fun v => if v.receives then { v with bq := v.bq ++ [w] } else v) })


/-- VARIABLE_RESULT_WRITE: the i-th pending result of the sequencer, once its unit has it, is written at the end of the current cycle, among the
other writes of that cycle (R105, R113, R115). An LDS that has not yet read reads now. -/
def State.variableResultWrite (s : State) (c : CellId) (i : Nat) : State :=
  match ((s.cell c).seq.pendV)[i]? with
  | none => s
  | some p =>
    match p.val with
    | none =>
      match p.read with
      | none => s
      | some (o, pc, w) => s.lateRead c i o pc w
    | some v =>
      if p.wr then s
      else s.modSeq c (fun q => { q with
        pendW := insPendW ⟨(s.cell c).cycle, p.key, .s p.reg, v.setWidth 40⟩ q.pendW, pendV := setNth i { p with wr := true } q.pendV })

/-- CELL_EXCEPTION_REPORT: the oldest exception of the cell is recorded when VALID is 0, and is reported to the JOB_ block and to both
islands (R129, R134 to R137). -/
def State.cellExceptionReport (s : State) (c : CellId) : State :=
  match (s.cell c).excQ with
  | [] => s
  | x :: r =>
    let s := s.modCell c (fun k => { k with excQ := r })
    let b := cellBlk c
    let s :=
      if s.fld b 0x100 31 31 = 1 then s.orReg b 0x100 0x40000000#32
      else
        let a := x.addr.getD 0
        ((((s.setReg b 0x100 (BitVec.ofNat 32 (2 ^ 31 + s.fld b 0x100 30 30 * 2 ^ 30 + x.engine.toNat * 65536 + x.slot.toNat * 1024 +
            x.level.code * 256 + x.cause.toNat))).setReg b 0x104 (x.pc.setWidth 32)).setReg b 0x108 x.word).setReg b 0x10C
            (BitVec.ofNat 32 a)).setReg b 0x110 (BitVec.ofNat 32 (a / 2 ^ 32 % 65536))
    ({ s with jobFaults := s.jobFaults ++ [(c.die, c.idx, x.cause)] }).report (.cellExc c)

/-! ### Memories and translation -/

/-- LS_WRITEBACK: a corrected word of the local store is written back (R40). -/
def State.lsWriteback (s : State) (c : CellId) (word : Nat) : State :=
  let g := lsBase c + 8 * word
  if word < 0xC0000 ∧ s.eccAt g = .corrected then s.setEcc g .clean else s

/-- DRAM_SCRUB: a controller reads and corrects its whole usable capacity (R203): every granule with an error is met, and its requests go through the
scrub's port (R509); in HOLD a pass waits until that port owes nothing of the one before (R511). -/
def State.dramScrub (s : State) (w : Fin 5) : State :=
  let p := if w.val < 4 then 21 else 13
  s.unlessHeld w p fun s =>
  let s := (s.ecc.filter (fun p => dramWin p.1 == some w)).foldl (fun s p => s.touch1 p.1) s
  s.charge w p (if w.val < 4 then cdUsable else hubUsable)

/-- Operations in flight of a cell that hold a translation are marked for a drain. -/
def Cell.flagDrains (k : Cell) (hit : List Page → Bool) : Cell :=
  { k with moves := k.moves.map (fun v => { v with drains := v.drains || hit v.pages }),
           kv := k.kv.map (fun v => { v with drains := v.drains || hit v.pages }) }
def PathUnit.flagDrains (u : PathUnit) (hit : List Page → Bool) : PathUnit :=
  { u with run := u.run.map (fun r => { r with drains := r.drains || hit r.pages }),
           inter := u.inter.map (fun r => { r with drains := r.drains || hit r.pages }) }

/-- R198: the operations of a die that a draining invalidation waits for: those translated through an entry that it may remove; of the hub, the stores
of its host cores (R188). -/
def State.flagDrains (s : State) (m : Fin 5) (hit : List Page → Bool) : State :=
  if h : m.val < 4 then
    let s := { s with cells := s.cells.mapIdx (fun i (k : Cell) => if i / 16 = m.val then Cell.flagDrains k hit else k) }
    s.modPath ⟨m.val, h⟩ (fun u => u.flagDrains hit)
  else { s with stores := s.stores.map (fun k => { k with drains := k.drains || (match k.who with | .eng (.host _) => true | _ => false) }) }

/-- Whether an invalidation of a kind and an address removes the translation of a page (R228). -/
def Page.removed (p : Page) (kind va : Nat) : Bool :=
  match kind with
  | 1 => decide (p.va ≤ va ∧ va < p.va + p.size)
  | 2 => decide (p.va / 2 ^ 32 = va / 2 ^ 32)
  | _ => true

/-- An invalidation of an MMU starts, with the DRAIN and KIND of MMU_TLB_INV (R198, R228). The entries it covers leave the TLB here (DESIGN CHOICE,
log entry 128). -/
def State.tlbInvStart (s : State) (m : Fin 5) : State :=
  let b := Blk.mmu m
  let kind := s.fld b 0x14 2 0
  let drain := s.fld b 0x14 3 3 = 1
  let va := (s.reg b 0xC).toNat + s.fld b 0x10 15 0 * 2 ^ 32
  let t := s.tlbs[m]
  let s := { s with tlbs := s.tlbs.set m { t with entries := t.entries.filter (tlbKeep kind va), inv := some (decide drain, s.crateNext) } }
  if drain then s.flagDrains m (fun l => l.any (fun p => p.removed kind va)) else s

/-- MMU_TLB_INV_GO (R198, R228): a write of MMU_TLB_INV; GO starts an invalidation with the DRAIN and KIND of the same access, and while one
runs it does nothing but set OVERRUN. -/
def State.mmuTlbInvGo (s : State) (m : Fin 5) (v : W32) : State :=
  let b := Blk.mmu m
  if v.getLsbD 4 && (s.tlbs[m]).inv.isSome then s.orReg b 0x14 0x40000000#32
  else
    let s := if v.getLsbD 30 then s.clrReg b 0x14 0x40000000#32 else s
    let s := s.setReg b 0x14 ((s.reg b 0x14 &&& 0xFFFFFFF0#32) ||| (v &&& 0xF#32))
    if v.getLsbD 4 then s.tlbInvStart m else s

/-- Whether operations that a draining invalidation waits for are outstanding (R198). -/
def State.draining (s : State) (m : Fin 5) : Bool :=
  (List.finRange 64).any (fun c => decide (c.val / 16 = m.val) && ((s.cells[c]).moves.any (·.drains) || (s.cells[c]).kv.any (·.drains))) ||
    (if h : m.val < 4 then
      let u := s.paths[m.val]'(by omega)
      (match u.run with | some r => r.drains | none => false) || (match u.inter with | some r => r.drains | none => false)
     else
      s.stores.any (fun k => k.drains && !k.done) ||
        s.crates.any (fun k => (match k.who with | .host _ => true | _ => false) && (match (s.tlbs[m]).inv with | some (_, n) => decide (k.num < n) | none => false)))

/-- TLB_INV_DONE: the invalidation of an MMU completes, once the accesses it drains are performed (R198, R228). -/
def State.tlbInvDone (s : State) (m : Fin 5) : State :=
  match (s.tlbs[m]).inv with
  | none => s
  | some (drain, _) => if drain && s.draining m then s else { s with tlbs := s.tlbs.set m { s.tlbs[m] with inv := none } }

/-! ### Pairs -/

/-- PAIR_MISMATCH: the compare points of a pair differ: both cells stop issuing and it is recorded and reported; no exception is taken
(R534, R558). -/
def State.pairMismatch (s : State) (d : Fin 4) (k : Fin 8) (engine : BitVec 7) (point : BitVec 4) : State :=
  let m : CellId := ⟨d, Fin.ofNat 16 (2 * k.val)⟩
  if !s.pairOn m then s
  else
    let s := s.setReg (cellBlk m) 0x504 (BitVec.ofNat 32 (2 ^ 31 + engine.toNat * 65536 + point.toNat))
    let s := s.modCell m (fun k => { k with
      pairStopped := true, seq := if k.seq.run = .running ∧ k.seq.stop = 0 then { k.seq with stop := 3 } else k.seq })
    s.report (.pairMismatch d)

/-! ### Meanings of events -/

/-- BUNDLE_ISSUE. -/
def execBundleIssue (c : CellId) (idle : Nat) (s : State) : Out := .next (s.bundleIssue c idle)
/-- BROADCAST_DELIVERY. -/
def execBroadcastDelivery (c : CellId) (s : State) : Out := .next (s.onDie c.die fun s => s.broadcastDelivery c)
/-- VARIABLE_RESULT_WRITE. -/
def execVariableResultWrite (c : CellId) (i : Nat) (s : State) : Out := .next (s.onDie c.die fun s => s.variableResultWrite c i)
/-- CELL_EXCEPTION_REPORT. -/
def execCellExceptionReport (c : CellId) (s : State) : Out := .next (s.onDie c.die fun s => s.cellExceptionReport c)
/-- LS_WRITEBACK. -/
def execLsWriteback (c : CellId) (word : Nat) (s : State) : Out := .next (s.onDie c.die fun s => s.lsWriteback c word)
/-- DRAM_SCRUB. -/
def execDramScrub (w : Fin 5) (s : State) : Out := .next (s.onDie5 w fun s => s.dramScrub w)
/-- MMU_TLB_INV_GO. -/
def execMmuTlbInvGo (m : Fin 5) (v : BitVec 32) (s : State) : Out := .next (s.mmuTlbInvGo m v)
/-- TLB_INV_DONE. -/
def execTlbInvDone (m : Fin 5) (s : State) : Out := .next (s.onDie5 m fun s => s.tlbInvDone m)
/-- PAIR_MISMATCH. -/
def execPairMismatch (d : Fin 4) (k : Fin 8) (engine : BitVec 7) (point : BitVec 4) (s : State) : Out := .next (s.onDie d fun s => s.pairMismatch d k engine point)

end Sys2Proof.Machine
end

