-- ==== Sys2Proof/Machine/RegMap.lean ====
section
/-! DEFINITION. Software reads and writes of every register by its package address (R8 to R13, R186, R187, R683): what a read computes, what a
write starts, and who may make the access. -/

namespace Sys2Proof.Machine

/-! ### What an address names -/

/-- The outbound memory window of a PCIe root port that an address lies in, and the offset (R683, R689). -/
def pcieWin (pa : Nat) : Option (Fin 2 × Nat) :=
  if 0xF401C00000 ≤ pa ∧ pa < 0xF402000000 then some (Fin.ofNat 2 ((pa - 0xF401C00000) / 0x200000), pa % 0x200000) else none

/-- The memory request of a root port: at its window base and the offset (R689). -/
def State.pcieMsg (s : State) (i : Fin 2) (off : Nat) (data : List Byte) : OutMsg :=
  .pcie i ((s.reg (.pcie i) 0x100C).toNat * 2 ^ 32 + (s.reg (.pcie i) 0x1008).toNat + off) data
/-- The configuration request of an offset from 0x8000 on (R689). -/
def pcieCfgMsg (i : Fin 2) (o : Nat) (data : List Byte) : OutMsg := .pcieCfg i (o / 0x1000 % 8) (o % 0x1000) data

/-- What a package address names: memory, a register, a record window, a PCIe window, or nothing (R183, R186, R683). -/
inductive Place where
  | mem
  | reg (b : Blk) (o : Nat)
  | win (w : Nat)
  | pcie (i : Fin 2) (off : Nat)
  | hole
  deriving DecidableEq, Repr

def placeOf (pa : Nat) : Place :=
  if pa < 0xF000000000 then (if dramOk pa then .mem else .hole)
  else if isMem pa || inAcoPort pa then .mem
  else match winOf pa with
  | some w => .win w
  | none =>
    match pcieWin pa with
    | some p => .pcie p.1 p.2
    | none =>
      match blkOf pa with
      | some (b, o) => .reg b o
      | none => .hole

/-! ### Reads -/

/-- SAFE_LEVEL (R521, R553). -/
def State.safeLevel (s : State) (i : Fin 2) : W32 :=
  let k := s.isl[i]
  BitVec.ofNat 32 (bit s.faultLow * 2 ^ 18 + bit (s.isl[1 - i]).valid * 2 ^ 17 + bit k.valid * 2 ^ 16 + k.peer * 256 + k.own * 16 + k.level)

/-- SAFE_TRIG_LO and SAFE_TRIG_HI (R554). -/
def Island.trigHi (k : Island) : W32 :=
  BitVec.ofNat 32 ((List.range 32).foldl (fun a n => a + bit (k.trigs.any (fun t => t.id == 32 + n)) * 2 ^ n) 0)

/-- SAFE_TEST_AGE_d: ms since the least recent completion among the units of a die, from reset where one has not completed (R547). The hub's
units are those that have reported (log entry 51). -/
def State.testAge (s : State) (i : Fin 2) (d : Nat) : W32 :=
  let k := s.isl[i]
  let at_ := fun (u : Nat) => match k.tested.find? (fun x => x.1 == d && x.2.1 == u) with | some x => x.2.2 | none => 0
  let units := if d < 4 then List.range 19 else (k.tested.filter (fun x => x.1 == d)).map (fun x => x.2.1)
  let old := match units with | [] => 0 | u :: r => r.foldl (fun m v => min m (at_ v)) (at_ u)
  BitVec.ofNat 32 (min 0xFFFF ((k.time.toNat - old) / 1000000))

/-- The words of a PDMA channel and of an engine (R515, R517). -/
def Chan.word (k : Chan) : W32 :=
  let st := match k.st with | .armed => 1 | .faulted => 2 | _ => 0
  BitVec.ofNat 32 (st * 2 ^ 30 + k.cause % 8 * 2 ^ 26 + min k.pend 31 * 2 ^ 21 + bit k.late * 2 ^ 15 + k.code.toNat)

def State.pdmaRead (s : State) (e : Fin 2) (o : Nat) : W32 :=
  if o = 0 then BitVec.ofNat 32 ((List.finRange 16).countP (fun c => (s.chan e c).st == .armed))
  else if 0x40 ≤ o ∧ o < 0x80 then
    let h := s.hub.ho[Fin.ofNat 4 ((o - 0x40) / 16)]
    if e ≠ 0 then 0
    else if o % 16 = 8 then h.data
    else if o % 16 = 12 then BitVec.ofNat 32 (bit h.valid * 2 ^ 31 + h.fifo.length)
    else if o % 16 = 0 then s.reg (.pdma e) o
    else 0
  else if 0x100 ≤ o ∧ o < 0x300 then
    let k := s.chan e (Fin.ofNat 16 ((o - 0x100) / 32))
    if o % 32 = 12 then k.word else if o % 32 = 16 then BitVec.ofNat 32 (k.left % 2 ^ 24) else s.reg (.pdma e) o
  else s.reg (.pdma e) o

/-- A read of the time base: a LO word latches its HI word (R686); a SYNC_STATE of 0b11 reads as FREE (R306). -/
def State.tbaseRead (s : State) (o : Nat) : W32 × State :=
  let t := s.hub.tb
  let hi := fun (v : BitVec 64) => ((v >>> 32).setWidth 32 : W32)
  let pps := fun (i : Fin 2) => (((t.pps[i]).setWidth 32 : W32), s.modTb (fun t => { t with ppsHi := t.ppsHi.set i (hi t.pps[i]) }))
  if o = 0 then (t.now.setWidth 32, s.modTb (fun t => { t with nowHi := hi t.now }))
  else if o = 4 then (t.nowHi, s)
  else if o = 0x18 then (t.adjLeft, s)
  else if o = 0x1C then (if (s.reg .tbase o).getLsbD 0 && (s.reg .tbase o).getLsbD 1 then 0 else s.reg .tbase o, s)
  else if o = 0x40 then pps 0
  else if o = 0x48 then pps 1
  else if o = 0x44 then (t.ppsHi[(0 : Fin 2)], s)
  else if o = 0x4C then (t.ppsHi[(1 : Fin 2)], s)
  else (s.reg .tbase o, s)

/-- A read of a MAC: the oldest transmit stamp, popped by a read of its HI word (R688). With no stamp the words read 0 (log entry 48). -/
def State.macRead (s : State) (m : Fin 6) (o : Nat) : W32 × State :=
  let q := s.hub.stamps[m]
  let v := q.headD 0
  if o = 0x20 then (v.setWidth 32, s)
  else if o = 0x24 then ((v >>> 32).setWidth 32, s.tstampPop m)
  else if o = 0x28 then (BitVec.ofNat 32 (bit (!q.isEmpty) * 2 ^ 31), s)
  else (s.reg (.mac m) o, s)

/-- A free word, as a device outside the part answers. -/
def State.drawWord (s : State) : W32 × State := (Config.freeVal 32 s.free, { s with free := s.free + 1 })

/-- A software read of a register. -/
def State.blkRead (s : State) (b : Blk) (o : Nat) : W32 × State :=
  match b with
  | .cell _ => s.cellBlockRead b o
  | .perf _ => s.cellBlockRead b o
  | .att _ => s.cellBlockRead b o
  | .loft d => if o = 4 then
        let n := (s.lofts[d]).scans.length
        (BitVec.ofNat 32 (bit (decide (0 < n)) * 256 + min 0xFF (n - 1)), s)
      else (s.reg b o, s)
  | .mmu m => if o = 0x14 then (s.reg b o ||| BitVec.ofNat 32 (bit (s.tlbs[m]).inv.isSome * 2 ^ 31), s) else (s.reg b o, s)
  | .path d =>
      let u := s.path d
      if o = 0x20 then (u.gen.setWidth 32, s)
      else if o = 0x24 then (BitVec.ofNat 32 (bit u.run.isSome * 2 ^ 31 + min 31 u.depth * 65536 + u.ticketNext.toNat), s)
      else (s.reg b o, s)
  | .reg k => if o = 0 then (s.reg b o ||| BitVec.ofNat 32 (bit (s.holdMode k)), s) else (s.reg b o, s)
  | .boot k => (s.bootRead k o, s)
  | .pdma e => (s.pdmaRead e o, s)
  | .aco => if o = 0x104 then s.acoMemRead else (s.reg b o, s)
  | .safe i =>
      if o = 0 then (s.safeLevel i, s)
      else if o = 8 then ((s.isl[i]).trigWord, s)
      else if o = 0xC then ((s.isl[i]).trigHi, s)
      else if 0x40 ≤ o ∧ o < 0x54 then (s.testAge i ((o - 0x40) / 4), s)
      else (s.reg b o, s)
  | .hlth => if o = 8 then (BitVec.ofNat 32 (s.partCount 0x50 * 256 + s.partCount 0x40), s) else (s.reg b o, s)
  | .tbase => s.tbaseRead o
  | .mac m => s.macRead m o
  | .uart =>
      if o = 4 then
        match ((s.uart[(0 : Fin 3)]).wait.flatMap (·.1)).head? with
        | some b => (BitVec.ofNat 32 (256 + b.toNat), s)
        | none => (0, s)
      else (s.reg b o, s)
  | .pcie i => if 0x8000 ≤ o then (s.emit (pcieCfgMsg i o [])).drawWord else (s.reg b o, s)
  | _ => (s.reg b o, s)

/-! ### Writes -/

/-- A write of JOB_CTRL (R431): OVERRUN, IMM, then its commands, ABORT first (log entry 67). -/
def State.jobCtrl (s : State) (v : W32) : State :=
  let s := s.plainWrite .job 0 v
  let s := if v.getLsbD 2 then s.jobAbort false else s
  let s := if v.getLsbD 1 then s.jobSwitch (v.getLsbD 3) else s
  if v.getLsbD 0 then s.jobStart else s

/-- A write of a PDMA_ block (R515 to R517); of the commands of a channel ABORT comes first, KICK last (log entry 67). -/
def State.pdmaWrite (s : State) (e : Fin 2) (o : Nat) (v : W32) : State :=
  if 0x40 ≤ o ∧ o < 0x80 then
    if e ≠ 0 then s
    else if o % 16 = 0 then (if s.jobRuns then s else s.plainWrite (.pdma e) o v)
    else if o % 16 = 4 ∧ v.getLsbD 0 then s.hoPop (Fin.ofNat 4 ((o - 0x40) / 16))
    else s
  else if 0x100 ≤ o ∧ o < 0x300 ∧ o % 32 = 8 then
    let c := Fin.ofNat 16 ((o - 0x100) / 32)
    let s := s.plainWrite (.pdma e) o v
    let s := if v.getLsbD 2 then s.pdmaAbort e c false else s
    let s := if v.getLsbD 0 then s.pdmaArm e c (v.getLsbD 3) else s
    if v.getLsbD 4 then s.pdmaKick e c else s
  else s.plainWrite (.pdma e) o v

/-- A write of a BOOT_OTP_CMD (R626, R637). -/
def State.otpWrite (s : State) (o : Fin 3) (v : W32) : State :=
  let s := s.plainWrite (.boot o) 0x10 v
  let arg := bits v 11 8
  match bits v 7 0 with
  | 0 => s
  | 1 => s.otpRevoke o arg
  | 2 => s.otpRevokeDebug o arg
  | 3 => s.otpAdvance o arg
  | 4 => s.otpLifecycle o arg
  | _ => s.otpCmd o false id

/-- A write of a BOOT_ block (R636 to R639). -/
def State.bootWrite (s : State) (k : Fin 3) (o : Nat) (v : W32) : State :=
  if o = 0x10 then s.otpWrite k v
  else if k ≠ 0 then s
  else if o = 4 then s.funcReadyWrite v
  else if o = 0x80 then
    let s := s.plainWrite (.boot 0) o v
    if v.getLsbD 20 then s.measGo (bits v 19 16) else s
  else if o = 0x84 then
    let s := s.plainWrite (.boot 0) o v
    if v.getLsbD 0 then s.attestGo else s
  else s.plainWrite (.boot 0) o v

/-- A write of a D2D_ block (R464 to R467): a fence demand for a die wins over its UNFENCE in one write (R582), and a lowered score limit takes the
modules above it out (R452). -/
def State.d2dWrite (s : State) (d : Fin 7) (o : Nat) (v : W32) : State :=
  if o = 0x10 then (if s.jobRuns || decide (4 ≤ d.val) then s else s.plainWrite (.d2d d) o v)
  else if o = 0x20 then
    if d.val ≠ 4 then s
    else
      let f := v.extractLsb' 8 4
      let u := v.extractLsb' 16 4
      let s := ((s.plainWrite (.d2d d) o v).fenceSet f).unfence (u &&& ~~~f)
      if u &&& f = 0 then s else s.orReg (.d2d 4) 0x20 0x1000000#32
  else if o = 8 then (List.finRange 10).foldl (fun (s : State) (m : Fin 10) => s.scoreCheck d m) (s.plainWrite (.d2d d) o v)
  else if 0x100 ≤ o ∧ o < 0x128 ∧ o % 4 = 0 then
    if v.getLsbD 31 then s.takeOut d (Fin.ofNat 10 ((o - 0x100) / 4)) 6 else s
  else s.plainWrite (.d2d d) o v

/-- A write of a SAFE_ block (R553, R555). -/
def State.safeWrite (s : State) (i : Fin 2) (o : Nat) (v : W32) : State :=
  if o = 4 then
    let s := if v.getLsbD 0 then s.safeArm i else s
    if v.getLsbD 1 then s.forceSafe i else s
  else if (o = 0x14 ∨ o = 0x18) ∧ s.armed i then s
  else s.plainWrite (.safe i) o v

/-- A write of the time base (R306, R312, R686). -/
def State.tbaseWrite (s : State) (o : Nat) (v : W32) : State :=
  if o = 8 then s.modTb (fun t => { t with setLo := v })
  else if o = 0xC then s.timeSet (v ++ s.hub.tb.setLo)
  else if o = 0x14 then s.timeAdj v
  else if o = 0x28 ∨ o = 0x2C then (s.plainWrite .tbase o v).fsyncRegrid
  else if o = 0x30 ∨ o = 0x34 then (s.plainWrite .tbase o v).cutRegrid
  else if o = 0x50 then (if v.getLsbD 0 then s.fsyncCommit else s)
  else s.plainWrite .tbase o v

/-- A write of sensor ingest: the fields of a port are written only while its EN is 0 (R687). -/
def State.ingestWrite (s : State) (o : Nat) (v : W32) : State :=
  if o < 0x300 ∧ (s.reg .ingest (o / 32 * 32)).getLsbD 0 then s else s.plainWrite .ingest o v

/-- A write of a PCIe root port (R689). -/
def State.pcieWrite (s : State) (i : Fin 2) (o : Nat) (v : W32) : State :=
  if o = 0x1000 then (if v.getLsbD 0 then s.perstRelWrite i else s.clrReg (.pcie i) o 1#32)
  else if 0x8000 ≤ o then s.emit (pcieCfgMsg i o (toLe 4 v.toNat))
  else s.plainWrite (.pcie i) o v

/-- A write of a MAC: SPEED keeps its value where the new one is none of the MAC's (R688; log entry 44). -/
def State.macWrite (s : State) (m : Fin 6) (o : Nat) (v : W32) : State :=
  let speed := bits v 3 1
  s.plainWrite (.mac m) o (if o = 0 ∧ (3 < speed ∨ (4 ≤ m.val ∧ 1 < speed)) then (v &&& 0xFFFFFFF1#32) ||| (s.reg (.mac m) 0 &&& 0xE#32) else v)

/-- A write of CDC_TIMEOUT reaches the fields that the die has (R489). -/
def State.cdcWrite (s : State) (d : Fin 7) (o : Nat) (v : W32) : State :=
  if o = 0 then s.setReg (.cdc d) 0 (if d.val < 4 then v &&& 0xFF#32 else if d.val = 4 then v else v &&& 0xF#32)
  else s.plainWrite (.cdc d) o v

/-- A write of a REG_ block: CLASS of a scrub port is read-only (R520). -/
def State.regBlkWrite (s : State) (b : Fin 5) (o : Nat) (v : W32) : State :=
  let s := s.plainWrite (.reg b) o (if o = scrubPort b then (v &&& 0xFFFFFFF8#32) ||| (s.reg (.reg b) o &&& 7#32) else v)
  if o = 0 then s.grantLower else s

/-- A software write of a register. -/
def State.blkWrite (s : State) (b : Blk) (o : Nat) (v : W32) : State :=
  match b with
  | .cell _ => s.cellBlockWrite b o v
  | .perf _ => s.cellBlockWrite b o v
  | .att _ => s.cellBlockWrite b o v
  | .mmu m => if o = 0x14 then s.mmuTlbInvGo m v else s.plainWrite b o v
  | .reg k => s.regBlkWrite k o v
  | .d2d d => s.d2dWrite d o v
  | .cdc d => s.cdcWrite d o v
  | .job => if o = 0 then s.jobCtrl v else s.plainWrite b o v
  | .boot k => s.bootWrite k o v
  | .pdma e => s.pdmaWrite e o v
  | .aco =>
      if o = 0 then s.acoCtrl v
      else if o = 4 then (if v.getLsbD 0 then s.acoCommitGo else s)
      else if o = 0x104 then s.acoMemWrite v
      else s.plainWrite b o v
  | .safe i => s.safeWrite i o v
  | .tbase => s.tbaseWrite o v
  | .ingest => s.ingestWrite o v
  | .mac m => s.macWrite m o v
  | .pcie i => s.pcieWrite i o v
  | .hlth => if o = 0x320 then (s.plainWrite b o v).ageWords else s.plainWrite b o v
  | .uart => if o = 0 then s.emit (.line .hd [v.setWidth 8]) else s
  | _ => s.plainWrite b o v

/-! ### Who may make an access -/

/-- The island whose window a block lies in. -/
def Blk.isle : Blk → Option (Fin 2)
  | .safe i => some i
  | .therm => some 0
  | .hlth => some 1
  | .boot o => if o.val = 0 then none else some (Fin.ofNat 2 (o - 1))
  | .d2d d => if d.val < 5 then none else some (Fin.ofNat 2 (d - 5))
  | .cdc d => if d.val < 5 then none else some (Fin.ofNat 2 (d - 5))
  | _ => none

/-- R13, R187 and the opening words of each block: registers are reached at Supervisor or above; an island's blocks are written by its own
firmware only; the hub's BOOT_ block is written at Monitor only. -/
def mayReach (who : Agent) (write : Bool) (b : Blk) : Bool :=
  match b.isle with
  | some i =>
    match who with
    | .user => false
    | .sia => !write || i == 0
    | .sib => !write || i == 1
    | _ => !write
  | none =>
    match who with
    | .user => false
    | .monitor => true
    | _ => !(write && b == .boot 0)

/-- The path of an agent to a block: an island's firmware runs once its supervisor has released it (R587), and reaches what lies outside its window
over its link to the hub, and a compute die over the hub's link to that die (R20); the hub and the dies are in reset while PWROK is low (R589). -/
def State.mayPass (s : State) (who : Agent) (b : Blk) : Bool :=
  let from_ := fun (i : Fin 2) =>
    let d := dieOf b.base
    (s.isl[i]).up && (b.isle == some i || (s.pwrok && s.hubLink i && (decide (4 ≤ d.val) || s.edgeUp 4 d)))
  match who with
  | .sia => from_ 0
  | .sib => from_ 1
  | _ => s.pwrok

/-- REGISTER_WRITE: software writes a word of a register; an access that is misaligned, names no register or is not allowed is not
performed (R8 to R11, R13, R20, R187, R587, R589). -/
def State.registerWrite (s : State) (who : Agent) (pa : Nat) (v : W32) : State :=
  match placeOf pa with
  | .reg b o => if pa % 4 = 0 && mayReach who true b && s.mayPass who b then (s.reachAt pa).blkWrite b o v else s
  | _ => s

end Sys2Proof.Machine
end

