-- ==== Sys2Proof/Machine/Host.lean ====
section
/-! DEFINITION. Scalar loads and stores on sliver cores and host cores, and CAS (R145, R147), and the register writes of software (R8). -/

namespace Sys2Proof.Machine

/-! ### Addresses of a host core -/

/-- The package map holds `n` bytes at an address for a level and a direction (R183, R185, R187, R683). -/
def hostMap (user write : Bool) (pa n : Nat) : Bool :=
  rangeOk user write pa n && placeOf pa != .hole && placeOf (pa + n - 1) != .hole

/-- The physical address of an access of a host core, or its exception: misaligned, then untranslated at Monitor with the range check, or
translated by the hub's MMU (R118, R185, R188). Bits of a virtual address above 47 are not used (log entry 68). -/
def State.hostAddr (s : State) (h : Fin 8) (acc : Acc) (a : W64) (n : Nat) : Except Exc Nat × State :=
  let va := a.toNat
  let rangeFault := fun (s : State) => (.error (excTrans va), s.mmuFault 4 0 h 5 0 (va % 2 ^ 40))
  if va % n ≠ 0 then (.error (excAccess va), s)
  else
    match (s.hosts[h]).level with
    | .monitor => if hostMap false (acc == .write) va n then (.ok va, s) else rangeFault s
    | lv =>
      match s.translate 4 (lv == .user) acc (va % 2 ^ 48) with
      | (.fault c l _, s) => (.error (excTrans va), s.mmuFault 4 0 h c l (va % 2 ^ 48))
      | (.page p, s) =>
        let pa := p.phys (va % 2 ^ 48)
        if hostMap (lv == .user) (acc == .write) pa n then (.ok pa, s) else (.error (excTrans va), s.mmuFault 4 0 h 5 0 (va % 2 ^ 48))

/-- The level of a host core, as an agent. -/
def State.hostAgent (s : State) (h : Fin 8) : Agent :=
  match (s.hosts[h]).level with | .user => .user | .supervisor => .supervisor | .monitor => .monitor

/-- The clock domain of a peripheral controller (R30, R683). -/
def periDom (pa : Nat) : Option (Fin 18) :=
  match placeOf pa with
  | .win w => winDom w
  | .pcie _ _ => some 13
  | .reg (.tbase) _ => some 17
  | .reg (.ingest) _ => some 10
  | .reg (.mac _) _ => some 12
  | .reg (.pcie _) _ => some 13
  | .reg (.usb) _ => some 14
  | .reg (.aco) _ => some 11
  | .mem => if inAcoPort pa then some 11 else none
  | _ => none

/-- The status of a host access that meets a held or stalled crossing on its way: HOST to FAB, FAB to the next die, FAB to the peripheral; 0 where it
meets none. The reset of the acoustic engine covers its queues only, not its registers (R477). -/
def State.hostCode (s : State) (pa : Nat) : Nat :=
  let r := s.route 4 (dieOf pa)
  let near := if s.cutCode 4 8 ≠ 0 then s.cutCode 4 8 else s.cutCode 4 9
  if near ≠ 0 then near
  else if !r.isEmpty && s.crossCode 4 (r.headD 4) != 0 then s.crossCode 4 (r.headD 4)
  else match placeOf pa with
    | .reg (.aco) _ => if s.cutCode 4 11 = 6 then 0 else s.perCut (some 11)
    | _ => s.perCut (periDom pa)

/-- Whether a host access to an address ends at a lost, fenced, held or stalled crossing (R454, R478, R479, R484; log entry 69). -/
def State.hostCut (s : State) (pa : Nat) : Bool := !s.routeOk 4 (s.route 4 (dieOf pa)) || s.hostCode pa != 0

/-- The traffic of a host access: port 0 of the hub fabric, and the port of the die that it enters (R509). -/
def State.hostCharge (s : State) (pa n : Nat) : State :=
  let s := s.charge 4 0 n
  if dieOf pa = 4 then s else s.chargeIn (dieOf pa) 4 n

/-- What the loss of a host access leaves: a lost one counts as a lost crate of the hub (R454), and ST of the core holds the status of a loss, a
flush or a stall. -/
def State.hostLoss (s : State) (h : Fin 8) (pa : Nat) : State :=
  let r := s.route 4 (dieOf pa)
  if !s.routeOk 4 r then ((s.d2dErr 4 0).count (.d2d 4) 0x18 15 0 1).setSt (.host h) 17
  else s.setSt (.host h) (s.hostCode pa)

/-- The port of the host cores holds an access to memory (R509, R511). -/
def State.hostHeld (s : State) (e : Engine) (acc : Acc) (ea : W64) (n : Nat) : Bool :=
  match e with
  | .host h =>
    s.portHeld 4 0 && (match s.hostAddr h acc ea n with
      | (.ok pa, _) => placeOf pa == .mem
      | _ => false)
  | _ => false

/-- DRAM of another die, which crates serve (R445). -/
def remoteDram (pa : Nat) : Bool := decide (pa < 0x4000000000)

/-- A read of `n` bytes by a host core at a physical address: memory, a register (whole words only, R11), a record window, or the device
behind a PCIe window. -/
def State.hostRead (s : State) (h : Fin 8) (a : W64) (pa n : Nat) : Ex (Nat × State) :=
  let word := match placeOf pa with | .reg _ _ => decide (n ≠ 4) | _ => false
  if word then .error (s, excAccess a.toNat)
  else if s.hostCut pa then .error (s.hostLoss h pa, excData a.toNat)
  else
    match placeOf pa with
    | .mem =>
      let s := ((s.hostCharge pa n).reachAt pa).touch pa n
      if s.isMarked pa n then .error (s, excData a.toNat) else .ok (leNat (s.ownBytes (.eng (.host h)) pa n), s)
    | .reg b o =>
      if !mayReach (s.hostAgent h) false b then .error (s, excPriv)
      else let (v, s) := (s.reachAt pa).blkRead b o; .ok (v.toNat, s)
    | .win w => let (l, s) := s.winTake w n; .ok (leNat l, s)
    | .pcie i off =>
      let s := s.emit (s.pcieMsg i off [])
      .ok ((Config.freeVal (8 * n) s.free).toNat, { s with free := s.free + 1 })
    | .hole => .error (s, excTrans a.toNat)

/-- A store of a host core into memory: crates carry it to another die's DRAM (R445); elsewhere it is a direct store, which later accesses may
overtake (R24, R205), but for the acoustic buffer port, whose buffers count what arrives. -/
def State.hostStore (s : State) (h : Fin 8) (pa : Nat) (l : List Byte) : State :=
  if remoteDram pa then (s.charge 4 0 l.length).sendWr (.host h) 4 .sys pa l [] 2
  else
    let s := (s.hostCharge pa l.length).reachAt pa
    if inAcoPort pa then (s.write pa l).acoArrive pa l.length else s.store (.eng (.host h)) pa l

/-- A write of `n` bytes by a host core at a physical address. A write into a cut crossing is not performed (R478). -/
def State.hostWrite (s : State) (h : Fin 8) (a : W64) (pa n v : Nat) : Ex State :=
  match placeOf pa with
  | .reg b o =>
    if n ≠ 4 then .error (s, excAccess a.toNat)
    else if !mayReach (s.hostAgent h) true b then .error (s, excPriv)
    else if s.hostCut pa then .ok (s.hostLoss h pa)
    else .ok ((s.reachAt pa).blkWrite b o (BitVec.ofNat 32 v))
  | .hole => .error (s, excTrans a.toNat)
  | .mem => if s.hostCut pa then .ok (s.hostLoss h pa) else .ok (s.hostStore h pa (toLe n v))
  | .win w => if s.hostCut pa then .ok (s.hostLoss h pa) else .ok (s.winPush w (toLe n v)).1
  | .pcie i off => if s.hostCut pa then .ok (s.hostLoss h pa) else .ok (s.emit (s.pcieMsg i off (toLe n v)))

/-! ### Loads and stores -/

/-- The address of a host access: the register and the signed offset (R147). -/
def State.hostEa (s : State) (h : Fin 8) (r : Reg) (off : BitVec 13) : W64 := s.x (.host h) r + off.signExtend 64

/-- The local store offset of a sliver core's access. -/
def State.slvEa (s : State) (e : Engine) (r : Reg) (off : BitVec 13) : Nat := offAdd (s.xw e r) off.toInt

/-- Scalar load (R147). One of a host core from another die's DRAM holds the core until its data are back. -/
def opScalarLoad (e : Engine) (d a : Reg) (size : Fin 4) (u : Bool) (off : BitVec 13) : Op :=
  let n := 2 ^ size.val
  { slot := 0, legal := !isSeq e, uses := [d, a],
    check := fun _ => if isSlv e && size == 3 then some excOperand else none,
    holds := fun s => s.hostHeld e .read (s.x e a + off.signExtend 64) n,
    act := fun s =>
      match e with
      | .host h =>
        let ea := s.hostEa h a off
        match s.hostAddr h .read ea n with
        | (.error x, s) => .error (s, x)
        | (.ok pa, s) =>
          if remoteDram pa && !s.hostCut pa then
            .ok ((((s.charge 4 0 n).setHold e (.hostRead s.crateNext d (Fin.ofNat 9 n) u ea))).sendCrate
              { crateOf .rd (.host h) 4 (dieOf pa) with pa := pa, len := n }, .fall)
          else
            match s.hostRead h ea pa n with
            | .error x => .error x
            | .ok (v, s) => .ok (s.setX e 0 1 d (loadVal n v u), .fall)
      | _ =>
        match s.lsRead e (s.slvEa e a off) n with
        | .error x => .error x
        | .ok (v, s) => .ok (s.setX e 0 4 d (loadVal n v u), .fall) }

/-- Scalar store (R147). -/
def opScalarStore (e : Engine) (d a : Reg) (size : Fin 4) (off : BitVec 13) : Op :=
  let n := 2 ^ size.val
  { slot := 0, legal := !isSeq e, uses := [d, a],
    check := fun _ => if isSlv e && size == 3 then some excOperand else none,
    holds := fun s => s.hostHeld e .write (s.x e a + off.signExtend 64) n,
    act := fun s =>
      match e with
      | .host h =>
        let ea := s.hostEa h a off
        match s.hostAddr h .write ea n with
        | (.error x, s) => .error (s, x)
        | (.ok pa, s) =>
          match s.hostWrite h ea pa n (s.x e d).toNat with
          | .error x => .error x
          | .ok s => .ok (s, .fall)
      | _ =>
        match s.lsWrite e (s.slvEa e a off) n (s.xw e d).toNat with
        | .error x => .error x
        | .ok s => .ok (s, .fall) }

/-- CAS (R145): one indivisible read and conditional write of a doubleword, or of a word with W = 1, in another die's DRAM too: it is made in one
step, behind the core's earlier stores and before its later accesses. Its write permission is checked whether or not the comparison holds (DESIGN CHOICE,
log entry 127). -/
def opCas (h : Fin 8) (w : Bool) (d a b : Reg) : Op :=
  let n := if w then 4 else 8
  { slot := 0, uses := [d, a, b],
    holds := fun s => s.crates.any (fun k => k.who == .host h) || s.hostHeld (.host h) .write (s.x (.host h) a) n,
    act := fun s =>
      let s := s.performAll (fun k => k.who == .eng (.host h))
      let ea := s.x (.host h) a
      match s.hostAddr h .read ea n with
      | (.error x, s) => .error (s, x)
      | (.ok _, s) =>
        match s.hostAddr h .write ea n with
        | (.error x, s) => .error (s, x)
        | (.ok pa, s) =>
          let cut := if remoteDram pa then s.memCut (Fin.ofNat 4 (pa / 0x1000000000)) else 0
          if !s.hostCut pa && cut != 0 then .error (s.setSt (.host h) cut, excData ea.toNat)
          else
          match s.hostRead h ea pa n with
          | .error x => .error x
          | .ok (t, s) =>
            let old := s.x (.host h) d
            let new := (s.x (.host h) b).toNat
            let put := if t ≠ old.toNat % 2 ^ (8 * n) then .ok s
              else if placeOf pa == .mem then .ok ((s.hostCharge pa n).write pa (toLe n new))
              else s.hostWrite h ea pa n new
            match put with
            | .error x => .error x
            | .ok s => .ok (s.setX (.host h) 0 1 d (loadVal n t false), .fall) }

/-! ### Meanings -/

/-- CAS. -/
def execCas (h : Fin 8) (w : Bool) (d a b : Reg) (s : State) : Out := .next (runOp (.host h) (wordOf (.cas h w d a b)) (opCas h w d a b) s)

/-- SCALAR_LOAD. -/
def execScalarLoad (e : Engine) (d a : Reg) (size : Fin 4) (u : Bool) (off : BitVec 13) (s : State) : Out :=
  .next (runOp e (wordOf (.scalarLoad e d a size u off)) (opScalarLoad e d a size u off) s)

/-- SCALAR_STORE. -/
def execScalarStore (e : Engine) (d a : Reg) (size : Fin 4) (off : BitVec 13) (s : State) : Out :=
  .next (runOp e (wordOf (.scalarStore e d a size off)) (opScalarStore e d a size off) s)

/-- REGISTER_WRITE. -/
def execRegisterWrite (who : Agent) (pa : BitVec 40) (v : BitVec 32) (s : State) : Out := .next (s.registerWrite who pa.toNat v)

end Sys2Proof.Machine
end

