-- ==== Sys2Proof/Machine/Hatch.lean ====
section
/-! DEFINITION. The Hatch monitors (R640 to R655) and SIA's fatal dump (R656 to R664). -/

namespace Sys2Proof.Machine

/-! ### Who answers -/

/-- Whether firmware serves a monitor: the hub's by hub firmware, an island's by its firmware (R640; log entry 71). -/
def State.served (s : State) : MonId → Bool
  | .hd => s.ready 3
  | .sia => (s.isl[(0 : Fin 2)]).up
  | .sib => (s.isl[(1 : Fin 2)]).up

/-- The hub ROM is in recovery (R624). -/
def State.recovering (s : State) : Bool := !s.ready 3 && s.fld (.boot 0) 0 7 0 == 2

/-- The hub ROM serves the USB service port: in recovery, or, once it runs, in OPEN with no key slot programmed (R624, R627). -/
def State.usbService (s : State) : Bool := s.pwrok && (s.recovering || (!s.ready 3 && s.ready 2 && (s.boot 0).otp.blank))

/-- Whether someone answers: firmware, or a ROM, the hub's on the USB service port and an island's, in OPEN with no key slot programmed, on its UART
(R624, R627, R640). -/
def State.listens (s : State) (m : MonId) : Bool :=
  s.served m || (match m with
    | .hd => s.usbService
    | .sia => (s.isl[(0 : Fin 2)]).rel && (s.boot 1).otp.blank
    | .sib => (s.isl[(1 : Fin 2)]).rel && (s.boot 2).otp.blank)

/-- Any scope has been granted. -/
def State.anyGrant (s : State) (m : MonId) : Bool := s.fld (.boot (monNum m)) 0xA0 2 0 != 0

/-- A request that needs a scope: before any grant it is not answered, without its scope it is answered ERR LOCKED; a ROM does not know it (R634, R644,
R646). -/
def State.hatch (s : State) (m : MonId) (scope : Nat) (f : State → State) : State :=
  if !s.anyGrant m then s
  else if !s.served m then s.reply m [] (some .cmd)
  else if !s.granted (monNum m) scope then s.reply m [] (some .locked)
  else f s

/-- The two scopes by name. -/
def scopeRead : Nat := 0
def scopeWrite : Nat := 1

/-- The commands of a monitor that need no grant, by name, each with the numbers of arguments that it takes (R634, R644, R648). -/
def openCommands (m : MonId) : List (List Byte × List Nat) :=
  [(ascii ['C', 'H', 'A', 'L'], [1]),
    (ascii ['R', 'E', 'S', 'P'], [2]),
    (ascii ['P', 'R', 'O', 'G', 'R', 'A', 'M', '_', 'K', 'E', 'Y'], [2]),
    (ascii ['P', 'R', 'O', 'G', 'R', 'A', 'M', '_', 'D', 'E', 'B', 'U', 'G', '_', 'K', 'E', 'Y'], [2]),
    (ascii ['S', 'E', 'T', '_', 'L', 'I', 'F', 'E', 'C', 'Y', 'C', 'L', 'E'], [1]),
    (ascii ['R', 'E', 'A', 'D', '_', 'I', 'D'], [0])] ++
  (if m = .hd then [(ascii ['L', 'O', 'A', 'D', '_', 'I', 'M', 'A', 'G', 'E'], [1]),
    (ascii ['D', 'A', 'T', 'A'], [2])] else [])

/-- The commands that its firmware knows and that need a scope (R644; log entry 71). -/
def scopedCommands : MonId → List (List Byte × List Nat)
  | .hd => [(ascii ['R', 'E', 'A', 'D', 'Y'], [0]),
    (ascii ['P', 'E', 'E', 'K'], [2]),
    (ascii ['P', 'O', 'K', 'E'], [2]),
    (ascii ['H', 'E', 'A', 'L', 'T', 'H'], [0, 1]),
    (ascii ['C', 'O', 'U', 'N', 'T', 'E', 'R', 'S'], [1, 2, 6]),
    (ascii ['J', 'O', 'B'], [0, 1, 2]),
    (ascii ['D', 'U', 'M', 'P'], [2, 4]),
    (ascii ['C', 'E', 'L', 'L'], [3, 4, 5, 6, 7])]
  | .sia => [(ascii ['R', 'E', 'A', 'D', 'Y'], [0]),
    (ascii ['P', 'E', 'E', 'K'], [2]),
    (ascii ['D', 'U', 'M', 'P'], [2, 4])]
  | .sib => [(ascii ['R', 'E', 'A', 'D', 'Y'], [0]),
    (ascii ['P', 'E', 'E', 'K'], [2])]

/-- LINE_ERROR: a line that breaks R641, or with a framing error, is answered ERR LINE, and nothing is executed (R642). A line of the right form brings a
command that the monitor does not know, answered ERR CMD, or too few or too many arguments, answered ERR ARG (R646); before any grant only CHAL, RESP and
the commands of R634 are answered (R644). One that the monitor can take comes as its own command. -/
def State.lineError (s : State) (m : MonId) (l : List Byte) (framing : Bool) : State :=
  match if framing then none else lineFields l with
  | none => s.badLine m l
  | some f =>
    let s := s.modUart m (fun u => { u with tag := (lineTag l).getD 0 })
    let n := f.length - 2
    let find := fun (l : List (List Byte × List Nat)) => l.find? (fun p => p.1 == f.getD 1 [])
    match find (openCommands m) with
    | some p => if p.2.contains n then s else s.reply m [] (some .arg)
    | none =>
      if !s.anyGrant m then s
      else match if s.served m then find (scopedCommands m) else none with
        | none => s.reply m [] (some .cmd)
        | some p => if p.2.contains n then s else s.reply m [] (some .arg)

/-- A request runs: a job command that has not been answered, or lines that wait (R642). -/
def State.monBusy (s : State) (m : MonId) : Bool := (decide (m = .hd) && s.job.owed) || !(s.uart[monNum m]).wait.isEmpty

/-- The bytes that wait in a monitor's buffer. -/
def Uart.bytes (u : Uart) : Nat := (u.wait.map (fun p => p.1.length)).foldl (· + ·) 0

/-! ### Unlock (R633 to R635, R647) -/

/-- HATCH_CHAL. After 8 failed responses no challenge is issued. -/
def State.hatchChal (s : State) (m : MonId) (scope : BitVec 3) : State :=
  let o := monNum m
  if scope = 0 then s.reply m [] (some .arg)
  else if 8 ≤ s.fld (.boot o) 0xA0 23 20 then s.reply m [] (some .locked)
  else
    let (c, s) := s.challenge o scope
    ((s.modBoot o (fun b => { b with chal := some (c, scope) })).orReg (.boot o) 0xA0 0x80000#32).replyBytes m c

/-- HATCH_RESP. -/
def State.hatchResp (s : State) (m : MonId) (key sig : List Byte) : State :=
  if key.length ≠ 32 ∨ sig.length ≠ 64 then s.reply m [] (some .arg)
  else
    match s.response (monNum m) key sig with
    | (.granted, s) => s.reply m [] none
    | (.expired, s) => s.reply m [] (some .expired)
    | (.locked, s) => s.reply m [] (some .locked)
    | (.failed, s) => s.reply m [] (some .refused)

/-- HATCH_READY. -/
def State.hatchReady (s : State) (m : MonId) : State :=
  s.hatch m scopeRead (fun s => s.reply m [s.funcReady, s.safeLevel 0, s.safeLevel 1] none)

/-! ### PEEK and POKE (R645, R653) -/

/-- A word in a paired checker's cell window, other than its pairing registers (R653). -/
def State.inChecker (s : State) (pa : Nat) : Bool :=
  decide (0xF000000000 ≤ pa ∧ pa < 0xF400000000 ∧ pa % 0x100000000 < 0x10000000) &&
    s.isChecker (cellOfNum (Fin.ofNat 64 ((pa - 0xF000000000) / 0x100000000 * 16 + pa % 0x100000000 / 0x1000000))) &&
    decide (pa % 0x1000000 ≠ 0xC00500 ∧ pa % 0x1000000 ≠ 0xC00504)

/-- What meets a monitor's access on its way: an island's monitor reaches its own window without a crossing. -/
def State.monCut (s : State) (m : MonId) (pa : Nat) : Bool := decide (m = .hd) && s.hostCut pa

/-- Whether a Supervisor access to a word passes the checks of the package map and of the block (R183, R187, R645). -/
def superOk (write : Bool) (pa : Nat) : Bool :=
  hostMap false write pa 4 && (match placeOf pa with | .reg b _ => mayReach .supervisor write b | _ => true)

/-- One word read for a monitor, as a Supervisor access. -/
def State.peekWord (s : State) (m : MonId) (pa : Nat) : Except LineErr W32 × State :=
  if placeOf pa = .hole then (.error .priv, s)
  else if s.inChecker pa then (.error .checker, s)
  else if pa % 4 ≠ 0 ∨ !superOk false pa ∨ s.monCut m pa then (.error .fault, s)
  else
    match placeOf pa with
    | .mem =>
      let s := s.touch pa 4
      if s.isMarked pa 4 then (.error .fault, s) else (.ok (BitVec.ofNat 32 (s.num pa 4)), s)
    | .reg b o => let (v, s) := s.blkRead b o; (.ok v, s)
    | .win w => let (l, s) := s.winTake w 4; (.ok (BitVec.ofNat 32 (leNat l)), s)
    | .pcie i off => let (v, s) := (s.emit (s.pcieMsg i off [])).drawWord; (.ok v, s)
    | .hole => (.error .priv, s)

/-- Words from an address on: those read, and the error that stopped it. -/
def State.peekWords (s : State) (m : MonId) (pa : Nat) : Nat → (List W32 × Option LineErr) × State
  | 0 => (([], none), s)
  | n + 1 =>
    match (s.reachAt pa).peekWord m pa with
    | (.error e, s) => (([], some e), s)
    | (.ok v, s) =>
      let ((l, e), s) := s.peekWords m (pa + 4) n
      ((v :: l, e), s)

/-- The answer of words read from addresses one after another. -/
def State.replyPeek (s : State) (m : MonId) (pa n : Nat) : State :=
  let ((l, e), s) := s.peekWords m pa n
  s.reply m l e

/-- The window of an island monitor's PEEK. -/
def monWindow (m : MonId) (pa n : Nat) : Bool :=
  match m with
  | .hd => true
  | .sia => decide (islBase 0 ≤ pa ∧ pa + 4 * n ≤ islBase 0 + 0x100000000)
  | .sib => decide (islBase 1 ≤ pa ∧ pa + 4 * n ≤ islBase 1 + 0x100000000)

/-- PEEK. -/
def State.peek (s : State) (m : MonId) (pa count : Nat) : State :=
  s.hatch m scopeRead (fun s =>
    if count = 0 ∨ 64 < count then s.reply m [] (some .arg)
    else if !monWindow m pa count then s.reply m [] (some .priv)
    else s.replyPeek m pa count)

/-- The bytes of a resident job image: its header, its section table, its sections, and where these are kept resident (R410 to R412). -/
def State.inImage (s : State) (pa : Nat) : Bool :=
  s.job.eligible.any (fun img => decide (img ≤ pa ∧ pa < img + 0x200) ||
    (s.sections img).zipIdx.any (fun p =>
      let x := s.sectionAt img p.1
      let r := x.resident img p.2
      decide ((p.1 ≤ pa ∧ pa < p.1 + 32) ∨ (x.src ≤ pa ∧ pa < x.src + x.len) ∨ (r ≤ pa ∧ pa < r + x.len))))

/-- What R645 keeps a POKE from. -/
def State.pokeBarred (s : State) (pa : Nat) : Bool :=
  inIsland pa || (match placeOf pa with | .reg (.boot _) _ => true | .hole => true | _ => false) || s.inImage pa ||
    Config.hubFirmware.any (fun r => decide (r.1 ≤ pa ∧ pa < r.1 + r.2))

/-- POKE: a word is written as a Supervisor access, and read back. -/
def State.poke (s : State) (pa : Nat) (v : W32) : State :=
  s.hatch .hd scopeWrite (fun s =>
    if s.pokeBarred pa then s.reply .hd [] (some .priv)
    else if s.inChecker pa then s.reply .hd [] (some .checker)
    else if pa % 4 ≠ 0 ∨ !superOk true pa ∨ s.hostCut pa then s.reply .hd [] (some .fault)
    else
      let s := s.reachAt pa
      let s := match placeOf pa with
        | .reg b o => s.blkWrite b o v
        | .mem => (s.write pa (toLe 4 v.toNat)).acoArrive pa 4
        | .win w => (s.winPush w (toLe 4 v.toNat)).1
        | .pcie i off => s.emit (s.pcieMsg i off (toLe 4 v.toNat))
        | .hole => s
      s.replyPeek .hd pa 1)

/-! ### Health, counters and jobs -/

/-- The words of registers, read one after another. -/
def State.readRegs (s : State) : List (Blk × Nat) → List W32 × State
  | [] => ([], s)
  | (b, o) :: r =>
    let (v, s) := s.blkRead b o
    let (l, s) := s.readRegs r
    (v :: l, s)

/-- The answer of registers behind the links of a die. -/
def State.replyRegs (s : State) (pa : Nat) (l : List (Blk × Nat)) : State :=
  if s.hostCut pa then s.reply .hd [] (some .fault)
  else
    let (v, s) := s.readRegs l
    s.reply .hd v none

/-- HATCH_HEALTH. -/
def State.hatchHealth (s : State) (part : Option (Fin 128)) : State :=
  s.hatch .hd scopeRead (fun s => s.replyRegs (islBase 1)
    (match part with
     | some n => [(.hlth, 0x100 + 4 * n)]
     | none => [(.hlth, 8), (.hlth, 4)] ++ (List.range 4).map (fun k => (Blk.hlth, 0x40 + 4 * k)) ++ (List.range 4).map (fun k => (Blk.hlth, 0x50 + 4 * k))))

/-- COUNTERS_READ: the cycle count, the counters and the snapshots, each low word first, and the window's number (log entry 71). -/
def State.countersRead (s : State) (c : CellId) : State :=
  let b := Blk.perf c.num
  s.hatch .hd scopeRead (fun s => s.replyRegs (lsBase c) ([(b, 8), (b, 0xC)] ++
    (List.range 8).flatMap (fun i => [(b, 0x44 + 16 * i), (b, 0x48 + 16 * i)]) ++
    (List.range 8).flatMap (fun i => [(b, 0xC0 + 8 * i), (b, 0xC4 + 8 * i)]) ++ [(b, 0x14)]))

/-- COUNTERS_SET: event and mode of a counter, which counts from there on (R666, R672). -/
def State.countersSet (s : State) (c : CellId) (i : Fin 8) (event : Byte) (edge : Bool) : State :=
  s.hatch .hd scopeWrite (fun s =>
    if s.isChecker c then s.reply .hd [] (some .checker)
    else if !evCode event.toNat then s.reply .hd [] (some .arg)
    else if s.hostCut (lsBase c) then s.reply .hd [] (some .fault)
    else (s.blkWrite (.perf c.num) (0x40 + 16 * i) (BitVec.ofNat 32 (2 ^ 31 + bit edge * 2 ^ 30 + event.toNat))).reply .hd [] none)

/-- COUNTERS_HUB. -/
def State.countersHub (s : State) : State :=
  s.hatch .hd scopeRead (fun s => s.replyRegs hubBase
    ((List.range 8).map (fun k => (Blk.reg 4, 0x40 + 4 * k)) ++ (List.range 8).map (fun k => (Blk.reg 4, 0x60 + 4 * k))))

/-- HATCH_JOB_STATUS. -/
def State.hatchJobStatus (s : State) : State :=
  s.hatch .hd scopeRead (fun s => s.replyRegs hubBase [(.job, 4), (.job, 8), (.job, 0x14)])

/-- A job command of Hatch: one that could not run is answered ERR STATE, the others when they end. -/
def State.jobCommand (s : State) (v : W32) : State :=
  let was := (s.reg .job 0).getLsbD 30
  let s := (s.clrReg .job 0 0x40000000#32).jobCtrl v
  if (s.reg .job 0).getLsbD 30 then s.reply .hd [] (some .state)
  else
    let s := if was then s.jobOverrun else s
    (s.modJob (fun j => { j with owed := true })).hatchDone

/-- The image address of a job command goes into JOB_IMAGE (R433). -/
def State.setImage (s : State) (pa : Nat) : State := (s.blkWrite .job 0xC (BitVec.ofNat 32 pa)).blkWrite .job 0x10 (BitVec.ofNat 32 (pa / 2 ^ 32))

/-- HATCH_JOB_START, HATCH_JOB_SWITCH and HATCH_JOB_ABORT. IMM keeps its value. -/
def State.hatchJob (s : State) (pa : Option Nat) (cmd : W32) : State :=
  s.hatch .hd scopeWrite (fun s =>
    let s := match pa with | some a => s.setImage a | none => s
    s.jobCommand (cmd ||| (s.reg .job 0 &&& 8#32)))

/-! ### Cells under the debugger (R649 to R655) -/

/-- A CELL command: not on a checker, and not on a die that cannot be reached. -/
def State.hatchCell (s : State) (c : CellId) (scope : Nat) (f : State → State) : State :=
  s.hatch .hd scope (fun s =>
    if s.isChecker c then s.reply .hd [] (some .checker)
    else if s.hostCut (lsBase c) then s.reply .hd [] (some .fault)
    else f s)

/-- CELL_STATE. -/
def State.cellState (s : State) (c : CellId) : State :=
  s.hatchCell c scopeRead (fun s => s.reply .hd [s.cellRead c 0x114, s.reg (.perf c.num) 0x404, s.cellRead c 0x118, s.cellRead c 0x11C] none)

/-- The answer of a debug command: PERF_DBG_STATUS. -/
def State.replyDbg (s : State) (c : CellId) : State := s.reply .hd [s.reg (.perf c.num) 0x404] none

/-- HALT. -/
def State.hatchHalt (s : State) (c : CellId) : State := s.hatchCell c scopeWrite (fun s => (s.dbgHaltCmd c).replyDbg c)

/-- RESUME and STEP do not apply while HALTED is 0, nor after a mismatch of the pair (R649, R655). -/
def State.hatchGo (s : State) (c : CellId) (f : State → State) : State :=
  s.hatchCell c scopeWrite (fun s =>
    if !s.dbgHalted c || (s.cell c).pairStopped then (f s).reply .hd [] (some .state) else (f s).replyDbg c)

/-- The ENGINE, FILE and INDEX of a debug access (R674). -/
def State.dbgSel (s : State) (c : CellId) (engine file index : Nat) : State :=
  s.setReg (.perf c.num) 0x408 (BitVec.ofNat 32 (engine * 2 ^ 18 + file * 2 ^ 15 + index))

/-- STEP of an engine, which must exist: ENGINE 0 to 0x40. -/
def State.hatchStep (s : State) (c : CellId) (engine : BitVec 7) : State :=
  if 0x40 < engine.toNat then s.hatchCell c scopeWrite (fun s => s.reply .hd [] (some .arg))
  else s.hatchGo c (fun s => (s.dbgSel c engine.toNat (s.fld (.perf c.num) 0x408 17 15) (s.fld (.perf c.num) 0x408 14 0)).dbgStepCmd c)

/-- CELL_REG_READ and CELL_REG_WRITE: an engine that is not halted is answered ERR STATE, a register that does not exist ERR ARG. -/
def State.cellReg (s : State) (c : CellId) (engine : BitVec 7) (file : BitVec 3) (index : BitVec 15) (wr : Option W32) : State :=
  s.hatchCell c (if wr.isSome then scopeWrite else scopeRead) (fun s =>
    let s := s.dbgSel c engine.toNat file.toNat index.toNat
    match s.dbgEngine c with
    | none => s.reply .hd [] (some .arg)
    | some e =>
      if !s.engineHalted e then (s.selErr c).reply .hd [] (some .state)
      else if (s.dbgRead e file.toNat index.toNat).isNone then (s.selErr c).reply .hd [] (some .arg)
      else
        let (v, s) := s.dbgData c wr
        s.reply .hd [v] none)

/-- CELL_BKPT and CELL_BKPT_OFF (R650, R674). -/
def State.cellBkpt (s : State) (c : CellId) (i : Fin 4) (set : Option (BitVec 7 × BitVec 16)) : State :=
  s.hatchCell c scopeWrite (fun s =>
    match set with
    | none => (s.blkWrite (.perf c.num) (0x410 + 4 * i) 0).reply .hd [] none
    | some (engine, pc) =>
      if 0x40 < engine.toNat then s.reply .hd [] (some .arg)
      else (s.blkWrite (.perf c.num) (0x410 + 4 * i) (BitVec.ofNat 32 (2 ^ 31 + engine.toNat * 2 ^ 16 + pc.toNat))).reply .hd [] none)

/-! ### Service commands (R624, R634, R648) -/

/-- A service command: answered by the firmware or ROM that serves the monitor, refused outside OPEN (R640, R648). -/
def State.service (s : State) (m : MonId) (f : State → State) : State :=
  if (s.boot (monNum m)).otp.lc != .open then s.reply m [] (some .refused) else f s

/-- A bit string blown over another: a blown bit never returns (R625). -/
def orBytes (a b : List Byte) : List Byte := (List.range 64).map (fun i => a.getD i 0 ||| b.getD i 0)

/-- PROGRAM_KEY. -/
def State.programKey (s : State) (m : MonId) (slot : Fin 4) (hash : List Byte) : State :=
  s.service m (fun s =>
    if hash.length ≠ 64 then s.reply m [] (some .arg)
    else (s.modOtp (monNum m) (fun t => { t with keys := t.keys.set slot (orBytes t.keys[slot] hash), prog := t.prog ||| BitVec.ofNat 4 (2 ^ slot.val) })).reply m [] none)

/-- PROGRAM_DEBUG_KEY. -/
def State.programDebugKey (s : State) (m : MonId) (slot : Fin 2) (hash : List Byte) : State :=
  s.service m (fun s =>
    if hash.length ≠ 64 then s.reply m [] (some .arg)
    else (s.modOtp (monNum m) (fun t => { t with dbg := t.dbg.set slot (orBytes t.dbg[slot] hash), dprog := t.dprog ||| BitVec.ofNat 2 (2 ^ slot.val) })).reply m [] none)

/-- SET_LIFECYCLE (R627). -/
def State.setLifecycle (s : State) (m : MonId) (lc : Lifecycle) : State :=
  s.service m (fun s =>
    if lifecycleOk (s.boot (monNum m)).otp.lc lc then (s.modOtp (monNum m) (fun t => { t with lc := lc })).reply m [] none
    else s.reply m [] (some .refused))

/-- READ_ID: the identity public key. -/
def State.readId (s : State) (m : MonId) : State := s.service m (fun s => s.replyBytes m ((identPub (monNum m)).take 32))

/-- LOAD_IMAGE opens a transfer in recovery. -/
def State.loadImage (s : State) (len : Nat) : State :=
  s.service .hd (fun s =>
    if !s.recovering then s.reply .hd [] (some .state)
    else (s.modBoot 0 (fun b => { b with load := some (len, []) })).reply .hd [] none)

/-- A DATA line of up to 96 bytes. -/
def State.loadImageData (s : State) (off : Nat) (data : List Byte) : State :=
  s.service .hd (fun s =>
    match (s.boot 0).load with
    | none => s.reply .hd [] (some .state)
    | some (len, got) =>
      if 96 < data.length ∨ data.isEmpty ∨ len < off + data.length then s.reply .hd [] (some .arg)
      else (s.modBoot 0 (fun b => { b with load := some (len, (data.zipIdx.map (fun p => (off + p.2, p.1))).reverse ++ got) })).reply .hd [] none)

/-- The bytes of a transfer, none where some never came. -/
def loaded (len : Nat) (got : List (Nat × Byte)) : Option (List Byte) :=
  (List.range len).mapM (fun i => (got.find? (fun p => p.1 == i)).map (fun p => p.2))

/-- LOAD_IMAGE_END: the image is checked, and starts. -/
def State.loadImageEnd (s : State) : State :=
  s.service .hd (fun s =>
    match (s.boot 0).load with
    | none => s.reply .hd [] (some .state)
    | some (len, got) =>
      let s := s.modBoot 0 (fun b => { b with load := none })
      match loaded len got with
      | none => (s.bootErr 1).reply .hd [] (some .refused)
      | some l =>
        match verifyImage (s.boot 0).otp 3 l with
        | .error n => (s.bootErr n).reply .hd [] (some .refused)
        | .ok x => (s.startHubFw 2 x).reply .hd [] none)

/-! ### The dump (R656 to R664) -/

/-- The header of a dump slot, or words of it (R644). SIB's monitor has no DUMP. -/
def State.dumpWords (s : State) (m : MonId) (slot off count : Nat) : State :=
  if m = .sib then (if s.anyGrant m then s.reply m [] (some .cmd) else s)
  else s.hatch m scopeRead (fun s =>
    if 2 ≤ slot ∨ count = 0 ∨ 64 < count ∨ off % 4 ≠ 0 ∨ 0x1000000 < off + 4 * count then s.reply m [] (some .arg)
    else s.replyPeek m (atticSlot slot + off) count)

/-- DUMP_CLEAR: the slot reads EMPTY; slot 0 also clears SEQ. Refused while a dump is being written. -/
def State.dumpClear (s : State) (slot : Nat) : State :=
  s.hatch .sia scopeWrite (fun s =>
    if 2 ≤ slot then s.reply .sia [] (some .arg)
    else if s.dump.run.isSome then s.reply .sia [] (some .state)
    else
      let s := s.write (atticSlot slot + 5) [0#8]
      let s := if slot = 0 then { s with dump := { s.dump with seq := 0 } } else s
      s.reply .sia [] none)

/-- A record: its type, die, flags, payload and time (R659). -/
def dumpRecord (typ die flags : Nat) (payload : List Byte) (time : Nat) : List Byte :=
  toLe 2 typ ++ toLe 1 die ++ toLe 1 flags ++ toLe 4 payload.length ++ toLe 8 time ++ payload ++
    List.replicate ((8 - payload.length % 8) % 8) 0#8

/-- REMOTE_READ_TIMEOUT: the read of an entry of a die's list fails (R661). -/
def State.remoteReadTimeout (s : State) (d : Fin 7) (entry : Nat) : State :=
  if s.dump.run.isSome then { s with dump := { s.dump with fails := s.dump.fails.set d (entry :: s.dump.fails[d]) } } else s

/-- The dies in the order of capture: SIA, HD, CD0 to CD3, SIB (R660). -/
def dumpDies : List (Fin 7) := [5, 4, 0, 1, 2, 3, 6]

/-- The blocks in a die's window (R186, R683). -/
def dieBlks (d : Fin 7) : List Blk :=
  if h : d.val < 4 then
    ((List.range 16).flatMap (fun c => [Blk.cell (Fin.ofNat 64 (16 * d + c)), .perf (Fin.ofNat 64 (16 * d + c)), .att (Fin.ofNat 64 (16 * d + c))])) ++
      [.loft ⟨d, h⟩, .mmu ⟨d, by omega⟩, .path ⟨d, h⟩, .reg ⟨d, by omega⟩, .d2d d, .cdc d]
  else if d.val = 4 then
    [.job, .boot 0, .pdma 0, .pdma 1, .aco, .reg 4, .d2d 4, .cdc 4, .mmu 4, .tbase, .ingest] ++ (List.finRange 6).map Blk.mac ++ [.pcie 0, .pcie 1, .usb] ++
      (List.finRange 4).map Blk.can ++ [.spi, .uart]
  else if d.val = 5 then [.safe 0, .therm, .cdc 5, .boot 1, .d2d 5]
  else [.safe 1, .hlth, .cdc 6, .boot 2, .d2d 6]

/-- The offsets of a block's registers in its die's window. -/
def blkOffs (d : Nat) (b : Blk) : List Nat :=
  b.rows.flatMap (fun r => (List.range r.count).map (fun k => b.base - winBase d + r.off + k * r.stride))

/-- The default list of a die: every register that it maps, up to the number of R660, block by block (log entry 60). -/
def defaultRegs (d : Fin 7) : List Nat :=
  ((dieBlks d).flatMap (blkOffs d)).take (if d.val < 4 then 4096 else if d.val = 4 then 2048 else if d.val = 6 then 512 else 256)

/-- The default memory: the safety page, the last 2,048 ledger records and the last 1,024 ingest descriptors, oldest first in their rings (R529, R538,
R660). -/
def State.defaultMem (s : State) : List (Nat × Nat) :=
  let page := s.safePage 0
  let ring := s.num (page + 0x10) 8
  let n := s.num (page + 0x1C) 4
  let k := min n 1024
  let first := if n = 0 then 0 else ((s.reg .ingest 0x420).toNat + n - k) % n
  let room := min k (n - first)
  [(page, 4096), (s.num (page + 8) 8, 65536)] ++ (if k = 0 then [] else [(ring + 32 * first, 32 * room)]) ++ (if k ≤ room then [] else [(ring, 32 * (k - room))])

/-- The entries of a list as they are read: after 8 consecutive failures the rest is skipped (R661). -/
def walkReads (bad : Nat → Bool) : List Nat → Nat → Nat → List (Nat × Bool) × Bool
  | [], _, n => ([], decide (8 ≤ n))
  | o :: r, i, n =>
    if 8 ≤ n then ([], true)
    else if bad i then let (l, u) := walkReads bad r (i + 1) (n + 1); ((o, false) :: l, u)
    else let (l, u) := walkReads bad r (i + 1) 0; ((o, true) :: l, u)

/-- Whether SIA reaches a die's window or memory: its own, or over the hub's links (R20, R661). -/
def State.siaReaches (s : State) (d : Fin 7) : Bool := d == 5 || (!s.fenced d && s.routeOk 5 (s.route 5 d))

/-- Entries of a REGS record: a read that fails has bit 0 of its offset set and value 0. The read has no side effect here (log entry 72). -/
def State.dumpRegs (s : State) (d : Fin 7) : List Byte × Bool :=
  let cut := !s.siaReaches d
  let (l, u) := walkReads (fun i => cut || (d != 5 && (s.dump.fails[d]).contains i)) ((Config.captureRegs d).getD (defaultRegs d)) 0 0
  (l.flatMap (fun p =>
    let o := p.1 / 4 * 4
    if p.2 then toLe 4 o ++ toLe 4 (match blkOf (winBase d + o) with | some (b, k) => (s.blkRead b k).1.toNat | none => 0)
    else toLe 4 (o + 1) ++ toLe 4 0), u)

/-- A record's text, in order, as far as the slot holds it before END: a record that would pass the end is cut short and flagged PARTIAL. -/
def fitRecords (time : Nat) : Nat → List (Nat × Nat × Nat × List Byte) → List (List Byte)
  | _, [] => []
  | room, (t, d, f, p) :: r =>
    if room < 16 then []
    else if (dumpRecord t d f p time).length ≤ room then dumpRecord t d f p time :: fitRecords time (room - (dumpRecord t d f p time).length) r
    else [dumpRecord t d (f ||| 1) (p.take ((room - 16) / 8 * 8)) time]

/-- The records of a dump in the order of R660, without END. -/
def State.dumpRecords (s : State) : List (Nat × Nat × Nat × List Byte) :=
  let k := s.isl[(0 : Fin 2)]
  let trig := k.trigs.flatMap (fun t => toLe 1 t.id ++ toLe 1 t.inst ++ toLe 2 t.level ++ toLe 4 ((k.time.toNat - t.since) / 1000000))
  let regs := dumpDies.map (fun d => let (l, u) := s.dumpRegs d; (1, d.val, if u then 2 else 0, l))
  let mems := (Config.captureMem.getD s.defaultMem).map (fun r =>
    let ok := s.siaReaches (dieOf r.1)
    (2, 0xFF, if ok then 0 else 2, toLe 8 r.1 ++ (if ok then s.bytes r.1 r.2 else [])))
  let therm := (s.therm.log.filter (fun x => decide (k.time.toNat ≤ x.1 + 1000000000))).reverse.flatMap (·.2)
  [(3, 5, 0, trig), (4, 5, 0, (k.frames.reverse).flatMap (fun f => toLe 8 f.toNat)), (5, 5, 0, therm)] ++ regs ++ mems ++
    [(6, 5, 0, (Config.firmwareLog s.free).take 0x10000)]

/-- DUMP_CAPTURED: the records stand in the slot, END last, and the header reads CAPTURED (R658 to R660). -/
def State.dumpCaptured (s : State) : State :=
  match s.dump.run with
  | none => s
  | some (slot, _) =>
    if s.dumpState slot ≠ 1 then s
    else
      let time := (s.isl[(0 : Fin 2)]).time.toNat
      let l := fitRecords time (0x1000000 - 256 - 16) s.dumpRecords
      let body := l.flatten ++ dumpRecord 0xFFFF 0xFF 0 [] time
      let a := atticSlot slot
      let s := { s with free := s.free + 1 }
      (((s.write (a + 256) body).write (a + 0xC) (toLe 4 body.length)).write (a + 0x34) (toLe 4 (l.length + 1))).write (a + 5) [2#8]

/-- DUMP_SEALED: DIGEST, key and signature are written, and the header reads COMPLETE; a reset that waits for it is made (R590, R658, R660). -/
def State.dumpSealed (s : State) : State :=
  match s.dump.run with
  | none => s
  | some (slot, _) =>
    if s.dumpState slot ≠ 2 then s
    else
      let a := atticSlot slot
      let s := (s.write (a + 0x40) (sha512 (s.bytes (a + 256) (s.num (a + 0xC) 4)))).write (a + 0x80) (identPub 1)
      let s := s.write (a + 5) [3#8]
      let s := s.write (a + 0xC0) (ed25519Sign (identSeed 1) (sha512 (s.bytes a 0xC0)))
      let s := { s with dump := { s.dump with run := none } }
      if (s.isl[(0 : Fin 2)]).resetDue then s.startIsland 0 else s

/-! ### Requests -/

/-- What a request asks, done once it is its turn. -/
def State.ask (s : State) : Req → State
  | .chal m scope => s.hatchChal m scope
  | .resp m key sig => s.hatchResp m key sig
  | .ready m => s.hatchReady m
  | .peek m pa count => s.peek m pa count
  | .poke pa v => s.poke pa v
  | .health part => s.hatchHealth part
  | .countersRead c => s.countersRead c
  | .countersSet c i event edge => s.countersSet c i event edge
  | .countersHub => s.countersHub
  | .jobStatus => s.hatchJobStatus
  | .jobStart pa => s.hatchJob (some pa.toNat) 1#32
  | .jobSwitch pa => s.hatchJob (some pa.toNat) 2#32
  | .jobAbort => s.hatchJob none 4#32
  | .dumpInfo m slot => s.dumpWords m slot 0 64
  | .dumpRead m slot off count => s.dumpWords m slot off count
  | .dumpClear slot => s.dumpClear slot
  | .cellState c => s.cellState c
  | .cellHalt c => s.hatchHalt c
  | .cellResume c => s.hatchGo c (fun s => s.dbgResumeCmd c)
  | .cellStep c engine => s.hatchStep c engine
  | .cellRegRead c engine file index => s.cellReg c engine file index none
  | .cellRegWrite c engine file index v => s.cellReg c engine file index (some v)
  | .cellBkpt c i engine pc => s.cellBkpt c i (some (engine, pc))
  | .cellBkptOff c i => s.cellBkpt c i none
  | .programKey m slot hash => s.programKey m slot hash
  | .programDebugKey m slot hash => s.programDebugKey m slot hash
  | .setLifecycle m lc => s.setLifecycle m lc
  | .readId m => s.readId m
  | .loadImage len => s.loadImage len
  | .loadImageData off data => s.loadImageData off data
  | .loadImageEnd => s.loadImageEnd
  | .broken _ _ => s

/-- The monitor that a request comes to. -/
def Req.mon : Req → MonId
  | .chal m _ => m
  | .resp m _ _ => m
  | .ready m => m
  | .peek m _ _ => m
  | .dumpInfo m _ => m
  | .dumpRead m _ _ _ => m
  | .programKey m _ _ => m
  | .programDebugKey m _ _ => m
  | .setLifecycle m _ => m
  | .readId m => m
  | .broken m _ => m
  | .dumpClear _ => .sia
  | .poke _ _ => .hd
  | .health _ => .hd
  | .countersRead _ => .hd
  | .countersSet _ _ _ _ => .hd
  | .countersHub => .hd
  | .jobStatus => .hd
  | .jobStart _ => .hd
  | .jobSwitch _ => .hd
  | .jobAbort => .hd
  | .cellState _ => .hd
  | .cellHalt _ => .hd
  | .cellResume _ => .hd
  | .cellStep _ _ => .hd
  | .cellRegRead _ _ _ _ => .hd
  | .cellRegWrite _ _ _ _ _ => .hd
  | .cellBkpt _ _ _ _ => .hd
  | .cellBkptOff _ _ => .hd
  | .loadImage _ => .hd
  | .loadImageData _ _ => .hd
  | .loadImageEnd => .hd

/-- A line is executed: its request under its tag, where its form is right; another line is answered (R641, R642, R646). -/
def State.serve (s : State) (l : List Byte) (q : Req) : State :=
  match q with
  | .broken m framing => s.lineError m l framing
  | q =>
    match lineFields l with
    | none => s.badLine q.mon l
    | some _ => (s.modUart q.mon (fun u => { u with tag := (lineTag l).getD 0 })).ask q

/-- A line arrives at its monitor: it is executed, or waits in the buffer of 512 bytes while a request runs; one that meets the buffer full is discarded
and answered ERR LINE (R640, R642; log entry 71). -/
def State.receive (s : State) (l : List Byte) (q : Req) : State :=
  let m := q.mon
  if !s.listens m then s
  else if !s.monBusy m then s.serve l q
  else if 512 < (s.uart[monNum m]).bytes + l.length then s.badLine m l
  else s.modUart m (fun u => { u with wait := u.wait ++ [(l, q)] })

/-- The oldest line that waits is executed, once nothing runs (R642). -/
def State.drainLines (s : State) (m : MonId) : State :=
  match (s.uart[monNum m]).wait with
  | [] => s
  | (l, q) :: r =>
    if decide (m = .hd) && s.job.owed then s
    else
      let s := (s.modUart m (fun u => { u with wait := [] })).serve l q
      s.modUart m (fun u => { u with wait := u.wait ++ r })

/-! ### Meanings of events -/

/-- HATCH_CHAL. -/
def execHatchChal (l : List (BitVec 8)) (m : MonId) (scope : BitVec 3) (s : State) : Out := .next (s.receive l (.chal m scope))
/-- HATCH_RESP. -/
def execHatchResp (l : List (BitVec 8)) (m : MonId) (key sig : List (BitVec 8)) (s : State) : Out := .next (s.receive l (.resp m key sig))
/-- HATCH_READY. -/
def execHatchReady (l : List (BitVec 8)) (m : MonId) (s : State) : Out := .next (s.receive l (.ready m))
/-- PEEK. -/
def execPeek (l : List (BitVec 8)) (m : MonId) (pa : Nat) (count : Nat) (s : State) : Out := .next (s.receive l (.peek m pa count))
/-- POKE. -/
def execPoke (l : List (BitVec 8)) (pa : Nat) (v : BitVec 32) (s : State) : Out := .next (s.receive l (.poke pa v))
/-- HATCH_HEALTH. -/
def execHatchHealth (l : List (BitVec 8)) (part : Option (Fin 128)) (s : State) : Out := .next (s.receive l (.health part))
/-- COUNTERS_READ. -/
def execCountersRead (l : List (BitVec 8)) (c : CellId) (s : State) : Out := .next (s.receive l (.countersRead c))
/-- COUNTERS_SET. -/
def execCountersSet (l : List (BitVec 8)) (c : CellId) (i : Fin 8) (event : BitVec 8) (edge : Bool) (s : State) : Out := .next (s.receive l (.countersSet c i event edge))
/-- COUNTERS_HUB. -/
def execCountersHub (l : List (BitVec 8)) (s : State) : Out := .next (s.receive l .countersHub)
/-- HATCH_JOB_STATUS. -/
def execHatchJobStatus (l : List (BitVec 8)) (s : State) : Out := .next (s.receive l .jobStatus)
/-- HATCH_JOB_START. -/
def execHatchJobStart (l : List (BitVec 8)) (pa : BitVec 40) (s : State) : Out := .next (s.receive l (.jobStart pa))
/-- HATCH_JOB_SWITCH. -/
def execHatchJobSwitch (l : List (BitVec 8)) (pa : BitVec 40) (s : State) : Out := .next (s.receive l (.jobSwitch pa))
/-- HATCH_JOB_ABORT. -/
def execHatchJobAbort (l : List (BitVec 8)) (s : State) : Out := .next (s.receive l .jobAbort)
/-- DUMP_INFO. -/
def execDumpInfo (l : List (BitVec 8)) (m : MonId) (slot : Nat) (s : State) : Out := .next (s.receive l (.dumpInfo m slot))
/-- DUMP_READ. -/
def execDumpRead (l : List (BitVec 8)) (m : MonId) (slot off count : Nat) (s : State) : Out := .next (s.receive l (.dumpRead m slot off count))
/-- DUMP_CLEAR. -/
def execDumpClear (l : List (BitVec 8)) (slot : Nat) (s : State) : Out := .next (s.receive l (.dumpClear slot))
/-- CELL_STATE. -/
def execCellState (l : List (BitVec 8)) (c : CellId) (s : State) : Out := .next (s.receive l (.cellState c))
/-- HATCH_CELL_HALT. -/
def execHatchCellHalt (l : List (BitVec 8)) (c : CellId) (s : State) : Out := .next (s.receive l (.cellHalt c))
/-- HATCH_CELL_RESUME. -/
def execHatchCellResume (l : List (BitVec 8)) (c : CellId) (s : State) : Out := .next (s.receive l (.cellResume c))
/-- HATCH_CELL_STEP. -/
def execHatchCellStep (l : List (BitVec 8)) (c : CellId) (engine : BitVec 7) (s : State) : Out := .next (s.receive l (.cellStep c engine))
/-- CELL_REG_READ. -/
def execCellRegRead (l : List (BitVec 8)) (c : CellId) (engine : BitVec 7) (file : BitVec 3) (index : BitVec 15) (s : State) : Out := .next (s.receive l (.cellRegRead c engine file index))
/-- CELL_REG_WRITE. -/
def execCellRegWrite (l : List (BitVec 8)) (c : CellId) (engine : BitVec 7) (file : BitVec 3) (index : BitVec 15) (v : BitVec 32) (s : State) : Out := .next (s.receive l (.cellRegWrite c engine file index v))
/-- CELL_BKPT. -/
def execCellBkpt (l : List (BitVec 8)) (c : CellId) (i : Fin 4) (engine : BitVec 7) (pc : BitVec 16) (s : State) : Out := .next (s.receive l (.cellBkpt c i engine pc))
/-- CELL_BKPT_OFF. -/
def execCellBkptOff (l : List (BitVec 8)) (c : CellId) (i : Fin 4) (s : State) : Out := .next (s.receive l (.cellBkptOff c i))
/-- PROGRAM_KEY. -/
def execProgramKey (l : List (BitVec 8)) (m : MonId) (slot : Fin 4) (hash : List (BitVec 8)) (s : State) : Out := .next (s.receive l (.programKey m slot hash))
/-- PROGRAM_DEBUG_KEY. -/
def execProgramDebugKey (l : List (BitVec 8)) (m : MonId) (slot : Fin 2) (hash : List (BitVec 8)) (s : State) : Out := .next (s.receive l (.programDebugKey m slot hash))
/-- SET_LIFECYCLE. -/
def execSetLifecycle (l : List (BitVec 8)) (m : MonId) (lc : Lifecycle) (s : State) : Out := .next (s.receive l (.setLifecycle m lc))
/-- READ_ID. -/
def execReadId (l : List (BitVec 8)) (m : MonId) (s : State) : Out := .next (s.receive l (.readId m))
/-- LOAD_IMAGE. -/
def execLoadImage (l : List (BitVec 8)) (len : Nat) (s : State) : Out := .next (s.receive l (.loadImage len))
/-- LOAD_IMAGE_DATA. -/
def execLoadImageData (l : List (BitVec 8)) (off : Nat) (data : List (BitVec 8)) (s : State) : Out := .next (s.receive l (.loadImageData off data))
/-- LOAD_IMAGE_END. -/
def execLoadImageEnd (l : List (BitVec 8)) (s : State) : Out := .next (s.receive l .loadImageEnd)
/-- LINE_ERROR. -/
def execLineError (l : List (BitVec 8)) (m : MonId) (framing : Bool) (s : State) : Out := .next (s.receive l (.broken m framing))
/-- LINE_TIMEOUT: the line is discarded without an answer (R642). -/
def execLineTimeout (_m : MonId) (s : State) : Out := .next (s)
/-- DUMP_CAPTURED. -/
def execDumpCaptured (s : State) : Out := .next (s.dumpCaptured)
/-- DUMP_SEALED. -/
def execDumpSealed (s : State) : Out := .next (s.dumpSealed)
/-- REMOTE_READ_TIMEOUT. -/
def execRemoteReadTimeout (d : Fin 7) (entry : Nat) (s : State) : Out := .next (s.remoteReadTimeout d entry)

end Sys2Proof.Machine
end

