-- ==== Sys2Proof/Machine/Jtag.lean ====
section
/-! DEFINITION. The JTAG chain (R627, R692): one TCK edge, and TRST_N. -/

namespace Sys2Proof.Machine

/-- The state of a TAP after a TCK edge with a level of TMS (log entry 58). -/
def TapSt.next : TapSt → Bool → TapSt
  | .reset, t => if t then .reset else .idle
  | .idle, t => if t then .selDr else .idle
  | .selDr, t => if t then .selIr else .capDr
  | .capDr, t => if t then .exit1Dr else .shiftDr
  | .shiftDr, t => if t then .exit1Dr else .shiftDr
  | .exit1Dr, t => if t then .updDr else .pauseDr
  | .pauseDr, t => if t then .exit2Dr else .pauseDr
  | .exit2Dr, t => if t then .updDr else .shiftDr
  | .updDr, t => if t then .selDr else .idle
  | .selIr, t => if t then .reset else .capIr
  | .capIr, t => if t then .exit1Ir else .shiftIr
  | .shiftIr, t => if t then .exit1Ir else .shiftIr
  | .exit1Ir, t => if t then .updIr else .pauseIr
  | .pauseIr, t => if t then .exit2Ir else .pauseIr
  | .exit2Ir, t => if t then .updIr else .shiftIr
  | .updIr, t => if t then .selDr else .idle

/-- The data register that a TAP connects: BYPASS, IDCODE, or one that an unlocked instruction names. -/
inductive TapReg where
  | bypass | idcode | other
  deriving DecidableEq, Repr

/-- The BOOT_ block whose grant opens a TAP: an island's own for its TAP, the hub's for the hub and the compute dies (R692). -/
def tapBoot (i : Fin 7) : Fin 3 := if i.val = 0 then 1 else if i.val = 1 then 2 else 0

/-- A TAP is open: a JTAG scope is granted, or the lifecycle is OPEN (R627, R692). -/
def State.tapOpen (s : State) (i : Fin 7) : Bool := s.granted (tapBoot i) 2 || (s.boot (tapBoot i)).otp.lc == .open

/-- What the instruction of a TAP selects: before unlock anything but IDCODE selects BYPASS (R692). -/
def State.tapReg (s : State) (i : Fin 7) : TapReg :=
  let v := s.jtag.ir[i]
  if v = Config.idcodeOp then .idcode
  else if v = 0x3F#6 ∨ !s.tapOpen i then .bypass
  else .other

/-- A bit enters a register of a width at its top and one leaves at its bottom. -/
def shiftBit {w : Nat} (n : Nat) (b : Bool) (v : BitVec w) : BitVec w := (v >>> 1) ||| BitVec.ofNat w (b.toNat * 2 ^ (n - 1))

/-- One shift of the data registers of the chain: those left in chain order, the bit that enters, the free bits drawn. -/
def State.shiftDr (s : State) : List (Fin 7) → Bool → State
  | [], _ => s
  | i :: r, b =>
    let v := s.jtag.dr[i]
    match s.tapReg i with
    | .other => { s with free := s.free + 1 }.shiftDr r (Config.freeBool s.free)
    | k => { s with jtag := { s.jtag with dr := s.jtag.dr.set i (shiftBit (if k == TapReg.idcode then 32 else 1) b v) } }.shiftDr r (v.getLsbD 0)

/-- One shift of the instruction registers. -/
def Jtag.shiftIr (j : Jtag) : List (Fin 7) → Bool → Jtag
  | [], _ => j
  | i :: r, b => { j with irSh := j.irSh.set i (shiftBit 6 b j.irSh[i]) }.shiftIr r (j.irSh[i].getLsbD 0)

/-- What is captured: 0 in a bypass, the identity, a free word elsewhere; and in an instruction register a free value that ends in 01. -/
def State.captureDr (s : State) : State :=
  { s with free := s.free + 7, jtag := { s.jtag with dr := Vector.ofFn (fun (i : Fin 7) =>
      match s.tapReg i with | .bypass => 0 | .idcode => idcode i | .other => Config.freeVal 32 (s.free + i)) } }
def State.captureIr (s : State) : State :=
  { s with free := s.free + 7, jtag := { s.jtag with irSh := Vector.ofFn (fun (i : Fin 7) => (Config.freeVal 6 (s.free + i) &&& 0x3C#6) ||| 1#6) } }

/-- TDO is driven only while shifting (R681): the bit at the end of the chain, on CD3. -/
def State.tdoOf (s : State) : Option Bool × State :=
  match s.jtag.st with
  | .shiftIr => (some (s.jtag.irSh[(6 : Fin 7)].getLsbD 0), s)
  | .shiftDr =>
    if s.tapReg 6 = .other then (some (Config.freeBool s.free), { s with free := s.free + 1 })
    else (some (s.jtag.dr[(6 : Fin 7)].getLsbD 0), s)
  | _ => (none, s)

/-- TCK_EDGE: the registers capture or shift by the state that the edge leaves, then the state and, at an update, the instruction change. -/
def State.tckEdge (s : State) (tms tdi : Bool) : State :=
  let s := match s.jtag.st with
    | .capDr => s.captureDr
    | .capIr => s.captureIr
    | .shiftDr => s.shiftDr (List.finRange 7) tdi
    | .shiftIr => { s with jtag := s.jtag.shiftIr (List.finRange 7) tdi }
    | _ => s
  let st := s.jtag.st.next tms
  let ir := match st with
    | .updIr => s.jtag.irSh
    | .reset => Vector.replicate 7 Config.idcodeOp
    | _ => s.jtag.ir
  let s := { s with jtag := { s.jtag with st := st, ir := ir } }
  let (t, s) := s.tdoOf
  { s with jtag := { s.jtag with tdo := t } }

/-- JTAG_TRST: every TAP goes to Test-Logic-Reset; the part is not reset (R692). -/
def State.jtagTrst (s : State) : State :=
  { s with jtag := { s.jtag with st := .reset, ir := Vector.replicate 7 Config.idcodeOp, tdo := none } }

/-! ### Meanings of events -/

/-- JTAG_TRST. -/
def execJtagTrst (s : State) : Out := .next (s.jtagTrst)
/-- TCK_EDGE. -/
def execTckEdge (tms tdi : Bool) (s : State) : Out := .next (s.tckEdge tms tdi)

end Sys2Proof.Machine
end

