-- ==== Sys2Proof/Machine/Dispatch.lean ====
section
/-! DEFINITION. One arm per command: its effect on everything but the queue. -/

namespace Sys2Proof.Machine

def exec (i : Instr) (s : State) : Host.Outcome State Fault Refusal :=
  match i with
  | .add e w d a b => Sys2Proof.Machine.execAdd e w d a b s
  | .sub e w d a b => Sys2Proof.Machine.execSub e w d a b s
  | .mul e w d a b => Sys2Proof.Machine.execMul e w d a b s
  | .mulh e w d a b => Sys2Proof.Machine.execMulh e w d a b s
  | .mulhu e w d a b => Sys2Proof.Machine.execMulhu e w d a b s
  | .div e w d a b => Sys2Proof.Machine.execDiv e w d a b s
  | .divu e w d a b => Sys2Proof.Machine.execDivu e w d a b s
  | .rem e w d a b => Sys2Proof.Machine.execRem e w d a b s
  | .remu e w d a b => Sys2Proof.Machine.execRemu e w d a b s
  | .and e w d a b => Sys2Proof.Machine.execAnd e w d a b s
  | .or e w d a b => Sys2Proof.Machine.execOr e w d a b s
  | .xor e w d a b => Sys2Proof.Machine.execXor e w d a b s
  | .andn e w d a b => Sys2Proof.Machine.execAndn e w d a b s
  | .sll e w d a b => Sys2Proof.Machine.execSll e w d a b s
  | .srl e w d a b => Sys2Proof.Machine.execSrl e w d a b s
  | .sra e w d a b => Sys2Proof.Machine.execSra e w d a b s
  | .slli e w hi d a b => Sys2Proof.Machine.execSlli e w hi d a b s
  | .srli e w hi d a b => Sys2Proof.Machine.execSrli e w hi d a b s
  | .srai e w hi d a b => Sys2Proof.Machine.execSrai e w hi d a b s
  | .slt e w d a b => Sys2Proof.Machine.execSlt e w d a b s
  | .sltu e w d a b => Sys2Proof.Machine.execSltu e w d a b s
  | .seq e w d a b => Sys2Proof.Machine.execSeq e w d a b s
  | .sne e w d a b => Sys2Proof.Machine.execSne e w d a b s
  | .min e w d a b => Sys2Proof.Machine.execMin e w d a b s
  | .max e w d a b => Sys2Proof.Machine.execMax e w d a b s
  | .minu e w d a b => Sys2Proof.Machine.execMinu e w d a b s
  | .maxu e w d a b => Sys2Proof.Machine.execMaxu e w d a b s
  | .clz e w d a => Sys2Proof.Machine.execClz e w d a s
  | .ctz e w d a => Sys2Proof.Machine.execCtz e w d a s
  | .popc e w d a => Sys2Proof.Machine.execPopc e w d a s
  | .cas h w d a b => Sys2Proof.Machine.execCas h w d a b s
  | .addi e d a imm => Sys2Proof.Machine.execAddi e d a imm s
  | .andi e d a imm => Sys2Proof.Machine.execAndi e d a imm s
  | .ori e d a imm => Sys2Proof.Machine.execOri e d a imm s
  | .lui e d imm => Sys2Proof.Machine.execLui e d imm s
  | .scalarLoad e d a size u off => Sys2Proof.Machine.execScalarLoad e d a size u off s
  | .scalarStore e d a size off => Sys2Proof.Machine.execScalarStore e d a size off s
  | .aadd c d a b => Sys2Proof.Machine.execAadd c d a b s
  | .asub c d a b => Sys2Proof.Machine.execAsub c d a b s
  | .amov c d a => Sys2Proof.Machine.execAmov c d a s
  | .ahi c d a => Sys2Proof.Machine.execAhi c d a s
  | .ard c d a => Sys2Proof.Machine.execArd c d a s
  | .ardh c d a => Sys2Proof.Machine.execArdh c d a s
  | .aaddi c d a imm => Sys2Proof.Machine.execAaddi c d a imm s
  | .vadd x f p d a b => Sys2Proof.Machine.execVadd x f p d a b s
  | .vsub x f p d a b => Sys2Proof.Machine.execVsub x f p d a b s
  | .vmul x f p d a b => Sys2Proof.Machine.execVmul x f p d a b s
  | .vmac x f p d a b => Sys2Proof.Machine.execVmac x f p d a b s
  | .vmin x f p d a b => Sys2Proof.Machine.execVmin x f p d a b s
  | .vmax x f p d a b => Sys2Proof.Machine.execVmax x f p d a b s
  | .vabs x f p d a => Sys2Proof.Machine.execVabs x f p d a s
  | .vneg x f p d a => Sys2Proof.Machine.execVneg x f p d a s
  | .vadds x f p d a b => Sys2Proof.Machine.execVadds x f p d a b s
  | .vsubs x f p d a b => Sys2Proof.Machine.execVsubs x f p d a b s
  | .vsll x f p d a b => Sys2Proof.Machine.execVsll x f p d a b s
  | .vsrl x f p d a b => Sys2Proof.Machine.execVsrl x f p d a b s
  | .vsra x f p d a b => Sys2Proof.Machine.execVsra x f p d a b s
  | .vdot4I8 x p d a b => Sys2Proof.Machine.execVdot4I8 x p d a b s
  | .vdot4sI8 x p d a b => Sys2Proof.Machine.execVdot4sI8 x p d a b s
  | .vdot2I16 x p d a b => Sys2Proof.Machine.execVdot2I16 x p d a b s
  | .vdot2sI16 x p d a b => Sys2Proof.Machine.execVdot2sI16 x p d a b s
  | .vdot2Bf16 x p d a b => Sys2Proof.Machine.execVdot2Bf16 x p d a b s
  | .vdot2F16 x p d a b => Sys2Proof.Machine.execVdot2F16 x p d a b s
  | .vectorConvert x p tgt src part d a => Sys2Proof.Machine.execVectorConvert x p tgt src part d a s
  | .vand x p d a b => Sys2Proof.Machine.execVand x p d a b s
  | .vor x p d a b => Sys2Proof.Machine.execVor x p d a b s
  | .vxor x p d a b => Sys2Proof.Machine.execVxor x p d a b s
  | .vandn x p d a b => Sys2Proof.Machine.execVandn x p d a b s
  | .vsel x p d a b => Sys2Proof.Machine.execVsel x p d a b s
  | .vsplatB x p d a => Sys2Proof.Machine.execVsplatB x p d a s
  | .vsplatH x p d a => Sys2Proof.Machine.execVsplatH x p d a s
  | .vsplatW x p d a => Sys2Proof.Machine.execVsplatW x p d a s
  | .vextw x d a b => Sys2Proof.Machine.execVextw x d a b s
  | .vinsw x p d a b => Sys2Proof.Machine.execVinsw x p d a b s
  | .vrsumI32 x p d a => Sys2Proof.Machine.execVrsumI32 x p d a s
  | .vrsumF32 x p d a => Sys2Proof.Machine.execVrsumF32 x p d a s
  | .vrmaxF32 x p d a => Sys2Proof.Machine.execVrmaxF32 x p d a s
  | .vcmpEq x f p d a b => Sys2Proof.Machine.execVcmpEq x f p d a b s
  | .vcmpNe x f p d a b => Sys2Proof.Machine.execVcmpNe x f p d a b s
  | .vcmpLt x f p d a b => Sys2Proof.Machine.execVcmpLt x f p d a b s
  | .vcmpLe x f p d a b => Sys2Proof.Machine.execVcmpLe x f p d a b s
  | .vcmpLtu x f p d a b => Sys2Proof.Machine.execVcmpLtu x f p d a b s
  | .vcmpLeu x f p d a b => Sys2Proof.Machine.execVcmpLeu x f p d a b s
  | .pand x d a b => Sys2Proof.Machine.execPand x d a b s
  | .por x d a b => Sys2Proof.Machine.execPor x d a b s
  | .pxor x d a b => Sys2Proof.Machine.execPxor x d a b s
  | .pandn x d a b => Sys2Proof.Machine.execPandn x d a b s
  | .vexpF32 x p d a => Sys2Proof.Machine.execVexpF32 x p d a s
  | .vrecipF32 x p d a => Sys2Proof.Machine.execVrecipF32 x p d a s
  | .bleave x => Sys2Proof.Machine.execBleave x s
  | .vectorLoad x p d a off => Sys2Proof.Machine.execVectorLoad x p d a off s
  | .vectorStore x p d a off => Sys2Proof.Machine.execVectorStore x p d a off s
  | .vdw x fmt n1 p d a b => Sys2Proof.Machine.execVdw x fmt n1 p d a b s
  | .vgs x fmt d a b => Sys2Proof.Machine.execVgs x fmt d a b s
  | .wload c d a cls h sp wfmt => Sys2Proof.Machine.execWload c d a cls h sp wfmt s
  | .mma c d a w2 => Sys2Proof.Machine.execMma c d a w2 s
  | .drain c d a w2 => Sys2Proof.Machine.execDrain c d a w2 s
  | .aseed c a => Sys2Proof.Machine.execAseed c a s
  | .move e d a scope tok loft w2 => Sys2Proof.Machine.execMove e d a scope tok loft w2 s
  | .lds e d a b => Sys2Proof.Machine.execLds e d a b s
  | .sts e d a b => Sys2Proof.Machine.execSts e d a b s
  | .crd e d a => Sys2Proof.Machine.execCrd e d a s
  | .cwr e a b => Sys2Proof.Machine.execCwr e a b s
  | .fence e a scope kind m => Sys2Proof.Machine.execFence e a scope kind m s
  | .ifence e => Sys2Proof.Machine.execIfence e s
  | .stat e d => Sys2Proof.Machine.execStat e d s
  | .loftInv e a => Sys2Proof.Machine.execLoftInv e a s
  | .tput e a scope q => Sys2Proof.Machine.execTput e a scope q s
  | .tget e d scope q => Sys2Proof.Machine.execTget e d scope q s
  | .nop e => Sys2Proof.Machine.execNop e s
  | .halt e => Sys2Proof.Machine.execHalt e s
  | .brk e => Sys2Proof.Machine.execBrk e s
  | .join x => Sys2Proof.Machine.execJoin x s
  | .jalr e d a => Sys2Proof.Machine.execJalr e d a s
  | .syscall h => Sys2Proof.Machine.execSyscall h s
  | .ret h => Sys2Proof.Machine.execRet h s
  | .srd h d a => Sys2Proof.Machine.execSrd h d a s
  | .swr h a b => Sys2Proof.Machine.execSwr h a b s
  | .b e imm => Sys2Proof.Machine.execB e imm s
  | .beqz e a imm => Sys2Proof.Machine.execBeqz e a imm s
  | .bnez e a imm => Sys2Proof.Machine.execBnez e a imm s
  | .bltz e a imm => Sys2Proof.Machine.execBltz e a imm s
  | .bgez e a imm => Sys2Proof.Machine.execBgez e a imm s
  | .bl e imm => Sys2Proof.Machine.execBl e imm s
  | .bcnz c n imm => Sys2Proof.Machine.execBcnz c n imm s
  | .loop e n a imm => Sys2Proof.Machine.execLoop e n a imm s
  | .loopEnd e => Sys2Proof.Machine.execLoopEnd e s
  | .li e d imm => Sys2Proof.Machine.execLi e d imm s
  | .swait e d a => Sys2Proof.Machine.execSwait e d a s
  | .srel e a => Sys2Proof.Machine.execSrel e a s
  | .sstat e d a => Sys2Proof.Machine.execSstat e d a s
  | .attKv c d a => Sys2Proof.Machine.execAttKv c d a s
  | .attNorm c d a => Sys2Proof.Machine.execAttNorm c d a s
  | .attMerge c d a => Sys2Proof.Machine.execAttMerge c d a s
  | .attSync c => Sys2Proof.Machine.execAttSync c s
  | .pathPlan e d a => Sys2Proof.Machine.execPathPlan e d a s
  | .pathCommit e d a => Sys2Proof.Machine.execPathCommit e d a s
  | .pathUpd e d a => Sys2Proof.Machine.execPathUpd e d a s
  | .pathAbort e d a => Sys2Proof.Machine.execPathAbort e d a s
  | .pathGen e d => Sys2Proof.Machine.execPathGen e d s
  | .bundleIssue c idle => Sys2Proof.Machine.execBundleIssue c idle s
  | .broadcastDelivery c => Sys2Proof.Machine.execBroadcastDelivery c s
  | .variableResultWrite c ix => Sys2Proof.Machine.execVariableResultWrite c ix s
  | .hostInterrupt h num toMonitor => Sys2Proof.Machine.execHostInterrupt h num toMonitor s
  | .cellExceptionReport c => Sys2Proof.Machine.execCellExceptionReport c s
  | .lsWriteback c word => Sys2Proof.Machine.execLsWriteback c word s
  | .moveComplete c id => Sys2Proof.Machine.execMoveComplete c id s
  | .wloadDone c h => Sys2Proof.Machine.execWloadDone c h s
  | .mmaDone c => Sys2Proof.Machine.execMmaDone c s
  | .drainDone c => Sys2Proof.Machine.execDrainDone c s
  | .fenceComplete e => Sys2Proof.Machine.execFenceComplete e s
  | .tokenPutAccept q => Sys2Proof.Machine.execTokenPutAccept q s
  | .tokenGetTake e => Sys2Proof.Machine.execTokenGetTake e s
  | .tqTimeout w => Sys2Proof.Machine.execTqTimeout w s
  | .claimArrival c id => Sys2Proof.Machine.execClaimArrival c id s
  | .claimGrant c slot => Sys2Proof.Machine.execClaimGrant c slot s
  | .lineFillComplete c id => Sys2Proof.Machine.execLineFillComplete c id s
  | .swaitTimeout e => Sys2Proof.Machine.execSwaitTimeout e s
  | .claimTimeout c id => Sys2Proof.Machine.execClaimTimeout c id s
  | .pairMismatch d k engine point => Sys2Proof.Machine.execPairMismatch d k engine point s
  | .srSeedWrite c v => Sys2Proof.Machine.execSrSeedWrite c v s
  | .shelfCfgWrite c sh v => Sys2Proof.Machine.execShelfCfgWrite c sh v s
  | .registerWrite who pa v => Sys2Proof.Machine.execRegisterWrite who pa v s
  | .loftFillReturn d ix => Sys2Proof.Machine.execLoftFillReturn d ix s
  | .loftScanDone d => Sys2Proof.Machine.execLoftScanDone d s
  | .dramScrub w => Sys2Proof.Machine.execDramScrub w s
  | .mmuTlbInvGo m v => Sys2Proof.Machine.execMmuTlbInvGo m v s
  | .tlbInvDone m => Sys2Proof.Machine.execTlbInvDone m s
  | .attKvComplete c => Sys2Proof.Machine.execAttKvComplete c s
  | .attNormComplete c => Sys2Proof.Machine.execAttNormComplete c s
  | .attMergeComplete c => Sys2Proof.Machine.execAttMergeComplete c s
  | .attSyncGo c => Sys2Proof.Machine.execAttSyncGo c s
  | .attSyncReturn c => Sys2Proof.Machine.execAttSyncReturn c s
  | .pathOpStart d cands => Sys2Proof.Machine.execPathOpStart d cands s
  | .pathOpComplete d elapsed => Sys2Proof.Machine.execPathOpComplete d elapsed s
  | .pathBudgetExpiry d samples => Sys2Proof.Machine.execPathBudgetExpiry d samples s
  | .pathAbortCapture d late samples => Sys2Proof.Machine.execPathAbortCapture d late samples s
  | .acoTick mics => Sys2Proof.Machine.execAcoTick mics s
  | .tdmSlotReceived j slot word => Sys2Proof.Machine.execTdmSlotReceived j slot word s
  | .blockBoundary => Sys2Proof.Machine.execBlockBoundary s
  | .adaptUpdate => Sys2Proof.Machine.execAdaptUpdate s
  | .acoCommitGo => Sys2Proof.Machine.execAcoCommitGo s
  | .acoCommitApply => Sys2Proof.Machine.execAcoCommitApply s
  | .acoMemDataWrite v => Sys2Proof.Machine.execAcoMemDataWrite v s
  | .acoMemDataRead h d => Sys2Proof.Machine.execAcoMemDataRead h d s
  | .acoEnable v => Sys2Proof.Machine.execAcoEnable v s
  | .acoDisable => Sys2Proof.Machine.execAcoDisable s
  | .adjStep => Sys2Proof.Machine.execAdjStep s
  | .timeSet v => Sys2Proof.Machine.execTimeSet v s
  | .timeAdj v => Sys2Proof.Machine.execTimeAdj v s
  | .fsyncCommit => Sys2Proof.Machine.execFsyncCommit s
  | .fsyncEdge n => Sys2Proof.Machine.execFsyncEdge n s
  | .fsyncEnd n => Sys2Proof.Machine.execFsyncEnd n s
  | .ppsEdge ix => Sys2Proof.Machine.execPpsEdge ix s
  | .cutoff => Sys2Proof.Machine.execCutoff s
  | .epochCapture => Sys2Proof.Machine.execEpochCapture s
  | .frameMark => Sys2Proof.Machine.execFrameMark s
  | .imuReadStart k => Sys2Proof.Machine.execImuReadStart k s
  | .frameStart p fmt => Sys2Proof.Machine.execFrameStart p fmt s
  | .lineGroup p data => Sys2Proof.Machine.execLineGroup p data s
  | .frameComplete p truncated pktErr withCutoff => Sys2Proof.Machine.execFrameComplete p truncated pktErr withCutoff s
  | .lidarPacket m port time sweep last data => Sys2Proof.Machine.execLidarPacket m port time sweep last data s
  | .descriptorWrite => Sys2Proof.Machine.execDescriptorWrite s
  | .closeEntryPut => Sys2Proof.Machine.execCloseEntryPut s
  | .ethRxFrame m data crcErr => Sys2Proof.Machine.execEthRxFrame m data crcErr s
  | .canRxFrame ix kind ext ident data => Sys2Proof.Machine.execCanRxFrame ix kind ext ident data s
  | .tstampPop m => Sys2Proof.Machine.execTstampPop m s
  | .windowRead w n => Sys2Proof.Machine.execWindowRead w n s
  | .windowWrite w data => Sys2Proof.Machine.execWindowWrite w data s
  | .pcieDeviceRequest ix pa len wdata => Sys2Proof.Machine.execPcieDeviceRequest ix pa len wdata s
  | .perstRelWrite ix => Sys2Proof.Machine.execPerstRelWrite ix s
  | .outputFrame port data => Sys2Proof.Machine.execOutputFrame port data s
  | .hubFaultNFall => Sys2Proof.Machine.execHubFaultNFall s
  | .pdmaArm e ch job => Sys2Proof.Machine.execPdmaArm e ch job s
  | .pdmaArmCheck e ch => Sys2Proof.Machine.execPdmaArmCheck e ch s
  | .pdmaAbort e ch withCompletion => Sys2Proof.Machine.execPdmaAbort e ch withCompletion s
  | .pdmaKick e ch => Sys2Proof.Machine.execPdmaKick e ch s
  | .pdmaRequest line => Sys2Proof.Machine.execPdmaRequest line s
  | .pdmaBurst e => Sys2Proof.Machine.execPdmaBurst e s
  | .pdmaChannelComplete e ch => Sys2Proof.Machine.execPdmaChannelComplete e ch s
  | .handoverEntry d => Sys2Proof.Machine.execHandoverEntry d s
  | .hoPop d => Sys2Proof.Machine.execHoPop d s
  | .regWindow blk port => Sys2Proof.Machine.execRegWindow blk port s
  | .sidebandTrained d m => Sys2Proof.Machine.execSidebandTrained d m s
  | .capabilityRecord d m w0 w1 => Sys2Proof.Machine.execCapabilityRecord d m w0 w1 s
  | .negFailTimeout d m => Sys2Proof.Machine.execNegFailTimeout d m s
  | .mainbandTrained d m => Sys2Proof.Machine.execMainbandTrained d m s
  | .flitReceived d m crcOk => Sys2Proof.Machine.execFlitReceived d m crcOk s
  | .retrainDone d m ok => Sys2Proof.Machine.execRetrainDone d m ok s
  | .scoreDecay d => Sys2Proof.Machine.execScoreDecay d s
  | .moduleOutMessage d m => Sys2Proof.Machine.execModuleOutMessage d m s
  | .takeOut d m => Sys2Proof.Machine.execTakeOut d m s
  | .edgeFenceTimeout e => Sys2Proof.Machine.execEdgeFenceTimeout e s
  | .fenceSet mask => Sys2Proof.Machine.execFenceSet mask s
  | .unfence mask => Sys2Proof.Machine.execUnfence mask s
  | .wrCrate n => Sys2Proof.Machine.execWrCrate n s
  | .rdCrate n => Sys2Proof.Machine.execRdCrate n s
  | .rdataCrate n => Sys2Proof.Machine.execRdataCrate n s
  | .tputCrate n => Sys2Proof.Machine.execTputCrate n s
  | .ackCrate n => Sys2Proof.Machine.execAckCrate n s
  | .crateForward n => Sys2Proof.Machine.execCrateForward n s
  | .crateAckTimeout n => Sys2Proof.Machine.execCrateAckTimeout n s
  | .farResetCapture d dom => Sys2Proof.Machine.execFarResetCapture d dom s
  | .farReadyCapture d dom => Sys2Proof.Machine.execFarReadyCapture d dom s
  | .clockStall d dom => Sys2Proof.Machine.execClockStall d dom s
  | .clockWindow ix counts => Sys2Proof.Machine.execClockWindow ix counts s
  | .clockStopCount ix dom => Sys2Proof.Machine.execClockStopCount ix dom s
  | .xlinkSend ix => Sys2Proof.Machine.execXlinkSend ix s
  | .xlinkFrame ix f => Sys2Proof.Machine.execXlinkFrame ix f s
  | .peerLost ix => Sys2Proof.Machine.execPeerLost ix s
  | .safetyPoll ix => Sys2Proof.Machine.execSafetyPoll ix s
  | .hubSilent ix => Sys2Proof.Machine.execHubSilent ix s
  | .outputMissing ix idx => Sys2Proof.Machine.execOutputMissing ix idx s
  | .faultReport ix r => Sys2Proof.Machine.execFaultReport ix r s
  | .faultNLow ix => Sys2Proof.Machine.execFaultNLow ix s
  | .safeArm ix => Sys2Proof.Machine.execSafeArm ix s
  | .forceSafeWrite ix => Sys2Proof.Machine.execForceSafeWrite ix s
  | .statusFrame ix => Sys2Proof.Machine.execStatusFrame ix s
  | .pairTriggerClear ix d => Sys2Proof.Machine.execPairTriggerClear ix d s
  | .funcReadyPoll ix => Sys2Proof.Machine.execFuncReadyPoll ix s
  | .adcSample ix v => Sys2Proof.Machine.execAdcSample ix v s
  | .pwrokFall => Sys2Proof.Machine.execPwrokFall s
  | .pwrokRise => Sys2Proof.Machine.execPwrokRise s
  | .supervisorRelease ix => Sys2Proof.Machine.execSupervisorRelease ix s
  | .sleepFrame port data => Sys2Proof.Machine.execSleepFrame port data s
  | .sleepReady ix => Sys2Proof.Machine.execSleepReady ix s
  | .powerEstimate d p => Sys2Proof.Machine.execPowerEstimate d p s
  | .powerReport d temp => Sys2Proof.Machine.execPowerReport d temp s
  | .thermalStep => Sys2Proof.Machine.execThermalStep s
  | .ladderApply d => Sys2Proof.Machine.execLadderApply d s
  | .ladderAckTimeout d => Sys2Proof.Machine.execLadderAckTimeout d s
  | .flowPulse ix => Sys2Proof.Machine.execFlowPulse ix s
  | .flowTimeout => Sys2Proof.Machine.execFlowTimeout s
  | .clampRelease => Sys2Proof.Machine.execClampRelease s
  | .hotTrip d => Sys2Proof.Machine.execHotTrip d s
  | .healthRead => Sys2Proof.Machine.execHealthRead s
  | .hourBoundary counts => Sys2Proof.Machine.execHourBoundary counts s
  | .healthFrame => Sys2Proof.Machine.execHealthFrame s
  | .readmitTimeout d => Sys2Proof.Machine.execReadmitTimeout d s
  | .sliceStart d unit => Sys2Proof.Machine.execSliceStart d unit s
  | .sliceEnd d unit pass => Sys2Proof.Machine.execSliceEnd d unit pass s
  | .testStarved ix d unit => Sys2Proof.Machine.execTestStarved ix d unit s
  | .jobStart => Sys2Proof.Machine.execJobStart s
  | .jobSwitch imm => Sys2Proof.Machine.execJobSwitch imm s
  | .jobAbort withCompletion => Sys2Proof.Machine.execJobAbort withCompletion s
  | .jobStopped => Sys2Proof.Machine.execJobStopped s
  | .switchWaitExpired => Sys2Proof.Machine.execSwitchWaitExpired s
  | .jobRelease swTime => Sys2Proof.Machine.execJobRelease swTime s
  | .restoreComplete => Sys2Proof.Machine.execRestoreComplete s
  | .jobComplete => Sys2Proof.Machine.execJobComplete s
  | .jobFault => Sys2Proof.Machine.execJobFault s
  | .noJob ix => Sys2Proof.Machine.execNoJob ix s
  | .hatchChal ln m scope => Sys2Proof.Machine.execHatchChal ln m scope s
  | .hatchResp ln m key sig => Sys2Proof.Machine.execHatchResp ln m key sig s
  | .hatchReady ln m => Sys2Proof.Machine.execHatchReady ln m s
  | .peek ln m pa count => Sys2Proof.Machine.execPeek ln m pa count s
  | .poke ln pa v => Sys2Proof.Machine.execPoke ln pa v s
  | .hatchHealth ln part => Sys2Proof.Machine.execHatchHealth ln part s
  | .countersRead ln c => Sys2Proof.Machine.execCountersRead ln c s
  | .countersSet ln c ix event edge => Sys2Proof.Machine.execCountersSet ln c ix event edge s
  | .countersHub ln => Sys2Proof.Machine.execCountersHub ln s
  | .hatchJobStatus ln => Sys2Proof.Machine.execHatchJobStatus ln s
  | .hatchJobStart ln pa => Sys2Proof.Machine.execHatchJobStart ln pa s
  | .hatchJobSwitch ln pa => Sys2Proof.Machine.execHatchJobSwitch ln pa s
  | .hatchJobAbort ln => Sys2Proof.Machine.execHatchJobAbort ln s
  | .dumpInfo ln m slot => Sys2Proof.Machine.execDumpInfo ln m slot s
  | .dumpRead ln m slot off count => Sys2Proof.Machine.execDumpRead ln m slot off count s
  | .dumpClear ln slot => Sys2Proof.Machine.execDumpClear ln slot s
  | .cellState ln c => Sys2Proof.Machine.execCellState ln c s
  | .hatchCellHalt ln c => Sys2Proof.Machine.execHatchCellHalt ln c s
  | .hatchCellResume ln c => Sys2Proof.Machine.execHatchCellResume ln c s
  | .hatchCellStep ln c engine => Sys2Proof.Machine.execHatchCellStep ln c engine s
  | .cellRegRead ln c engine file index => Sys2Proof.Machine.execCellRegRead ln c engine file index s
  | .cellRegWrite ln c engine file index v => Sys2Proof.Machine.execCellRegWrite ln c engine file index v s
  | .cellBkpt ln c ix engine pc => Sys2Proof.Machine.execCellBkpt ln c ix engine pc s
  | .cellBkptOff ln c ix => Sys2Proof.Machine.execCellBkptOff ln c ix s
  | .lineError ln m framing => Sys2Proof.Machine.execLineError ln m framing s
  | .lineTimeout m => Sys2Proof.Machine.execLineTimeout m s
  | .programKey ln m slot hash => Sys2Proof.Machine.execProgramKey ln m slot hash s
  | .programDebugKey ln m slot hash => Sys2Proof.Machine.execProgramDebugKey ln m slot hash s
  | .setLifecycle ln m lc => Sys2Proof.Machine.execSetLifecycle ln m lc s
  | .readId ln m => Sys2Proof.Machine.execReadId ln m s
  | .loadImage ln len => Sys2Proof.Machine.execLoadImage ln len s
  | .loadImageData ln off data => Sys2Proof.Machine.execLoadImageData ln off data s
  | .loadImageEnd ln => Sys2Proof.Machine.execLoadImageEnd ln s
  | .dbgHalt c => Sys2Proof.Machine.execDbgHalt c s
  | .dbgResume c => Sys2Proof.Machine.execDbgResume c s
  | .dbgStep c => Sys2Proof.Machine.execDbgStep c s
  | .dbgDataAccess c wr => Sys2Proof.Machine.execDbgDataAccess c wr s
  | .perfClear c => Sys2Proof.Machine.execPerfClear c s
  | .perfCounterWrite c ix hi v => Sys2Proof.Machine.execPerfCounterWrite c ix hi v s
  | .latchedRead c r => Sys2Proof.Machine.execLatchedRead c r s
  | .perfWindowClose c => Sys2Proof.Machine.execPerfWindowClose c s
  | .sampleRecord c code conflicts tlbMiss loftMiss => Sys2Proof.Machine.execSampleRecord c code conflicts tlbMiss loftMiss s
  | .sampleSeedWrite c v => Sys2Proof.Machine.execSampleSeedWrite c v s
  | .dumpCaptured => Sys2Proof.Machine.execDumpCaptured s
  | .dumpSealed => Sys2Proof.Machine.execDumpSealed s
  | .remoteReadTimeout d entry => Sys2Proof.Machine.execRemoteReadTimeout d entry s
  | .otpRevoke o slot => Sys2Proof.Machine.execOtpRevoke o slot s
  | .otpRevokeDebug o slot => Sys2Proof.Machine.execOtpRevokeDebug o slot s
  | .otpAdvanceSvn o typ => Sys2Proof.Machine.execOtpAdvanceSvn o typ s
  | .otpSetLifecycle o lc => Sys2Proof.Machine.execOtpSetLifecycle o lc s
  | .otpProgramDone o => Sys2Proof.Machine.execOtpProgramDone o s
  | .measGo slot => Sys2Proof.Machine.execMeasGo slot s
  | .attestGo => Sys2Proof.Machine.execAttestGo s
  | .attestDone => Sys2Proof.Machine.execAttestDone s
  | .challengeExpiry m => Sys2Proof.Machine.execChallengeExpiry m s
  | .readyLimit f => Sys2Proof.Machine.execReadyLimit f s
  | .flashReadRequest ix typ => Sys2Proof.Machine.execFlashReadRequest ix typ s
  | .hubFwTimeout => Sys2Proof.Machine.execHubFwTimeout s
  | .funcReadyWrite v => Sys2Proof.Machine.execFuncReadyWrite v s
  | .jtagTrst => Sys2Proof.Machine.execJtagTrst s
  | .trainFail d m => Sys2Proof.Machine.execTrainFail d m s
  | .dramTrained w gib => Sys2Proof.Machine.execDramTrained w gib s
  | .dieReset d => Sys2Proof.Machine.execDieReset d s
  | .pcieHotReset ix => Sys2Proof.Machine.execPcieHotReset ix s
  | .pcieLinkUp ix width speed => Sys2Proof.Machine.execPcieLinkUp ix width speed s
  | .usbBusReset => Sys2Proof.Machine.execUsbBusReset s
  | .imuSampleReady k data => Sys2Proof.Machine.execImuSampleReady k data s
  | .ethTxFrame m => Sys2Proof.Machine.execEthTxFrame m s
  | .supervisorReset ix => Sys2Proof.Machine.execSupervisorReset ix s
  | .tckEdge tms tdi => Sys2Proof.Machine.execTckEdge tms tdi s

end Sys2Proof.Machine
end

