-- ==== Sys2Proof/Machine/Idle.lean ====
section
/-! DEFINITION. What passes while no command waits: one TBS cycle of 10 ns (R305, R481). -/

namespace Sys2Proof.Machine

/-- The cells of a die run REG_TICK cycles of their own clock in a TBS cycle (R512, R518). -/
def State.tickDie (s : State) (d : Fin 4) : State :=
  if s.clkStopped d then s
  else
  let n := s.fld (.reg (d.castLE (by omega))) 4 7 0
  (List.finRange 16).foldl (fun (s : State) (i : Fin 16) => s.tick ⟨d, i⟩ n) s

/-- HUB_ROM sets when the hub ROM runs, its PLLs locked and OTP read: in a cycle that a free choice says (R611, R636; log entry 85). -/
def State.romTick (s : State) : State :=
  if s.ready 2 then s
  else
    let (b, s) := s.drawBool
    if b then (s.setFld (.boot 0) 0 7 0 (max 1 (s.fld (.boot 0) 0 7 0))).orReg (.boot 0) 4 4#32 else s

/-- One TBS cycle (log entry 3): the time base and the cells' clocks advance, unless PWROK holds them in reset (R589), the hub ROM may have come up, a
direct store on its way and a byte of a move may be performed (R205), hub CAN and USB may send, a line that waits at the hub's monitor
is executed, and the islands' own time advances. -/
def State.idle (s : State) : State :=
  let s := if s.pwrok then ((List.finRange 4).foldl State.tickDie s.tbTick).romTick.drainStores.earlyByte.portsOut.drainLines .hd else s
  { s with isl := s.isl.map (fun (k : Island) => { k with time := k.time + 10 }) }

end Sys2Proof.Machine
end

