-- ==== Sys2Proof/Machine/Pins.lean ====
section
/-! DEFINITION. What the pins carry while the part is powered (R681), as functions of the state. -/

namespace Sys2Proof.Machine

/-- What a pin carries (R681). -/
inductive PinLevel where
  | low | high
  /-- Not driven. -/
  | highZ
  /-- Open drain, not driven. -/
  | released
  /-- A CAN transmitter that sends nothing. -/
  | recessive
  /-- Zero samples. -/
  | zeros
  /-- Clocked, or driven as its interface says. -/
  | active
  deriving DecidableEq, Repr

/-- VALID_A and VALID_B: high-impedance while the island's supervisor holds it (R523, R681). -/
def State.pinValid (s : State) (i : Fin 2) : PinLevel := if !(s.isl[i]).rel then .highZ else if (s.isl[i]).valid then .high else .low

/-- FAULT_N: one open-drain net, low while an island pulls it or the board holds it low (R550, R678). -/
def State.pinFaultN (s : State) : PinLevel := if s.faultLow then .low else .released

/-- FSYNC output `n` (R310, R311): the active level while a pulse stands, with the polarity in force. -/
def State.pinFsync (s : State) (n : Fin 16) : PinLevel :=
  let f := s.hub.tb.fs[n]
  if f.active != f.cur.pol then .high else .low

/-- PHY_RST_N of every MAC: high while ETH is set (R617, R681). -/
def State.pinPhyRst (s : State) : PinLevel := if s.pwrok && s.ready 15 then .high else .low

/-- PERST_N of a root port: high while PERST_REL is set (R617, R689). -/
def State.pinPerst (s : State) (i : Fin 2) : PinLevel := if s.pwrok && (s.reg (.pcie i) 0x1000).getLsbD 0 then .high else .low

/-- CAN TX of the hub: recessive until CAN_HUB (R617). -/
def State.pinCanHub (s : State) : PinLevel := if s.pwrok && s.ready 18 then .active else .recessive

/-- CAN TX of an island: recessive until its own ready bit (R617). -/
def State.pinCanIsl (s : State) (i : Fin 2) : PinLevel := if (s.isl[i]).up then .active else .recessive

/-- CS_N of an SPI port: held inactive until its channel is armed, and low while a read is in progress (R313, R617). -/
def State.pinSpiCs (s : State) (k : Fin 4) : PinLevel := if s.pwrok && (s.hub.ing.imu[k]).isSome then .low else .high

/-- PDM_CLK, TDM_BCLK and TDM_FS: running from HUB_ROM (R617). -/
def State.pinAcoClk (s : State) : PinLevel := if s.pwrok && s.ready 2 then .active else .low

/-- PDM_OUT and TDM_OUT: zero samples until ACOUSTIC (R387, R402, R617). -/
def State.pinAcoOut (s : State) : PinLevel := if !s.pwrok then .low else if s.ready 19 then .active else .zeros

/-- The terminations of USB: on from USB, or while the hub ROM serves the USB service port (R617, R624, R627). -/
def State.pinUsb (s : State) : PinLevel := if s.pwrok && (s.ready 17 || s.usbService) then .active else .released

/-- DRAM RESET_N of a die: high once its DRAM is trained; before that as its own standard says (R22, R678). -/
def State.pinDramRst (s : State) (d : Fin 5) : PinLevel := if !s.pwrok then .low else if (s.dramGib[d]).isSome then .high else .active

/-- FL_RESET_N of an island: high once its rails are in tolerance, from where its supervisor releases it (R587). -/
def State.pinFlRst (s : State) (i : Fin 2) : PinLevel := if (s.isl[i]).rel then .high else .low

/-- TDO: high-impedance unless shifting (R692). -/
def State.pinTdo (s : State) : PinLevel := match s.jtag.tdo with | none => .highZ | some b => if b then .high else .low

/-- TX of a monitor's UART: idle high until someone serves it (R640). -/
def State.pinUartTx (s : State) (m : MonId) : PinLevel := if s.listens m then .active else .high

end Sys2Proof.Machine
end

