-- ==== Sys2Proof/WellFormed.lean ====
section
/-! DEFINITION. Well-formed commands: operands that the hardware's own encodings and framings can carry. The machine gives every command a
meaning; an ill-formed one is a command that no sender can send. -/

namespace Sys2Proof

/-- W = 1 asks for the 32-bit operation of a host core (R142); it is reserved on the other engines. -/
def wOk (e : Engine) (w : Bool) : Bool := match e with | .host _ => true | _ => !w

/-- DIV, DIVU, REM, REMU, CLZ, CTZ and POPC exist on sliver and host cores only (R143). -/
def coreOnly : Engine → Bool | .seq _ => false | _ => true

/-- A shift amount of 32 or more exists in the 64-bit operation of a host core only (R143). -/
def hiOk (e : Engine) (w hi : Bool) : Bool := wOk e w && (!hi || (match e with | .host _ => !w | _ => false))

/-- A payload between two lengths. -/
def lenOk {α : Type} (lo hi : Nat) (l : List α) : Bool := decide (lo ≤ l.length ∧ l.length ≤ hi)

/-- The checks, one arm for each command that has one. -/
def Instr.wellFormed : Instr → Bool
  | .add e w _ _ _ => wOk e w
  | .sub e w _ _ _ => wOk e w
  | .mul e w _ _ _ => wOk e w
  | .mulh e w _ _ _ => wOk e w
  | .mulhu e w _ _ _ => wOk e w
  | .div e w _ _ _ => wOk e w && coreOnly e
  | .divu e w _ _ _ => wOk e w && coreOnly e
  | .rem e w _ _ _ => wOk e w && coreOnly e
  | .remu e w _ _ _ => wOk e w && coreOnly e
  | .and e w _ _ _ => wOk e w
  | .or e w _ _ _ => wOk e w
  | .xor e w _ _ _ => wOk e w
  | .andn e w _ _ _ => wOk e w
  | .sll e w _ _ _ => wOk e w
  | .srl e w _ _ _ => wOk e w
  | .sra e w _ _ _ => wOk e w
  | .slt e w _ _ _ => wOk e w
  | .sltu e w _ _ _ => wOk e w
  | .seq e w _ _ _ => wOk e w
  | .sne e w _ _ _ => wOk e w
  | .min e w _ _ _ => wOk e w
  | .max e w _ _ _ => wOk e w
  | .minu e w _ _ _ => wOk e w
  | .maxu e w _ _ _ => wOk e w
  | .slli e w hi _ _ _ => hiOk e w hi
  | .srli e w hi _ _ _ => hiOk e w hi
  | .srai e w hi _ _ _ => hiOk e w hi
  | .clz e w _ _ => wOk e w && coreOnly e
  | .ctz e w _ _ => wOk e w && coreOnly e
  | .popc e w _ _ => wOk e w && coreOnly e
  | .scalarLoad e _ _ _ _ _ => coreOnly e
  | .scalarStore e _ _ _ _ => coreOnly e
  | .vmac _ f _ _ _ _ => !f.isInt
  | .vadds _ f _ _ _ _ => f.isInt
  | .vsubs _ f _ _ _ _ => f.isInt
  | .vsll _ f _ _ _ _ => f.isInt
  | .vsrl _ f _ _ _ _ => f.isInt
  | .vsra _ f _ _ _ _ => f.isInt
  | .vcmpLtu _ f _ _ _ _ => f.isInt
  | .vcmpLeu _ f _ _ _ _ => f.isInt
  | .fence _ a _ _ m => m || a == 0
  | .acoTick mics => lenOk 32 32 mics
  | .ethRxFrame _ data _ => lenOk 1 16383 data
  | .canRxFrame _ _ _ _ data => lenOk 0 2048 data
  | .pcieDeviceRequest _ _ len wdata => match wdata with | none => decide (1 ≤ len) | some l => lenOk 1 4096 l
  | .clockWindow _ counts => lenOk 18 18 counts
  | .adcSample _ v => lenOk 8 8 v
  | .hatchResp _ _ key sig => lenOk 32 32 key && lenOk 64 64 sig
  | .peek _ _ pa count => decide (1 ≤ count ∧ count ≤ 64 ∧ pa < 2 ^ 64)
  | .poke _ pa _ => decide (pa < 2 ^ 64)
  | .dumpInfo _ _ slot => decide (slot < 2)
  | .dumpRead _ _ slot off count => decide (slot < 2 ∧ 1 ≤ count ∧ count ≤ 64 ∧ off < 0x1000000)
  | .dumpClear _ slot => decide (slot < 2)
  | .programKey _ _ _ hash => lenOk 64 64 hash
  | .programDebugKey _ _ _ hash => lenOk 64 64 hash
  | .loadImageData _ _ data => lenOk 1 96 data
  | .imuSampleReady _ data => lenOk 64 64 data
  | _ => true

end Sys2Proof
end

