-- ==== Sys2Proof/Safety.lean ====
section
/-! DEFINITION. What counts as a good state and a good run, in the terms that the statements use. -/

namespace Sys2Proof.Machine

/-- A command completes: `exec` answers a next state. -/
def Completes (i : Instr) (s : State) : Prop := ∃ t, exec i s = .next t

/-- The state after a command, where it completes. -/
def After (i : Instr) (s t : State) : Prop := exec i s = .next t

/-! ### Issue -/

/-- An engine may issue here and now: it runs, nothing holds or stops it, it executes its own stream, its program counter names whole
instructions of its buffer, no breakpoint matches, and no register in use waits for a variable-latency result (R91, R108, R115, R179, R649,
R650). -/
def CanIssue (s : State) (e : Engine) (ext : Bool) (uses : List Reg) : Prop :=
  s.able e = true ∧ s.inBcast e = false ∧ fetchOk e (s.pc e) (issueBytes e ext) = true ∧ s.bkptMatch e = none ∧ s.pendsOn e uses = false

/-- The clocks of an engine's die run (R458, R580); those of the hub are never stopped by a line. -/
def State.clocked (s : State) (e : Engine) : Prop := ∀ c, engCell e = some c → s.clkStopped c.die = false

/-- The clocks of a die with a memory of its own run; those of the hub are never stopped by a line. -/
def State.clocked5 (s : State) (d : Fin 5) : Prop := ∀ h : d.val < 4, s.clkStopped ⟨d.val, h⟩ = false

/-- A host core may issue: PWROK is high (R589), it neither waits nor is held, and stands at an instruction address. -/
def hostReady (s : State) (h : Fin 8) : Prop :=
  s.pwrok = true ∧ (s.hosts[h]).waiting = false ∧ (s.hosts[h]).hold = .none ∧ s.pc (.host h) % 4 = 0

/-- The state after an instruction of the core or sequencer has given s[d] or h[d] a value, `lat` cycles after its issue, and the engine has gone on
to the next bundle or instruction. -/
def State.wrote (s : State) (e : Engine) (slot : Fin 4) (lat : Nat) (ext : Bool) (d : Reg) (v : W64) : State :=
  (s.setX e slot lat d v).retire e (issueBytes e ext) .fall

/-- A sliver core that takes the oldest entry of its broadcast queue, a given word (R108). -/
def CanReplay (s : State) (x : SlvId) (word : W32) (rest : List W32) : Prop :=
  (s.slvAt x).bcast = true ∧ (s.slvAt x).bq = word :: rest ∧ s.able (.slv x) = true

/-! ### Stores -/

/-- The number that an issuer reads at an address: its own latest stores, and memory elsewhere. -/
def State.ownNum (s : State) (e : Engine) (pa n : Nat) : Nat := leNat (s.ownBytes (.eng e) pa n)

/-- A direct store of bytes at `pa` has been issued (R205): its issuer reads them from now on; in memory each of them stands there already, or what
stood there before; every other byte stays for its issuer and for everybody else; and nothing changes but memory, its errors with their reports, and
the stores on their way. -/
def Stored (e : Engine) (pa : Nat) (l : List Byte) (s t : State) : Prop :=
  (∀ i, i < l.length → t.ownByte (.eng e) (pa + i) = l.getD i 0 ∧ (t.byte (pa + i) = l.getD i 0 ∨ t.byte (pa + i) = s.byte (pa + i))) ∧
  (∀ a, (s.home a < s.home pa ∨ s.home pa + l.length ≤ s.home a) → t.byte a = s.byte a ∧ t.ownByte (.eng e) a = s.ownByte (.eng e) a) ∧
  t = { s with mem := t.mem, ecc := t.ecc, regs := t.regs, inbox := t.inbox, stores := t.stores, free := t.free }

/-! ### Vectors -/

/-- The state after a vector instruction of a core's own stream has given v[d] a value. -/
def State.vecWrote (s : State) (x : SlvId) (d : Reg) (v : W256) : State := (s.setVr x d v).retire (.slv x) 4 .fall

/-- A vector register result lane by lane (R110): where the predicate's bit for the lane's lowest byte is set the lane has the value given, and
elsewhere the lane it had. -/
def LaneResult (bytes : Nat) (p : W32) (old v : W256) (f : Nat → BitVec (8 * bytes)) : Prop :=
  ∀ j, j < 32 / bytes → lane (8 * bytes) v j = if p.getLsbD (j * bytes) then f j else lane (8 * bytes) old j

/-- A command completes as a vector instruction that writes v[d] lane by lane, and nothing else but the core's advance. -/
def VecDone (c : Instr) (s : State) (x : SlvId) (p : Fin 8) (d : Reg) (bytes : Nat) (f : Nat → BitVec (8 * bytes)) : Prop :=
  ∃ v, exec c s = .next (s.vecWrote x d v) ∧ LaneResult bytes (s.pr x p) (s.vr x d) v f

/-- A comparison's result: the byte bits of a lane that the predicate allows tell whether the condition holds; all others are 0 (R155). -/
def PredResult (bytes : Nat) (p v : W32) (f : Nat → Bool) : Prop :=
  ∀ i, i < 32 → v.getLsbD i = (p.getLsbD (i / bytes * bytes) && f (i / bytes))

/-! ### What stays -/

/-- Two states agree on everything outside the cells, the counters and the registers that an issue of a cell engine may move: memory, host
cores, the hub, the islands, links, jobs and output. -/
def SameOutside (s t : State) : Prop :=
  t.mem = s.mem ∧ t.ecc = s.ecc ∧ t.stores = s.stores ∧ t.pwrok = s.pwrok ∧ t.hosts = s.hosts ∧ t.hub = s.hub ∧ t.isl = s.isl ∧ t.paths = s.paths ∧ t.lofts = s.lofts ∧ t.tlbs = s.tlbs ∧
    t.crates = s.crates ∧ t.links = s.links ∧ t.job = s.job ∧ t.aco = s.aco ∧ t.boots = s.boots ∧ t.therm = s.therm ∧ t.hlth = s.hlth ∧ t.dump = s.dump ∧
    t.jtag = s.jtag ∧ t.uart = s.uart ∧ t.out = s.out ∧ t.pending = s.pending ∧ t.inbox = s.inbox

/-- Memory in canonical form, and registers in canonical form. -/
def Canonical (s : State) : Prop := Memory.wf s.mem = true ∧ sparseWf regReset none s.regs = true

end Sys2Proof.Machine
end

