-- ==== Sys2Proof/Certificates/Slice0/Obligations.lean ====
section
/-! DEFINITION. The statements for the provers: what each command of the part does, family by family, and what every step keeps. -/

open Sys2Proof Sys2Proof.Machine

/-! ### The queue -/

/-- A step takes the command at the front of the queue and runs it with the queue's rest; every command completes in every state, none ends in a fault or a refusal; where no command waits, a step is one TBS cycle (log entry 3, the
model's own choice), in which memory stays where no store, move or request is under way. -/
def Obligations.StepRunsFrontAndCompletes : Prop :=
  (∀ (c : Instr) (r : List Instr) (s : State), step { s with pending := c :: r } = exec c { s with pending := r }) ∧
  (∀ (c : Instr) (s : State), ∃ t, exec c s = .next t) ∧
  (∀ s : State, s.pending = [] → step s = .next s.idle ∧
    (s.pwrok = false → s.idle = { s with isl := s.isl.map (fun (k : Island) => { k with time := k.time + 10 }) }) ∧
    ((s.uart[(0 : Fin 3)]).wait = [] → s.idle.pending = [] ∧ (∀ i : Fin 2, (s.idle.isl[i]).time = (s.isl[i]).time + 10) ∧
      (s.stores = [] → (∀ c : CellId, (s.cell c).moves = []) → s.idle.mem = s.mem)))

/-! ### Scalar instructions -/

/-- R143: each register form gives d the value of its exact sum, difference, product, shift or comparison, narrowed to the operation's width,
on every engine; latency 1, or 3 for the multiplications (R113). The shifts use the low bits of b. -/
def Obligations.ScalarRegisterForms : Prop :=
  ∀ (e : Engine) (w : Bool) (d a b : Reg) (s : State), wOk e w = true → CanIssue s e false [d, a, b] →
    let r := fun (lat : Nat) (f : BinFn) =>
      (Host.Outcome.next (s.wrote e 2 lat false d (scalarVal e w f (s.x e a) (s.x e b))) : Out)
    exec (.add e w d a b) s = r 1 (fun n x y => BitVec.ofNat n (x.toNat + y.toNat)) ∧
    exec (.sub e w d a b) s = r 1 (fun n x y => BitVec.ofInt n (x.toInt - y.toInt)) ∧
    exec (.mul e w d a b) s = r 3 (fun n x y => BitVec.ofNat n (x.toNat * y.toNat)) ∧
    exec (.mulh e w d a b) s = r 3 (fun n x y => BitVec.ofInt n (x.toInt * y.toInt / 2 ^ n)) ∧
    exec (.mulhu e w d a b) s = r 3 (fun n x y => BitVec.ofNat n (x.toNat * y.toNat / 2 ^ n)) ∧
    exec (.and e w d a b) s = r 1 (fun _ x y => x &&& y) ∧
    exec (.or e w d a b) s = r 1 (fun _ x y => x ||| y) ∧
    exec (.xor e w d a b) s = r 1 (fun _ x y => x ^^^ y) ∧
    exec (.andn e w d a b) s = r 1 (fun _ x y => x &&& ~~~y) ∧
    exec (.sll e w d a b) s = r 1 (fun n x y => BitVec.ofNat n (x.toNat * 2 ^ (y.toNat % n))) ∧
    exec (.srl e w d a b) s = r 1 (fun n x y => BitVec.ofNat n (x.toNat / 2 ^ (y.toNat % n))) ∧
    exec (.sra e w d a b) s = r 1 (fun n x y => BitVec.ofInt n (x.toInt / 2 ^ (y.toNat % n))) ∧
    exec (.slt e w d a b) s = r 1 (fun n x y => BitVec.ofNat n (if x.toInt < y.toInt then 1 else 0)) ∧
    exec (.sltu e w d a b) s = r 1 (fun n x y => BitVec.ofNat n (if x.toNat < y.toNat then 1 else 0)) ∧
    exec (.seq e w d a b) s = r 1 (fun n x y => BitVec.ofNat n (if x = y then 1 else 0)) ∧
    exec (.sne e w d a b) s = r 1 (fun n x y => BitVec.ofNat n (if x = y then 0 else 1)) ∧
    exec (.min e w d a b) s = r 1 (fun _ x y => if x.toInt < y.toInt then x else y) ∧
    exec (.max e w d a b) s = r 1 (fun _ x y => if x.toInt < y.toInt then y else x) ∧
    exec (.minu e w d a b) s = r 1 (fun _ x y => if x.toNat < y.toNat then x else y) ∧
    exec (.maxu e w d a b) s = r 1 (fun _ x y => if x.toNat < y.toNat then y else x)

/-- R143, R146, R182: the immediate forms. Shifts take 0 to 31, and on a 64-bit operation of a host core 32 to 63 too; ADDI sign-extends its
immediate, ANDI and ORI do not; LUI and LI load a word, sign-extended on a host core. -/
def Obligations.ScalarImmediateForms : Prop :=
  ∀ (e : Engine) (w hi : Bool) (d a b : Reg) (i : BitVec 16) (k : W32) (s : State), CanIssue s e false [d, a] → CanIssue s e false [d] →
    let n : Nat := b.val + (if hi then 32 else 0)
    let r := fun (w : Bool) (f : BinFn) (v : W64) =>
      (Host.Outcome.next (s.wrote e 2 1 false d (scalarVal e w f (s.x e a) v)) : Out)
    let load := fun (v : W32) => if isHost e then v.signExtend 64 else v.setWidth 64
    (hiOk e w hi = true →
      exec (.slli e w hi d a b) s = r w (fun m x _ => BitVec.ofNat m (x.toNat * 2 ^ n)) 0 ∧
      exec (.srli e w hi d a b) s = r w (fun m x _ => BitVec.ofNat m (x.toNat / 2 ^ n)) 0 ∧
      exec (.srai e w hi d a b) s = r w (fun m x _ => BitVec.ofInt m (x.toInt / 2 ^ n)) 0) ∧
    exec (.addi e d a i) s = r false (fun m x y => BitVec.ofNat m (x.toNat + y.toNat)) (i.signExtend 64) ∧
    exec (.andi e d a i) s = r false (fun _ x y => x &&& y) (i.setWidth 64) ∧
    exec (.ori e d a i) s = r false (fun _ x y => x ||| y) (i.setWidth 64) ∧
    exec (.lui e d i) s = .next (s.wrote e 2 1 false d (load (BitVec.ofNat 32 (i.toNat * 65536)))) ∧
    (CanIssue s e true [d] → exec (.li e d k) s = .next (s.wrote e 2 1 true d (load k)))

/-- R143, R144: division truncates toward zero, a zero divisor gives all ones and leaves the dividend as the remainder, and the most negative number divided by -1
gives itself with remainder 0; the counts. On sliver and host cores only: a sequencer raises ILLEGAL_INSTR. -/
def Obligations.DivisionAndCounts : Prop :=
  ∀ (e : Engine) (w : Bool) (d a b : Reg) (s : State), wOk e w = true → CanIssue s e false [d, a, b] → CanIssue s e false [d, a] →
    let r := fun (lat : Nat) (f : BinFn) =>
      (Host.Outcome.next (s.wrote e 2 lat false d (scalarVal e w f (s.x e a) (s.x e b))) : Out)
    (isSeq e = false →
      exec (.div e w d a b) s = r 18 (fun n x y => if y = 0 then BitVec.ofInt n (-1) else BitVec.ofInt n (x.toInt.tdiv y.toInt)) ∧
      exec (.divu e w d a b) s = r 18 (fun n x y => if y = 0 then BitVec.ofInt n (-1) else BitVec.ofNat n (x.toNat / y.toNat)) ∧
      exec (.rem e w d a b) s = r 18 (fun n x y => if y = 0 then x else BitVec.ofInt n (x.toInt.tmod y.toInt)) ∧
      exec (.remu e w d a b) s = r 18 (fun n x y => if y = 0 then x else BitVec.ofNat n (x.toNat % y.toNat)) ∧
      exec (.clz e w d a) s = r 1 (fun n x _ => BitVec.ofNat n (n - (if x.toNat = 0 then 0 else Nat.log2 x.toNat + 1))) ∧
      exec (.ctz e w d a) s = r 1 (fun n x _ => BitVec.ofNat n (if x.toNat = 0 then n else padicValNat 2 x.toNat)) ∧
      exec (.popc e w d a) s = r 1 (fun n x _ => BitVec.ofNat n (((List.range n).filter (fun i => x.getLsbD i)).length))) ∧
    (isSeq e = true →
      ∀ i ∈ ([.div e w d a b, .divu e w d a b, .rem e w d a b, .remu e w d a b, .clz e w d a, .ctz e w d a, .popc e w d a] : List Instr),
        ∃ word, exec i s = .next (s.raise e 2 (s.pc e) word excIllegal))

/-- R148: the address registers: results wrap modulo 2^40, AHI replaces the top 8 bits, ARD and ARDH read the low word and the high byte; a field of 16
or more raises ILLEGAL_OPERAND (R109). -/
def Obligations.AddressRegisters : Prop :=
  ∀ (c : CellId) (d a b : Reg) (i : BitVec 16) (s : State), CanIssue s (.seq c) false [a] → CanIssue s (.seq c) false [b] →
    CanIssue s (.seq c) false [d] →
    let av := fun (r : Reg) => (s.av c r).toNat
    let sx := fun (r : Reg) => (s.xw (.seq c) r).toNat
    let put := fun (v : Nat) => (Host.Outcome.next
      ((s.later c 2 2 (.a (Fin.ofNat 16 d)) (BitVec.ofNat 40 v)).retire (.seq c) 16 .fall) : Out)
    (d.val < 16 → a.val < 16 →
      exec (.aadd c d a b) s = put (av a + sx b) ∧
      exec (.asub c d a b) s = put (av a + 2 ^ 40 - sx b) ∧
      exec (.aaddi c d a i) s = put (av a + (i.signExtend 40).toNat)) ∧
    (d.val < 16 →
      exec (.amov c d a) s = put (sx a) ∧
      exec (.ahi c d a) s = .next ((s.later c 2 2 (.aHi (Fin.ofNat 16 d)) (BitVec.ofNat 40 (sx a % 256 * 2 ^ 32))).retire (.seq c) 16 .fall)) ∧
    (∀ (q : Seq) (r : Fin 16) (v : BitVec 40),
      ((q.put (.aHi r) v).a[r]).toNat = v.toNat / 2 ^ 32 * 2 ^ 32 + (q.a[r]).toNat % 2 ^ 32 ∧ ((q.put (.a r) v).a[r]) = v ∧
      (∀ k : Fin 16, k ≠ r → (q.put (.aHi r) v).a[k] = q.a[k] ∧ (q.put (.a r) v).a[k] = q.a[k]) ∧
      q.put (.aHi r) v = { q with a := (q.put (.aHi r) v).a }) ∧
    (a.val < 16 →
      exec (.ard c d a) s = .next (s.wrote (.seq c) 2 2 false d (BitVec.ofNat 64 (av a % 2 ^ 32))) ∧
      exec (.ardh c d a) s = .next (s.wrote (.seq c) 2 2 false d (BitVec.ofNat 64 (av a / 2 ^ 32)))) ∧
    (16 ≤ d.val → ∃ word, exec (.aadd c d a b) s = .next (s.raise (.seq c) 2 (s.pc (.seq c)) word excOperand)) ∧
    (16 ≤ a.val → ∃ word, exec (.ard c d a) s = .next (s.raise (.seq c) 2 (s.pc (.seq c)) word excOperand))

/-! ### Vector instructions -/

/-- R68, R110, R150, R151: the integer formats of the vector arithmetic, lane by lane under the predicate: sums, differences and products wrap, VADDS and VSUBS
saturate, VABS and VNEG wrap, and shifts take the amount modulo the width. -/
def Obligations.VectorIntegerLanes : Prop :=
  ∀ (x : SlvId) (f : LaneFmt) (p : Fin 8) (d a b : Reg) (s : State), f.isInt = true → CanIssue s (.slv x) false [] →
    let w := 8 * f.bytes
    let la := fun (j : Nat) => lane w (s.vr x a) j
    let lb := fun (j : Nat) => lane w (s.vr x b) j
    let sat := fun (v : Int) => (BitVec.ofInt w (max (-2 ^ (w - 1)) (min (2 ^ (w - 1) - 1) v)) : BitVec w)
    let done := fun (c : Instr) (g : Nat → BitVec w) => VecDone c s x p d f.bytes g
    done (.vadd x f p d a b) (fun j => BitVec.ofNat w ((la j).toNat + (lb j).toNat)) ∧
    done (.vsub x f p d a b) (fun j => BitVec.ofInt w ((la j).toInt - (lb j).toInt)) ∧
    done (.vmul x f p d a b) (fun j => BitVec.ofInt w ((la j).toInt * (lb j).toInt)) ∧
    done (.vmin x f p d a b) (fun j => if (la j).toInt < (lb j).toInt then la j else lb j) ∧
    done (.vmax x f p d a b) (fun j => if (la j).toInt < (lb j).toInt then lb j else la j) ∧
    done (.vabs x f p d a) (fun j => BitVec.ofInt w (la j).toInt.natAbs) ∧
    done (.vneg x f p d a) (fun j => BitVec.ofInt w (-(la j).toInt)) ∧
    done (.vadds x f p d a b) (fun j => sat ((la j).toInt + (lb j).toInt)) ∧
    done (.vsubs x f p d a b) (fun j => sat ((la j).toInt - (lb j).toInt)) ∧
    done (.vsll x f p d a b) (fun j => BitVec.ofNat w ((la j).toNat * 2 ^ ((lb j).toNat % w))) ∧
    done (.vsrl x f p d a b) (fun j => BitVec.ofNat w ((la j).toNat / 2 ^ ((lb j).toNat % w))) ∧
    done (.vsra x f p d a b) (fun j => BitVec.ofInt w ((la j).toInt / 2 ^ ((lb j).toNat % w)))

/-- R68, R150, R151: the floating-point formats: each lane is the exact value of its operation rounded once into the lane format (through FP32 for BF16).
VMAC adds the exact product to d. The formats that an instruction does not have raise ILLEGAL_INSTR. -/
def Obligations.VectorFloatLanes : Prop :=
  ∀ (x : SlvId) (f : LaneFmt) (p : Fin 8) (d a b : Reg) (s : State), CanIssue s (.slv x) false [] →
    let w := 8 * f.bytes
    let va := fun (j : Nat) => f.val (s.vr x a) j
    let vb := fun (j : Nat) => f.val (s.vr x b) j
    let vd := fun (j : Nat) => f.val (s.vr x d) j
    let done := fun (c : Instr) (g : Nat → FV) => VecDone c s x p d f.bytes (fun j => BitVec.ofNat w (f.toBits (g j)))
    let bad := fun (c : Instr) => ∃ word, exec c s = .next (s.raise (.slv x) 2 (s.pc (.slv x)) word excIllegal)
    (f.isInt = false →
      done (.vadd x f p d a b) (fun j => (va j).add (vb j)) ∧
      done (.vsub x f p d a b) (fun j => (va j).add (vb j).neg) ∧
      done (.vmul x f p d a b) (fun j => (va j).mul (vb j)) ∧
      done (.vmac x f p d a b) (fun j => ((va j).mul (vb j)).add (vd j)) ∧
      done (.vmin x f p d a b) (fun j => (va j).minv (vb j)) ∧
      done (.vmax x f p d a b) (fun j => (va j).maxv (vb j)) ∧
      done (.vabs x f p d a) (fun j => (va j).abs) ∧
      done (.vneg x f p d a) (fun j => (va j).neg) ∧
      bad (.vadds x f p d a b) ∧ bad (.vsubs x f p d a b) ∧ bad (.vsll x f p d a b) ∧ bad (.vsrl x f p d a b) ∧ bad (.vsra x f p d a b)) ∧
    (f.isInt = true → bad (.vmac x f p d a b))

/-- R152: the widening dot products: the integer sums are exact, and wrap or saturate only where they are added into d; each fma of the floating-point forms
rounds once. -/
def Obligations.VectorDotProducts : Prop :=
  ∀ (x : SlvId) (p : Fin 8) (d a b : Reg) (s : State), CanIssue s (.slv x) false [] →
    let acc := fun (j : Nat) => (lane 32 (s.vr x d) j).toInt
    let p8 := fun (j k : Nat) => (lane 8 (s.vr x a) (4 * j + k)).toInt * (lane 8 (s.vr x b) (4 * j + k)).toInt
    let p16 := fun (j k : Nat) => (lane 16 (s.vr x a) (2 * j + k)).toInt * (lane 16 (s.vr x b) (2 * j + k)).toInt
    let s8 := fun (j : Nat) => p8 j 0 + p8 j 1 + p8 j 2 + p8 j 3
    let s16 := fun (j : Nat) => p16 j 0 + p16 j 1
    let sat := fun (v : Int) => (BitVec.ofInt 32 (max (-2147483648) (min 2147483647 v)) : W32)
    let fma2 := fun (f : LaneFmt) (j : Nat) =>
      f32Fma (f.val (s.vr x a) (2 * j + 1)) (f.val (s.vr x b) (2 * j + 1))
        (f32 (f32Fma (f.val (s.vr x a) (2 * j)) (f.val (s.vr x b) (2 * j)) (f32 (lane 32 (s.vr x d) j))))
    let done := fun (c : Instr) (g : Nat → W32) => VecDone c s x p d 4 g
    done (.vdot4I8 x p d a b) (fun j => BitVec.ofInt 32 (acc j + s8 j)) ∧
    done (.vdot4sI8 x p d a b) (fun j => sat (acc j + s8 j)) ∧
    done (.vdot2I16 x p d a b) (fun j => BitVec.ofInt 32 (acc j + s16 j)) ∧
    done (.vdot2sI16 x p d a b) (fun j => sat (acc j + s16 j)) ∧
    done (.vdot2Bf16 x p d a b) (fma2 .bf16) ∧
    done (.vdot2F16 x p d a b) (fma2 .f16)

/-- R153, R158, R159: a conversion between any two vector formats completes for a part that meets its requirement, and raises ILLEGAL_OPERAND for one that does not.
VDW adds its taps to the accumulator group, exactly and wrapping for INT8, each fma rounding once for BF16 and FP16; a tap count above 8 or a range that passes v31
raises ILLEGAL_OPERAND. VGS gives each of 16 channels the bilinear mean of four taps, every operation rounding to FP32 in the order written, taps outside the source
and those of a coordinate of magnitude 2^24 or more reading 0; a NaN coordinate gives 0 in every channel and sets DRAIN_NAN; b above 29 or d above 30 raises
ILLEGAL_OPERAND. -/
def Obligations.VectorConvertWindowSample : Prop :=
  ∀ (x : SlvId) (p : Fin 8) (d a b : Reg) (part : Fin 4) (n1 : Fin 16) (s : State), CanIssue s (.slv x) false [] →
    let fault := fun (c : Instr) => ∃ word, exec c s = .next (s.raise (.slv x) 2 (s.pc (.slv x)) word excOperand)
    let vr := fun (r k : Nat) => s.vr x (Fin.ofNat 32 (r + k))
    (∀ fs ft : LaneFmt, ∀ cs ct : BitVec 4, laneOfCode cs.toNat = some fs → laneOfCode ct.toNat = some ft →
      ((part.val = 0 ∨ part.val * fs.bytes < ft.bytes ∨ part.val * ft.bytes < fs.bytes) →
        (fs.bytes ≤ ft.bytes →
          VecDone (.vectorConvert x p ct cs part d a) s x p d ft.bytes (fun j =>
            BitVec.ofNat (8 * ft.bytes) (cvtLane fs ft (lane (8 * fs.bytes) (s.vr x a) (part.val * (32 / ft.bytes) + j)).toNat))) ∧
        (ft.bytes < fs.bytes →
          VecDone (.vectorConvert x p ct cs part d a) s x p d ft.bytes (fun j =>
            let n := 32 / fs.bytes
            if part.val * n ≤ j ∧ j < part.val * n + n then
              BitVec.ofNat (8 * ft.bytes) (cvtLane fs ft (lane (8 * fs.bytes) (s.vr x a) (j - part.val * n)).toNat)
            else lane (8 * ft.bytes) (s.vr x d) j))) ∧
      (part.val ≠ 0 → ft.bytes ≤ part.val * fs.bytes → fs.bytes ≤ part.val * ft.bytes → fault (.vectorConvert x p ct cs part d a))) ∧
    ((n1.val < 8 ∧ a.val + n1.val < 32 ∧ b.val + n1.val < 32 ∧ d.val + 3 < 32) →
      ∃ v : Fin 4 → W256,
        exec (.vdw x 0 n1 p d a b) s =
          .next (((List.finRange 4).foldl (fun t k => t.setVr x (Fin.ofNat 32 (d.val + k.val)) (v k)) s).retire (.slv x) 4 .fall) ∧
        ∀ k, LaneResult 4 (s.pr x p) (vr d.val k.val) (v k) (fun j =>
          BitVec.ofInt 32 ((lane 32 (vr d.val k.val) j).toInt +
            ((List.range (n1.val + 1)).map (fun t => (lane 8 (vr a.val t) (8 * k.val + j)).toInt * (lane 8 (vr b.val t) (8 * k.val + j)).toInt)).sum))) ∧
    (∀ (fmt : BitVec 4) (f : LaneFmt), (fmt = 4 ∧ f = .bf16) ∨ (fmt = 5 ∧ f = .f16) →
      (n1.val < 8 ∧ a.val + n1.val < 32 ∧ b.val + n1.val < 32 ∧ d.val + 1 < 32) →
      ∃ v : Fin 2 → W256,
        exec (.vdw x fmt n1 p d a b) s =
          .next (((List.finRange 2).foldl (fun t k => t.setVr x (Fin.ofNat 32 (d.val + k.val)) (v k)) s).retire (.slv x) 4 .fall) ∧
        ∀ k, LaneResult 4 (s.pr x p) (vr d.val k.val) (v k) (fun j =>
          (List.range (n1.val + 1)).foldl (fun acc t => f32Fma (f.val (vr a.val t) (8 * k.val + j)) (f.val (vr b.val t) (8 * k.val + j)) (f32 acc))
            (lane 32 (vr d.val k.val) j))) ∧
    (∀ fmt : BitVec 4, fmt = 0 ∨ fmt = 4 ∨ fmt = 5 →
      8 ≤ n1.val ∨ 31 < a.val + n1.val ∨ 31 < b.val + n1.val ∨ 30 < d.val ∨ (fmt = 0 ∧ 28 < d.val) → fault (.vdw x fmt n1 p d a b)) ∧
    (∀ (fmt : BitVec 4) (f : LaneFmt), (fmt = 4 ∧ f = .bf16) ∨ (fmt = 5 ∧ f = .f16) →
      let cx := lane 32 (s.vr x a) 0
      let cy := lane 32 (s.vr x a) 1
      let base := (s.sv x b).toNat
      let dims := s.sv x (Fin.ofNat 32 (b.val + 1))
      let stride := (s.sv x (Fin.ofNat 32 (b.val + 2))).toNat
      let fl := fun (v : W32) => ((f32 v).floor).getD 0
      let far := fun (v : W32) => (f32 v).floor = none ∨ fl v < -16777216 ∨ 16777216 ≤ fl v
      let fr := fun (v : W32) => if far v then (0 : W32) else f32Sub v (toF32 (FV.ofInt (fl v)))
      let inside := fun (dx dy : Nat) => ¬ far cx ∧ ¬ far cy ∧ 0 ≤ fl cx + dx ∧ fl cx + dx < (bits dims 15 0 : Nat) ∧ 0 ≤ fl cy + dy ∧ fl cy + dy < (bits dims 31 16 : Nat)
      let at_ := fun (dx dy c : Nat) => base + (fl cy + dy).toNat * stride + (fl cx + dx).toNat * 32 + 2 * c
      let tap := fun (dx dy c : Nat) =>
        if inside dx dy then f.ff.decode (s.ownNum (.slv x) (lsBase x.cell + at_ dx dy c) 2) else FV.fin false 0 0
      let fx := fr cx
      let fy := fr cy
      let gx := f32Sub 0x3F800000#32 fx
      let gy := f32Sub 0x3F800000#32 fy
      let m := fun (u v : W32) (t : FV) => toF32 ((f32 (f32Mul u v)).mul t)
      let nan := (f32 cx).isNan = true ∨ (f32 cy).isNan = true
      (b.val ≤ 29 → d.val ≤ 30 → nan →
        exec (.vgs x fmt d a b) s =
          .next ((((s.setVr x d 0).setVr x (Fin.ofNat 32 (d.val + 1)) 0).arith x.cell afDrainNan).retire (.slv x) 4 .fall)) ∧
      (b.val ≤ 29 → d.val ≤ 30 → ¬ nan → s.pairOn x.cell = false →
        (∀ dx dy c, dx < 2 → dy < 2 → c < 16 → inside dx dy → at_ dx dy c % 2 = 0 ∧ at_ dx dy c + 2 ≤ 0x600000 ∧
          ∀ g ∈ granules (lsBase x.cell + at_ dx dy c) 2, s.eccAt g = .clean) →
        ∃ v : Fin 2 → W256,
          exec (.vgs x fmt d a b) s = .next (((s.setVr x d (v 0)).setVr x (Fin.ofNat 32 (d.val + 1)) (v 1)).retire (.slv x) 4 .fall) ∧
          ∀ k : Fin 2, ∀ j, j < 8 → let c := 8 * k.val + j
            lane 32 (v k) j = f32Add (f32Add (f32Add (m gx gy (tap 0 0 c)) (m fx gy (tap 1 0 c))) (m gx fy (tap 0 1 c))) (m fx fy (tap 1 1 c))) ∧
      (29 < b.val ∨ 30 < d.val → fault (.vgs x fmt d a b)))

/-- R154, R156, R69: logical operations, selection, splats and lane moves; the reductions with excluded lanes as 0 or as minus infinity; the exponential and the
reciprocal lane by lane, whose bits each stepping chooses within R69's bounds (log entry 7).
Where the spec leaves a point open, the clause is the model's own choice: log entry 25. -/
def Obligations.VectorLogicLanesReductions : Prop :=
  ∀ (x : SlvId) (p : Fin 8) (d a b : Reg) (s : State), CanIssue s (.slv x) false [] →
    let byte := fun (r : Reg) (i : Nat) => lane 8 (s.vr x r) i
    let word := fun (r : Reg) (i : Nat) => lane 32 (s.vr x r) i
    let done := fun (c : Instr) (n : Nat) (g : Nat → BitVec (8 * n)) => VecDone c s x p d n g
    let toS := fun (c : Instr) (v : W32) => exec c s = .next (s.wrote (.slv x) 2 1 false d (v.setWidth 64))
    let fault := fun (c : Instr) => ∃ w, exec c s = .next (s.raise (.slv x) 2 (s.pc (.slv x)) w excOperand)
    let red := fun (z : W32) (j : Nat) => if (s.pr x p).getLsbD (4 * j) then word a j else z
    done (.vand x p d a b) 1 (fun i => byte a i &&& byte b i) ∧
    done (.vor x p d a b) 1 (fun i => byte a i ||| byte b i) ∧
    done (.vxor x p d a b) 1 (fun i => byte a i ^^^ byte b i) ∧
    done (.vandn x p d a b) 1 (fun i => byte a i &&& ~~~byte b i) ∧
    (∃ v, exec (.vsel x p d a b) s = .next (s.vecWrote x d v) ∧
      ∀ i, i < 32 → lane 8 v i = if (s.pr x p).getLsbD i then byte a i else byte b i) ∧
    done (.vsplatB x p d a) 1 (fun _ => (s.sv x a).setWidth 8) ∧
    done (.vsplatH x p d a) 2 (fun _ => (s.sv x a).setWidth 16) ∧
    done (.vsplatW x p d a) 4 (fun _ => s.sv x a) ∧
    (b.val < 8 → toS (.vextw x d a b) (word a b.val) ∧
      done (.vinsw x p d a b) 4 (fun j => if j = b.val then s.sv x a else word d j)) ∧
    (8 ≤ b.val → fault (.vextw x d a b) ∧ fault (.vinsw x p d a b)) ∧
    toS (.vrsumI32 x p d a) (BitVec.ofNat 32 (((List.range 8).map (fun j => (red 0 j).toNat)).sum)) ∧
    toS (.vrsumF32 x p d a)
      (f32Add (f32Add (f32Add (red 0 0) (red 0 1)) (f32Add (red 0 2) (red 0 3))) (f32Add (f32Add (red 0 4) (red 0 5)) (f32Add (red 0 6) (red 0 7)))) ∧
    toS (.vrmaxF32 x p d a) (toF32 (((List.range 8).map (fun j => f32 (red 0xFF800000#32 j))).foldl FV.maxv (.inf true))) ∧
    done (.vexpF32 x p d a) 4 (fun j => expF32 (word a j)) ∧
    done (.vrecipF32 x p d a) 4 (fun j => recipF32 (word a j))

/-- R155, R149: comparisons write the byte bits of each lane, 0 where the predicate excludes it; the operations on predicate registers. A destination of 8 or more raises
ILLEGAL_OPERAND, and p0 stays all ones.
Where the spec leaves a point open, the clause is the model's own choice: log entry 25. -/
def Obligations.ComparesAndPredicates : Prop :=
  ∀ (x : SlvId) (f : LaneFmt) (p : Fin 8) (d a b : Reg) (s : State), CanIssue s (.slv x) false [] →
    let w := 8 * f.bytes
    let la := fun (j : Nat) => lane w (s.vr x a) j
    let lb := fun (j : Nat) => lane w (s.vr x b) j
    let va := fun (j : Nat) => f.val (s.vr x a) j
    let vb := fun (j : Nat) => f.val (s.vr x b) j
    let done := fun (c : Instr) (g : Nat → Bool) =>
      ∃ v, exec c s = .next ((s.setPr x d.val v).retire (.slv x) 4 .fall) ∧ PredResult f.bytes (s.pr x p) v g
    let put := fun (c : Instr) (v : W32) => exec c s = .next ((s.setPr x d.val v).retire (.slv x) 4 .fall)
    let fault := fun (c : Instr) => ∃ word, exec c s = .next (s.raise (.slv x) 2 (s.pc (.slv x)) word excOperand)
    (d.val < 8 → f.isInt = true →
      done (.vcmpEq x f p d a b) (fun j => decide (la j = lb j)) ∧
      done (.vcmpNe x f p d a b) (fun j => decide (la j ≠ lb j)) ∧
      done (.vcmpLt x f p d a b) (fun j => decide ((la j).toInt < (lb j).toInt)) ∧
      done (.vcmpLe x f p d a b) (fun j => decide ((la j).toInt ≤ (lb j).toInt)) ∧
      done (.vcmpLtu x f p d a b) (fun j => decide ((la j).toNat < (lb j).toNat)) ∧
      done (.vcmpLeu x f p d a b) (fun j => decide ((la j).toNat ≤ (lb j).toNat))) ∧
    (d.val < 8 → f.isInt = false →
      done (.vcmpEq x f p d a b) (fun j => (va j).eqv (vb j)) ∧
      done (.vcmpNe x f p d a b) (fun j => !(va j).eqv (vb j)) ∧
      done (.vcmpLt x f p d a b) (fun j => (va j).lt (vb j)) ∧
      done (.vcmpLe x f p d a b) (fun j => (va j).lt (vb j) || (va j).eqv (vb j))) ∧
    (d.val < 8 → a.val < 8 → b.val < 8 →
      let pa := s.pr x (Fin.ofNat 8 a.val)
      let pb := s.pr x (Fin.ofNat 8 b.val)
      put (.pand x d a b) (pa &&& pb) ∧ put (.por x d a b) (pa ||| pb) ∧ put (.pxor x d a b) (pa ^^^ pb) ∧ put (.pandn x d a b) (pa &&& ~~~pb)) ∧
    (8 ≤ d.val → (f.isInt = true → fault (.vcmpLtu x f p d a b) ∧ fault (.vcmpLeu x f p d a b)) ∧
      fault (.vcmpEq x f p d a b) ∧ fault (.vcmpNe x f p d a b) ∧ fault (.vcmpLt x f p d a b) ∧ fault (.vcmpLe x f p d a b)) ∧
    (8 ≤ d.val ∨ 8 ≤ a.val ∨ 8 ≤ b.val → fault (.pand x d a b) ∧ fault (.por x d a b) ∧ fault (.pxor x d a b) ∧ fault (.pandn x d a b)) ∧
    (∀ v, (s.setPr x 0 v) = s ∧ s.pr x 0 = 0xFFFFFFFF#32)

/-- R157, R110, R118, R205: a vector load writes the bytes that the predicate allows, as the core's own stores left them; a vector store stores exactly the bytes that it allows, in memory
at once or later (log entry 22), and every other byte reads as before; an offset that is not a multiple of 32, or that passes the local store, raises ACCESS_FAULT and stores nothing. -/
def Obligations.VectorLoadStore : Prop :=
  ∀ (x : SlvId) (p : Fin 8) (d a : Reg) (off : BitVec 13) (s : State), CanIssue s (.slv x) false [] → Memory.wf s.mem = true →
    s.pairOn x.cell = false →
    let o := ((s.sv x a).toNat + (off.signExtend 32).toNat * 32) % 2 ^ 32
    let base := lsBase x.cell + o
    let w : StoreBy := .eng (.slv x)
    (o % 32 = 0 → o + 32 ≤ 0x600000 → (∀ g ∈ granules base 32, s.eccAt g = .clean) →
      VecDone (.vectorLoad x p d a off) s x p d 1 (fun i => s.ownByte w (base + i))) ∧
    (o % 32 = 0 → o + 32 ≤ 0x600000 →
      ∃ t : State, exec (.vectorStore x p d a off) s = .next (t.retire (.slv x) 4 .fall) ∧
        (∀ i, i < 32 → let old := (s.ownByte w (base + i), s.byte (base + i)); let new := lane 8 (s.vr x d) i
          if (s.pr x p).getLsbD i then t.ownByte w (base + i) = new ∧ (t.byte (base + i) = new ∨ t.byte (base + i) = old.2)
          else t.ownByte w (base + i) = old.1 ∧ t.byte (base + i) = old.2) ∧
        (∀ k, (k < base ∨ base + 32 ≤ k) → t.byte k = s.byte k ∧ t.ownByte w k = s.ownByte w k) ∧
        t = { s with mem := t.mem, ecc := t.ecc, stores := t.stores, free := t.free }) ∧
    ((o % 32 ≠ 0 ∨ 0x600000 < o + 32) → ∃ word,
      exec (.vectorLoad x p d a off) s = .next (s.raise (.slv x) 2 (s.pc (.slv x)) word (excAccess o)) ∧
      ∃ word', exec (.vectorStore x p d a off) s = .next (s.raise (.slv x) 2 (s.pc (.slv x)) word' (excAccess o)))

/-- R108, R107, R156: JOIN enters broadcast mode. In it a core executes the oldest entry of its queue and nothing else, its own stream standing still; BLEAVE from the
queue leaves the mode, and in the core's own stream raises ILLEGAL_INSTR; a broadcast word reaches the queues of the cores in the mode. -/
def Obligations.BroadcastMode : Prop :=
  ∀ (x : SlvId) (f : LaneFmt) (p : Fin 8) (d a b : Reg) (r : List W32) (s : State),
    (CanIssue s (.slv x) false [] →
      exec (.join x) s = .next ((s.modSlv x (fun k => { k with bcast := true })).retire (.slv x) 4 .fall) ∧
      ∃ word, exec (.bleave x) s = .next (s.raise (.slv x) 2 (s.pc (.slv x)) word excIllegal)) ∧
    (∀ word, wordOf (.bleave x) = word → CanReplay s x word r →
      exec (.bleave x) s = .next (((s.modSlv x (fun k => { k with bcast := false })).issued (.slv x)).modSlv x (fun k => { k with bq := r }))) ∧
    (CanReplay s x (wordOf (.vand x p d a b)) r →
      ∃ v, exec (.vand x p d a b) s = .next (((s.setVr x d v).issued (.slv x)).modSlv x (fun k => { k with bq := r })) ∧
        LaneResult 1 (s.pr x p) (s.vr x d) v (fun i => lane 8 (s.vr x a) i &&& lane 8 (s.vr x b) i)) ∧
    ((s.slvAt x).bcast = true → (s.slvAt x).bq.head? ≠ some (wordOf (.vadd x f p d a b)) → exec (.vadd x f p d a b) s = .next s) ∧
    (∀ (c : CellId) (w : W32) (l : List W32), s.clkStopped c.die = false → (s.cell c).bcastOut = w :: l → ∃ t : State, exec (.broadcastDelivery c) s = .next t ∧
      (t.cell c).bcastOut = l ∧ ∀ i : Fin 64, ((t.slvAt ⟨c, i⟩).bq = (s.slvAt ⟨c, i⟩).bq ++ (if (s.slvAt ⟨c, i⟩).receives then [w] else [])))

/-! ### Loads and stores -/

/-- R118, R147, R171, R205: LDS and STS, and the loads and stores of a sliver core: the word, halfword or byte of the local store at the sum of the operands, little-endian,
zero- or sign-extended, read at once or, by the LDS of a sequencer, later (log entry 22); a store stores its bytes and no other byte; a misaligned or outside offset raises ACCESS_FAULT. -/
def Obligations.LocalStoreAccess : Prop :=
  ∀ (e : Engine) (x : SlvId) (d a b : Reg) (size : Fin 4) (u : Bool) (off : BitVec 13) (s : State), isHost e = false → Memory.wf s.mem = true →
    let o := ((s.xw e a).toNat + (s.xw e b).toNat) % 2 ^ 32
    let p := lsBase (cellOf e) + o
    let n := 2 ^ size.val
    let ox := ((s.xw (.slv x) a).toNat + (off.signExtend 32).toNat) % 2 ^ 32
    let px := lsBase x.cell + ox
    let mem := fun (e : Engine) (t : State) (pa n v : Nat) => Stored e pa (toLe n v) s t
    (CanIssue s e false [d, a, b] → s.pairOn (cellOf e) = false →
      (o % 4 = 0 → o + 4 ≤ 0x600000 →
        ((∀ g ∈ granules p 4, s.eccAt g = .clean) →
          ∃ t, exec (.lds e d a b) s = .next (State.retire t e (issueBytes e false) .fall) ∧
            let u : State := { s with free := t.free }
            (isSeq e = false → t = s.setVar e 1 d (BitVec.ofNat 32 (s.ownNum e p 4))) ∧
            (t = u.setVar e 1 d (BitVec.ofNat 32 (s.ownNum e p 4)) ∨ ∃ w, t = u.awaitVar e 1 d (some (o, s.pc e, w)))) ∧
        ∃ t, exec (.sts e d a b) s = .next (State.retire t e (issueBytes e false) .fall) ∧ mem e t p 4 (s.xw e d).toNat) ∧
      ((o % 4 ≠ 0 ∨ 0x600000 < o + 4) → ∃ w w',
        exec (.lds e d a b) s = .next ((s.noteIssue e).raise e 1 (s.pc e) w (excAccess o)) ∧
        exec (.sts e d a b) s = .next ((s.noteIssue e).raise e 1 (s.pc e) w' (excAccess o)))) ∧
    (CanIssue s (.slv x) false [d, a] → s.pairOn x.cell = false →
      (size.val < 3 → ox % n = 0 → ox + n ≤ 0x600000 →
        ((∀ g ∈ granules px n, s.eccAt g = .clean) →
          exec (.scalarLoad (.slv x) d a size u off) s =
            .next ((s.setX (.slv x) 0 4 d (let v := s.ownNum (.slv x) px n; if u then BitVec.ofNat 64 v else BitVec.ofInt 64 (sgn (8 * n) v))).retire (.slv x) 4 .fall)) ∧
        ∃ t, exec (.scalarStore (.slv x) d a size off) s = .next (State.retire t (.slv x) 4 .fall) ∧ mem (.slv x) t px n (s.xw (.slv x) d).toNat) ∧
      (size.val = 3 → ∃ w w',
        exec (.scalarLoad (.slv x) d a size u off) s = .next (s.raise (.slv x) 0 (s.pc (.slv x)) w excOperand) ∧
        exec (.scalarStore (.slv x) d a size off) s = .next (s.raise (.slv x) 0 (s.pc (.slv x)) w' excOperand)))

/-- R145, R147, R188, R205, R445: loads, stores and CAS of a host core at Monitor, whose addresses are not translated, on memory that the core reaches while its port
holds nothing: the bytes are little-endian. A load of another die's DRAM holds the core with an RD crate on its way, and any other gives the register its value; a store is
stored, by WR crates into another die's DRAM; a CAS returns the old value and, where it matches, stores its bytes and no other byte; a misaligned address takes ACCESS_FAULT.
Where the spec leaves a point open, the clause is the model's own choice: log entries 12, 22, 69. -/
def Obligations.HostMemoryAccess : Prop :=
  ∀ (h : Fin 8) (d a b : Reg) (size : Fin 4) (u w : Bool) (off : BitVec 13) (s : State), hostReady s h → (s.hosts[h]).level = .monitor →
    Memory.wf s.mem = true →
    let e : Engine := .host h
    let n := 2 ^ size.val
    let ea := (s.x e a + off.signExtend 64).toNat
    let m := if w then 4 else 8
    let ca := (s.x e a).toNat
    let v := (s.x e d).toNat
    let own := s.performAll (fun k => k.who == .eng e)
    let old := own.ownNum e ca m
    let reach := fun (s : State) (pa n : Nat) => placeOf pa = .mem ∧ rangeOk false true pa n = true ∧ placeOf (pa + n - 1) ≠ .hole ∧ s.hostCut pa = false ∧
      s.home pa = pa ∧ s.portHeld 4 0 = false ∧ (∀ g ∈ granules pa n, (s.hostCharge pa n).eccAt g = .clean)
    let stays := fun (s t : State) (pa n : Nat) => (∀ k, (s.home k < pa ∨ pa + n ≤ s.home k) → t.byte k = s.byte k) ∧ t.hosts = s.hosts ∧ t.cells = s.cells
    (ea % n = 0 → reach s ea n → rangeOk false false ea n = true →
      (0x4000000000 ≤ ea → exec (.scalarLoad e d a size u off) s =
        .next (((s.hostCharge ea n).reachAt ea).wrote e 0 1 false d (let v := s.ownNum e ea n; if u then BitVec.ofNat 64 v else BitVec.ofInt 64 (sgn (8 * n) v)))) ∧
      (ea < 0x4000000000 → ∃ t, exec (.scalarLoad e d a size u off) s = .next (State.retire t e 4 .fall) ∧ t.mem = s.mem ∧ t.cells = s.cells ∧
        t.hosts = (s.setHold e (.hostRead s.crateNext d (Fin.ofNat 9 n) u (s.x e a + off.signExtend 64))).hosts ∧
        ∃ k ∈ t.crates, k.num = s.crateNext ∧ k.kind = .rd ∧ k.who = .host h ∧ k.pa = ea ∧ k.len = n)) ∧
    (ea % n = 0 → reach s ea n →
      ∃ t, exec (.scalarStore e d a size off) s = .next (State.retire t e 4 .fall) ∧ stays s t ea n ∧
        (0x4000000000 ≤ ea → inAcoPort ea = false → Stored e ea (toLe n v) ((s.hostCharge ea n).reachAt ea) t) ∧
        (inAcoPort ea = true → t.num ea n = v % 2 ^ (8 * n)) ∧
        (ea < 0x4000000000 → t.mem = s.mem ∧ t.stores = s.stores ∧ ∃ k ∈ t.crates, k.kind = .wr ∧ k.who = .host h ∧ k.pa = ea ∧ k.data = toLe n v)) ∧
    (ea % n ≠ 0 → ∃ word word',
      exec (.scalarLoad e d a size u off) s = .next (s.modHost h (fun k => k.takeExc (excAccess ea) word)) ∧
      exec (.scalarStore e d a size off) s = .next (s.modHost h (fun k => k.takeExc (excAccess ea) word'))) ∧
    ((∀ k ∈ s.crates, k.who ≠ .host h) →
      (ca % m = 0 → reach own ca m → rangeOk false false ca m = true → s.portHeld 4 0 = false →
        (ca < 0x4000000000 → own.memCut (Fin.ofNat 4 (ca / 0x1000000000)) = 0) →
        ∃ t, exec (.cas h w d a b) s = .next (State.retire (t.setX e 0 1 d (BitVec.ofInt 64 (sgn (8 * m) old))) e 4 .fall) ∧ stays own t ca m ∧
          (old = v % 2 ^ (8 * m) → t.num ca m = (s.x e b).toNat % 2 ^ (8 * m)) ∧ (old ≠ v % 2 ^ (8 * m) → ∀ k, t.byte k = own.byte k)) ∧
      (ca % m ≠ 0 → ∃ word, exec (.cas h w d a b) s = .next (own.modHost h (fun k => k.takeExc (excAccess ca) word))))

/-! ### Traps of a host core -/

/-- R123 to R125: SYSCALL, BRK, an interrupt and RET on a host core: what the trap saves, the level and the enable after it, and where the core goes on. -/
def Obligations.HostTraps : Prop :=
  ∀ (h : Fin 8) (num : BitVec 8) (mon : Bool) (s : State),
    let c := s.hosts[h]
    let prev := fun (r : Vector W64 7) => BitVec.ofNat 64 (c.level.code + (if (r[6]).getLsbD 0 then 4 else 0))
    let regs := fun (r : Vector W64 7) (ret cause info : W64) =>
      (((((r.set 1 ret).set 2 cause).set 3 info).set 4 (prev r)).set 6 0)
    let entry := fun (toMon : Bool) (ret : BitVec 48) (cause info : W64) (vec : Nat) =>
      let r := if toMon then c.mon else c.sup
      let k := { c with level := (if toMon then .monitor else .supervisor), pc := BitVec.ofNat 48 ((r[0]).toNat / 256 * 256 + vec) }
      if toMon then { k with mon := regs c.mon (ret.setWidth 64) cause info } else { k with sup := regs c.sup (ret.setWidth 64) cause info }
    (hostReady s h → ∃ word : W32,
      exec (.syscall h) s = .next (s.modHost h (fun _ => entry (decide (c.level ≠ .user)) (c.pc + 4) 8 (word.setWidth 64) 0))) ∧
    (hostReady s h → ∃ word : W32,
      exec (.brk (.host h)) s = .next (s.modHost h (fun _ => entry (decide (c.level = .monitor)) c.pc 7 (word.setWidth 64) 0))) ∧
    (c.hold = .none →
      (mon = false ∧ (c.level = .user ∨ (c.level = .supervisor ∧ (c.sup[6]).getLsbD 0 = true)) ∨ mon = true ∧ (c.mon[6]).getLsbD 0 = true) →
      ∃ (info : W64) (q : List (BitVec 8 × Bool)), exec (.hostInterrupt h num mon) s = .next
        { s.modHost h (fun _ => { entry mon c.pc (BitVec.ofNat 64 (2 ^ 63 + num.toNat)) info 0x100 with waiting := false, irq := q }) with free := s.free + 1 }) ∧
    (mon = false → c.level = .monitor → ∃ t : State, exec (.hostInterrupt h num mon) s = .next t ∧ (num, mon) ∈ (t.hosts[h]).irq ∧
      (t.hosts[h]).pc = c.pc ∧ (t.hosts[h]).level = .monitor ∧ (t.hosts[h]).waiting = false) ∧
    (hostReady s h →
      let r := if c.level = .monitor then c.mon else c.sup
      let lv := (r[4]).toNat % 4
      let k := { c with
        level := (if lv = 0 then .user else if lv = 1 then .supervisor else .monitor), pc := (r[1]).setWidth 48,
        mon := if c.level = .monitor then c.mon.set 6 (if (r[4]).getLsbD 2 then 1 else 0) else c.mon,
        sup := if c.level = .monitor then c.sup else c.sup.set 6 (if (r[4]).getLsbD 2 then 1 else 0) }
      (c.level ≠ .user → lv ≠ 2 → lv ≤ c.level.code → exec (.ret h) s = .next (s.modHost h (fun _ => k))) ∧
      ((c.level = .user ∨ c.level.code < lv ∨ lv = 2) → ∃ word, exec (.ret h) s = .next (s.modHost h (fun k => k.takeExc excPriv word))))

/-- R126: SRD and SWR on every system register: a read gives the register, register 0 being the level; a write stores the bits that the register holds; an access below the
register's level takes PRIVILEGE_FAULT and a number outside the table ILLEGAL_OPERAND. -/
def Obligations.SystemRegisters : Prop :=
  ∀ (h : Fin 8) (d a b : Reg) (s : State), hostReady s h →
    let c := s.hosts[h]
    let n := (s.x (.host h) a).toNat
    let v := s.x (.host h) b
    let put := fun (f : HostCore → HostCore) => (Host.Outcome.next ((s.modHost h f).retire (.host h) 4 .fall) : Out)
    let got := fun (v : W64) => (Host.Outcome.next (s.wrote (.host h) 0 1 false d v) : Out)
    let exc := fun (i : Instr) (x : Exc) => ∃ word, exec i s = .next (s.modHost h (fun k => k.takeExc x word))
    (n = 0 → exec (.srd h d a) s = got (BitVec.ofNat 64 c.level.code) ∧ exc (.swr h a b) excPriv) ∧
    (∀ i : Fin 7, n = 0x10 + i.val →
      (c.level ≠ .user → exec (.srd h d a) s = got (c.sup[i]) ∧ exec (.swr h a b) s = put (fun k => { k with sup := k.sup.set i (v &&& sysMask i) })) ∧
      (c.level = .user → exc (.srd h d a) excPriv ∧ exc (.swr h a b) excPriv)) ∧
    (∀ i : Fin 7, n = 0x20 + i.val →
      (c.level = .monitor → exec (.srd h d a) s = got (c.mon[i]) ∧ exec (.swr h a b) s = put (fun k => { k with mon := k.mon.set i (v &&& sysMask i) })) ∧
      (c.level ≠ .monitor → exc (.srd h d a) excPriv ∧ exc (.swr h a b) excPriv)) ∧
    ((n ≠ 0 ∧ n < 0x10 ∨ 0x17 ≤ n ∧ n < 0x20 ∨ 0x27 ≤ n) → exc (.srd h d a) excOperand ∧ exc (.swr h a b) excOperand)

/-! ### Control -/

/-- R98, R173, R177, R178: NOP and IFENCE only advance; HALT stops a cell engine and makes a host core wait, and is privileged there; JALR, BL and the branches go to
their targets with the link written, and a branch not taken falls through; BCNZ counts down when it branches. -/
def Obligations.ControlFlow : Prop :=
  ∀ (e : Engine) (c : CellId) (n : Fin 4) (d a : Reg) (i : BitVec 16) (s : State), CanIssue s e false [d, a] → CanIssue s e false [a] →
    CanIssue s e false [31] → CanIssue s e false [] →
    let u : Nat := if isSeq e then 16 else 4
    let link : W64 := BitVec.ofNat 64 (s.pc e + u)
    let target := fun (e : Engine) (u : Nat) => ((s.pc e + i.toInt * (u : Int)) % 2 ^ 64).toNat
    let x := s.x e a
    let neg : Bool := if isHost e then x.getLsbD 63 else x.getLsbD 31
    let ret := fun (t : State) (f : Flow) => (Host.Outcome.next (t.retire e (issueBytes e false) f) : Out)
    let br := fun (cond : Bool) => ret s (if cond then .jump (target e u) else .fall)
    exec (.nop e) s = ret s .fall ∧
    exec (.ifence e) s = ret s .fallIdle ∧
    ((isHost e = false ∨ s.level e ≠ .user) → exec (.halt e) s = ret s .stop) ∧
    (isHost e = true → s.level e = .user → ∃ word, exec (.halt e) s = .next (s.raise e 0 (s.pc e) word excPriv)) ∧
    exec (.jalr e d a) s = ret (s.setX e 0 1 d link) (.jump x.toNat) ∧
    exec (.b e i) s = br true ∧
    exec (.beqz e a i) s = br (decide (x = 0)) ∧
    exec (.bnez e a i) s = br (decide (x ≠ 0)) ∧
    exec (.bltz e a i) s = br neg ∧
    exec (.bgez e a i) s = br (!neg) ∧
    exec (.bl e i) s = ret (s.setX e 0 1 31 link) (.jump (target e u)) ∧
    (CanIssue s (.seq c) false [] →
      let k := (s.cell c).seq.c[n]
      exec (.bcnz c n i) s = .next (if k = 0 then s.retire (.seq c) 16 .fall
        else (s.later c 0 1 (.c n) (BitVec.ofNat 40 (k.toNat - 1))).retire (.seq c) 16 (.jump (target (.seq c) 16)))) ∧
    (isHost e = false → s.dbgWrite = false → ∃ word, exec (.brk e) s = .next (s.raise e 0 (s.pc e) word excBreak))

/-- R180: LOOP pushes its counter and its body, or skips the body where the count is 0; at the last instruction of the innermost body the counter goes down and the body begins
again while it is not 0; a zero distance, a counter in use and a fifth loop raise ILLEGAL_OPERAND.
Where the spec leaves a point open, the clause is the model's own choice: log entry 75. -/
def Obligations.HardwareLoops : Prop :=
  ∀ (e : Engine) (x : SlvId) (n : Fin 4) (a : Reg) (i : BitVec 16) (l : Loop) (r : List Loop) (s : State), isHost e = false →
    CanIssue s e false [a] →
    let u : Nat := if isSeq e then 16 else 4
    let ls := (s.loopState e).1
    let cs := (s.loopState e).2
    let cnt : BitVec 24 := (s.x e a).setWidth 24
    (i ≠ 0 → (∀ k ∈ ls, k.n ≠ n) → ls.length < 4 →
      (cnt ≠ 0 → exec (.loop e n a i) s =
        .next ((s.setLoops e (⟨n, BitVec.ofNat 32 (s.pc e + u), BitVec.ofNat 32 (s.pc e + i.toNat * u)⟩ :: ls) (cs.set n cnt)).retire e (issueBytes e false) .fall)) ∧
      (cnt = 0 →
        exec (.loop e n a i) s = .next ((s.setLoops e ls (cs.set n 0)).retire e (issueBytes e false) (.jump (s.pc e + i.toNat * u + u))))) ∧
    ((i = 0 ∨ (∃ k ∈ ls, k.n = n) ∨ 4 ≤ ls.length) → ∃ word, exec (.loop e n a i) s = .next (s.raise e 0 (s.pc e) word excOperand)) ∧
    (CanIssue s (.slv x) false [] → (s.slvAt x).loops = l :: r → l.last.toNat = s.pc (.slv x) →
      ∃ t : State, exec (.loopEnd (.slv x)) s = .next t ∧ t.mem = s.mem ∧
        (let v := (s.slvAt x).c[l.n] - 1
         ((t.slvAt x).c[l.n] = v ∨ r ≠ []) ∧
         (v ≠ 0 → (t.slvAt x).pc.toNat = l.first.toNat ∧ (t.slvAt x).loops = l :: r ∧ (t.slvAt x).c = (s.slvAt x).c.set l.n v) ∧
         (v = 0 → r = [] → (t.slvAt x).pc = BitVec.ofNat 32 (s.pc (.slv x) + 4) ∧ (t.slvAt x).loops = []))) ∧
    (CanIssue s e false [] → s.atLoopEnd e = true → exec (.loopEnd e) s = .next (s.retire e (issueBytes e false) .fall)) ∧
    ((s.loopState e).1 = [] → exec (.loopEnd e) s = .next s)

/-! ### What an issue leaves alone -/

/-- R109, R117: what the advance after an instruction moves, and what it leaves. A host core's moves its program counter (and its wait, for HALT) only. A sliver core's moves its own program counter,
loops, run and debug state, and the counters and the sampler of its cell: its registers, every other core, memory and everything outside the cells stay. A sequencer's also lets results
that are due take effect (R113), in its own cell only.
R109: what giving d a value changes: on a host core and on a sliver core that register and nothing else, at once; on a sequencer nothing until the result is due (R113); and
register 0 reads 0 and takes no value. -/
def Obligations.AdvanceAndDestinationFrames : Prop :=
  (∀ (e : Engine) (n : Nat) (f : Flow) (s : State),
    let t := s.retire e n f
    SameOutside { s with hosts := t.hosts } t ∧
    (∀ h : Fin 8, e = .host h →
      t = s.modHost h (fun c => { c with pc := (t.hosts[h]).pc, waiting := (t.hosts[h]).waiting }) ∧
      (t.hosts[h]).pc = (match f with | .jump k => BitVec.ofNat 48 k | _ => BitVec.ofNat 48 (s.pc e + n)) ∧
      ((t.hosts[h]).waiting = true ↔ f = .stop ∨ (s.hosts[h]).waiting = true)) ∧
    (isHost e = false → t.hosts = s.hosts) ∧
    (∀ x : SlvId, e = .slv x →
      (t.slvAt x).s = (s.slvAt x).s ∧ (t.slvAt x).v = (s.slvAt x).v ∧ (t.slvAt x).p = (s.slvAt x).p ∧ (t.slvAt x).st = (s.slvAt x).st ∧
      (t.slvAt x).bcast = (s.slvAt x).bcast ∧ (t.slvAt x).bq = (s.slvAt x).bq ∧ (t.slvAt x).hold = (s.slvAt x).hold ∧
      (∀ y : SlvId, y ≠ x → t.slvAt y = s.slvAt y) ∧ (∀ c : CellId, (t.cell c).seq = (s.cell c).seq ∧ (t.cell c).tiles = (s.cell c).tiles)) ∧
    (∀ (c c' : CellId), e = .seq c → c' ≠ c → t.cell c' = s.cell c') ∧
    (∀ (c : CellId), e = .seq c → (t.cell c).slv = (s.cell c).slv ∧ (t.cell c).tiles = (s.cell c).tiles ∧ (t.cell c).halves = (s.cell c).halves ∧
      (t.cell c).queues = (s.cell c).queues ∧ (t.cell c).moves = (s.cell c).moves ∧ (t.cell c).cycle = (s.cell c).cycle + f.cycles)) ∧
  (∀ (e : Engine) (slot : Fin 4) (lat : Nat) (d r : Reg) (v : W64) (s : State),
    let t := s.setX e slot lat d v
    SameOutside { s with hosts := t.hosts } t ∧ t.regs = s.regs ∧ t.free = s.free ∧ s.x e 0 = 0 ∧
    (∀ h : Fin 8, e = .host h → (d ≠ 0 → t.x e d = v) ∧ (r ≠ d → t.x e r = s.x e r) ∧ (d = 0 → t = s) ∧ t.cells = s.cells ∧
      (∀ k : Fin 8, k ≠ h → t.hosts[k] = s.hosts[k]) ∧ t.hosts[h] = { s.hosts[h] with h := (t.hosts[h]).h }) ∧
    (∀ x : SlvId, e = .slv x → (d ≠ 0 → t.xw e d = v.setWidth 32) ∧ (r ≠ d → t.x e r = s.x e r) ∧ (d = 0 → t = s) ∧ t.hosts = s.hosts ∧
      (∀ y : SlvId, y ≠ x → t.slvAt y = s.slvAt y) ∧ t.slvAt x = { s.slvAt x with s := (t.slvAt x).s }) ∧
    (∀ c : CellId, e = .seq c → t.hosts = s.hosts ∧ (∀ c', c' ≠ c → t.cell c' = s.cell c') ∧
      ∃ q, t.cell c = { s.cell c with seq := { (s.cell c).seq with pendW := q } } ∧ t.x e r = s.x e r))

/-! ### Array -/

/-- R41, R43, R44, R160, R161: a weight load whose unit is free and whose operands lie in the local store fills its half with the bytes of values, indices and scales as the sequencer reads them (R205), which ends the parity errors of the words it fills (R41), and is held while
a pass reads the half; the end of a load frees the loader.
Where the spec leaves a point open, the clause is the model's own choice: log entry 15. -/
def Obligations.WeightLoad : Prop :=
  ∀ (c : CellId) (d a : Reg) (cls : Fin 4) (h : Fin 2) (sp : Bool) (wfmt : BitVec 4) (s : State), CanIssue s (.seq c) false [d, a] → s.ecc = [] →
    weightOk cls wfmt.toNat = true →
    let aux : Bool := sp || fmtMx wfmt.toNat
    let sz := halfSizes cls sp wfmt.toNat
    let o := (s.xw (.seq c) a).toNat
    let x := (s.xw (.seq c) d).toNat
    let k := s.cell c
    (aux = true ∨ d = 0) →
    ((∀ p ∈ k.passes, p.1 ≠ h) → o % 64 = 0 → (aux = true → x % 64 = 0) → o + sz.1 ≤ 0x600000 → x + sz.2.1 + sz.2.2 ≤ 0x600000 → k.loadFree ≤ k.cycle →
      let own := s.ownBytes (.eng (.seq c))
      let half : Half := ⟨true, none, cls, sp, wfmt, own (lsBase c + o) sz.1, own (lsBase c + x) sz.2.1, own (lsBase c + (x + sz.2.1)) sz.2.2,
        (k.halves[h]).par.filter (fun i => !halfWord sz.1 sz.2.1 sz.2.2 i)⟩
      let full : Cell := { k with halves := k.halves.set h half, loading := some h, loadFree := k.cycle + (sz.1 + sz.2.1 + sz.2.2 + 255) / 256 }
      exec (.wload c d a cls h sp wfmt) s = .next ((s.setCell c full).retire (.seq c) 16 .fall)) ∧
    ((∃ p ∈ k.passes, p.1 = h) → ∃ t : State, exec (.wload c d a cls h sp wfmt) s = .next t ∧ (t.cell c).halves = k.halves ∧ (t.cell c).loading = k.loading ∧
      (t.cell c).seq.pc = k.seq.pc ∧ (t.cell c).cycle = k.cycle + 1) ∧
    (∀ s' : State, s'.clkStopped c.die = false →
      exec (.wloadDone c h) s' = .next (if (s'.cell c).loading = some h then s'.modCell c (fun k => { k with loading := none }) else s'))

/-- R44, R45, R55, R112, R162: a matrix pass on a loaded half: every element of the rows streamed is the result of its pass, the other elements and tiles stay, memory stays, and for
dense INT8 the result is the exact sum of products, saturated; a pass that ends leaves the list; an unloaded half or an illegal pair raises ILLEGAL_OPERAND.
Where the spec leaves a point open, the clause is the model's own choice: log entries 8, 15. -/
def Obligations.MatrixPass : Prop :=
  ∀ (c : CellId) (d a : Reg) (w2 : W32) (s : State), CanIssue s (.seq c) true [d, a] → s.ecc = [] →
    let afmt := bits w2 9 6
    let uns := w2.getLsbD 10
    let add := w2.getLsbD 11
    let h : Fin 2 := Fin.ofNat 2 (bits w2 12 12)
    let ti : Fin 4 := Fin.ofNat 4 (bits w2 14 13)
    let rows := bits w2 5 0 + 1
    let k := s.cell c
    let w := k.halves[h]
    let old := k.tiles[ti]
    let cfg : PassCfg := ⟨afmt, w.wfmt.toNat, uns, decide (s.fld (cellBlk c) 4 2 2 = 1), w.cls, w.sp⟩
    let o := (s.xw (.seq c) a).toNat
    let xs := (s.xw (.seq c) d).toNat
    let D := actDepth cfg.cls cfg.sp
    let own := s.ownBytes (.eng (.seq c))
    let x := fun (r : Nat) => leNat (own (lsBase c + (o + r * bits w2 31 16 * 32)) (D * fmtBits afmt / 8))
    let sc := fun (r : Nat) => if fmtMx afmt then leNat (own (lsBase c + (xs + r * (D / 32))) (D / 32)) else 0
    w2.getLsbD 15 = false → (fmtMx afmt = true ∨ d = 0) →
    (w.loaded = true → pairOk w.cls afmt w.wfmt.toNat = true → (uns = true → fmtInt afmt = true) → k.loading ≠ some h →
      (∀ r, k.draining = some r → r.tile ≠ ti) → k.gridFree ≤ k.cycle → (add = true → old.isInt = fmtInt afmt) → o % 32 = 0 →
      (∀ r, r < rows → o + r * bits w2 31 16 * 32 + D * fmtBits afmt / 8 ≤ 0x600000 ∧ (fmtMx afmt = true → xs + r * (D / 32) + D / 32 ≤ 0x600000)) →
      ∃ t, exec (.mma c d a w2) s = .next (State.retire t (.seq c) 16 .fall) ∧ t.mem = s.mem ∧
        (t.cell c).passes = k.passes ++ [(h, ti)] ∧ (t.cell c).tiles[ti].isInt = fmtInt afmt ∧ (∀ j : Fin 4, j ≠ ti → (t.cell c).tiles[j] = k.tiles[j]) ∧
        (∀ r j, r < rows → j < 64 → (t.cell c).tiles[ti].at (64 * r + j) =
          (passElem cfg add ⟨x r, sc r, (w.col cfg j).1, (w.col cfg j).2.1, (w.col cfg j).2.2⟩ (old.at (64 * r + j))).1) ∧
        (∀ i, 64 * rows ≤ i → (t.cell c).tiles[ti].at i = old.at i) ∧
        (afmt = 0 → w.wfmt = 0 → uns = false → w.sp = false → w.cls = 0 → w.undef = none → w.vals.length = 4096 → ∀ r j, r < rows → j < 64 →
          (t.cell c).tiles[ti].at (64 * r + j) = BitVec.ofInt 32 (max (-2147483648) (min 2147483647
            (((List.range 64).map (fun i => (s.ownByte (.eng (.seq c)) (lsBase c + (o + r * bits w2 31 16 * 32) + i)).toInt * (w.vals.getD (64 * j + i) 0).toInt)).sum +
              (if add then (old.at (64 * r + j)).toInt else 0)))))) ∧
    ((w.loaded = false ∨ pairOk w.cls afmt w.wfmt.toNat = false) → ∃ word, exec (.mma c d a w2) s = .next (s.raise (.seq c) 2 (s.pc (.seq c)) word excOperand)) ∧
    (∀ s' : State, s'.clkStopped c.die = false → exec (.mmaDone c) s' = .next (s'.modCell c (fun k => { k with passes := k.passes.tail })))

/-- R59, R61, R63, R163, R164: a drain of one tile: each of its 64 rows goes to memory as the codes that the row's values, parameters and rounding mode give, bytes outside the destinations
stay, and the tile stays; its end frees the drain unit. With SR the columns' generators advance once a row.
R61, R62, R65: the rounding of a drain: truncation toward zero, and SR by adding the low bits of the column's generator below the last kept bit; a NaN gives 0 in an integer target and sets
DRAIN_NAN, an infinity and a value out of range give the nearest end of an integer target and set DRAIN_SAT.
Where the spec leaves a point open, the clause is the model's own choice: log entries 11, 15. -/
def Obligations.DrainTileAndRounding : Prop :=
  (∀ (c : CellId) (d a : Reg) (w2 : W32) (s : State), CanIssue s (.seq c) true [d, a] → s.ecc = [] → Memory.wf s.mem = true → s.pairOn c = false →
    let tf := bits w2 3 0
    let ti : Fin 4 := Fin.ofNat 4 (bits w2 13 12)
    let par := w2.getLsbD 10 || w2.getLsbD 11 || bits w2 7 6 == 2 || fmtMx tf
    let ctl := s.reg (cellBlk c) 4
    let k := s.cell c
    let o := (s.xw (.seq c) a).toNat
    let po := (s.xw (.seq c) d).toNat
    let stride := bits w2 31 16
    let rb := 8 * fmtBits tf
    let g : DrainCfg :=
      { tf := tf, mode := drainMode (bits w2 5 4) (bits ctl 1 0), ftz := if bits w2 9 8 = 0 then ctl.getLsbD 2 else bits w2 9 8 == 2, bias := w2.getLsbD 10,
        scale := w2.getLsbD 11, act := bits w2 7 6, isInt := k.tiles[ti].isInt, params := if par then leNat (s.ownBytes (.eng (.seq c)) (lsBase c + po) 0x310) else 0 }
    bits w2 15 14 = 0 → (par = true ∨ d = 0) → bits w2 9 8 ≠ 3 → bits w2 7 6 ≠ 3 → tf ≠ 15 → fmtMx tf = false →
    (∀ p ∈ k.passes, p.2 ≠ ti) → k.drainFree ≤ k.cycle → o % 32 = 0 → (par = true → po % 16 = 0 ∧ po + 0x310 ≤ 0x600000) →
    rb ≤ stride * 32 → o + 63 * stride * 32 + rb ≤ 0x600000 →
    (∃ t, exec (.drain c d a w2) s = .next (State.retire t (.seq c) 16 .fall) ∧ (t.cell c).tiles = k.tiles ∧
      (t.cell c).draining = some { tile := ti, dst := o, stride := stride, rowBytes := rb, scales := none } ∧
      (g.mode ≠ 2 → (t.cell c).lfsr = k.lfsr ∧ ∀ r, r < 64 → t.num (lsBase c + o + r * stride * 32) rb =
        packCodes (fmtBits tf) (drainRow g k.lfsr ((List.range 64).map (fun j => k.tiles[ti].at (64 * r + j)))).1 % 2 ^ (8 * rb)) ∧
      (g.mode = 2 → (t.cell c).lfsr = k.lfsr.map (fun v => Nat.repeat lfsrStep 64 v)) ∧
      (∀ b, (∀ r, r < 64 → b < lsBase c + o + r * stride * 32 ∨ lsBase c + o + r * stride * 32 + rb ≤ b) → t.byte b = s.byte b)) ∧
    (∀ s' : State, s'.clkStopped c.die = false → exec (.drainDone c) s' = .next (s'.modCell c (fun k => { k with draining := none })))) ∧
  ((∀ (lf : W32) (m : Nat) (e g : Int), e ≤ g → roundTo 1 lf m e g = m / 2 ^ (g - e).toNat) ∧
  (∀ (lf : W32) (m r : Nat) (e : Int), r ≤ 32 → roundTo 2 lf m e (e + r) = (m + lf.toNat % 2 ^ r) / 2 ^ r) ∧
  (∀ (tf mode : Nat) (ftz : Bool) (lf v : W32), tf = 0 ∨ tf = 1 ∨ tf = 7 ∨ tf = 8 →
    ((f32 v).isNan = true → drainFp tf mode ftz lf v = (0, afDrainNan)) ∧
    (f32 v = .inf false → drainFp tf mode ftz lf v = (2 ^ (fmtBits tf - 1) - 1, afDrainSat)) ∧
    (f32 v = .inf true → drainFp tf mode ftz lf v = (2 ^ (fmtBits tf - 1), afDrainSat))) ∧
  (∀ (b : Nat) (v : Int), 1 ≤ b →
    (satInt b v).1 = (BitVec.ofInt b (max (-2 ^ (b - 1)) (min (2 ^ (b - 1) - 1) v))).toNat ∧
    ((satInt b v).2 = 0 ↔ -2 ^ (b - 1) ≤ v ∧ v ≤ 2 ^ (b - 1) - 1)))

/-- R63, R83, R165: a seed loads every column's generator from the seed and the column's number, 1 standing for 0; ASEED does so from a register once the drain unit is free. -/
def Obligations.RoundingSeed : Prop :=
  ∀ (c : CellId) (a : Reg) (v : W32) (s : State),
    let col := fun (v : W32) (j : Fin 64) => let q := v ^^^ BitVec.ofNat 32 (j.val * 0x9E3779B9); if q = 0 then 1#32 else q
    let seeded := fun (t : State) (c : CellId) (v : W32) => (∀ j : Fin 64, (t.cell c).lfsr[j] = col v j) ∧ t.mem = s.mem ∧ t.hosts = s.hosts
    (∃ t, exec (.srSeedWrite c v) s = .next t ∧ seeded t (s.mainOf c) v ∧ (Canonical s → t.reg (cellBlk (s.mainOf c)) 8 = v)) ∧ State.reset.reg (cellBlk c) 8 = 1#32 ∧
    (CanIssue s (.seq c) false [a] → (s.cell c).drainFree ≤ (s.cell c).cycle →
      ∃ t, exec (.aseed c a) s = .next (State.retire t (.seq c) 16 .fall) ∧ seeded t c (s.xw (.seq c) a) ∧
        (Canonical s → t.reg (cellBlk c) 8 = s.xw (.seq c) a))

/-! ### Fences, status and tokens -/

/-- R133, R172, R173, R207, R217, R709: FENCE and LOFT.INV hold their engine until what they wait for is done, a masked acquire at PKG or SYS scope with the scan that it starts, and FENCE_COMPLETE then frees it,
with every read of the engine performed and, but for an acquire, every store of it; a fence of a host core at PKG or SYS scope waits for the crates of its stores; STAT reads ST and clears it, its result written
at the end of its issue cycle, and a status that completes in the cycle of a STAT is not in what it returns.
Where the spec leaves a point open, the clause is the model's own choice: log entry 22. -/
def Obligations.FencesAndStatus : Prop :=
  ∀ (e : Engine) (a d : Reg) (sc : Scope) (kind : Fin 4) (m : Bool) (n : Nat) (mask : W32) (l : List (Nat × W32)) (dd : Fin 4) (s : State),
    let ret := fun (t : State) => (Host.Outcome.next (t.retire e (issueBytes e false) .fall) : Out)
    (CanIssue s e false [a] → kind.val ≠ 3 →
      (isHost e = false → (m = true ∨ a = 0) → (m = false ∨ sc = .cell ∨ sc = .die ∨ kind.val = 1) → exec (.fence e a sc kind m) s = ret (s.setHold e (.fence sc kind none))) ∧
      (isHost e = false → m = true → (sc = .pkg ∨ sc = .sys) → kind.val ≠ 1 →
        exec (.fence e a sc kind m) s = ret ((s.loftScan (cellOf e).die (s.xw e a)).2.setHold e (.fence sc kind (some (s.loftScan (cellOf e).die (s.xw e a)).1)))) ∧
      (isHost e = true → m = false → a = 0 → (sc = .pkg ∨ sc = .sys) → exec (.fence e a sc kind m) s = ret (s.setHold e (.fence sc kind none))) ∧
      (isHost e = true → (m = true ∨ a = 0) → (m = true ∨ sc = .cell ∨ sc = .die) → ∃ w, exec (.fence e a sc kind m) s = .next (s.raise e 0 (s.pc e) w excOperand)) ∧
      (isHost e = false → exec (.loftInv e a) s =
        ret ((s.loftScan (cellOf e).die (s.xw e a)).2.setHold e (.loftInv (s.loftScan (cellOf e).die (s.xw e a)).1)))) ∧
    (CanIssue s e false [d] → exec (.stat e d) s = ret ((s.clearSt e).setX e 0 1 d ((s.st e).setWidth 64)) ∧ (s.clearSt e).st e = 0) ∧
    (isHost e = false → (s.lateSt e n).st e = s.st e) ∧
    (∀ scan, s.hold e = .fence sc kind scan → s.clocked e → (kind.val = 0 ∨ s.movesDone e sc = true) → (∀ j, scan = some j → s.scanDone (cellOf e).die j = true) →
      exec (.fenceComplete e) s = .next ((if kind.val = 0 then (s.readsDone e).acquire sc else if kind.val = 1 then s.releaseAll e else (s.releaseAll e).acquire sc).setHold e .none)) ∧
    (∀ p ∈ (s.releaseAll e).stores, p.who = .eng e → p.done = true) ∧
    (∀ c : CellId, e = .seq c → ∀ p ∈ ((s.readsDone e).cell c).seq.pendV, p.val = none → p.read = none) ∧
    (∀ scan, s.hold e = .fence sc kind scan → (kind.val ≠ 0 ∧ s.movesDone e sc = false ∨ scan = some n ∧ s.scanDone (cellOf e).die n = false) → exec (.fenceComplete e) s = .next s) ∧
    (s.hold e = .loftInv n → s.clocked e → (∀ p ∈ (s.lofts[(cellOf e).die]).scans, p.1 ≠ n) → exec (.fenceComplete e) s = .next (s.setHold e .none)) ∧
    ((s.lofts[dd]).scans = (n, mask) :: l → s.clkStopped dd = false → ∃ t : State, exec (.loftScanDone dd) s = .next t ∧ (t.lofts[dd]).scans = l ∧
      (∀ k, k ∈ (t.lofts[dd]).lines ↔ k ∈ (s.lofts[dd]).lines ∧ maskCovers mask k.line k.group = false) ∧ t = { s with lofts := t.lofts })

/-- R73 to R76, R175, R176: a put whose release is done arrives at its queue, behind those of earlier cycles and in the order of R75 among those of its own, and waits there; a queue with a free entry accepts
one put in a cycle, at the end; one get in a cycle takes the oldest entry that was there before the puts of the cycle, and a get that finds none waits; with a limit in
force a put waiting at a full queue, or a get waiting at an empty one, times out with status TQ_TIMEOUT, a get giving 0.
Where the spec leaves a point open, the clause is the model's own choice: log entry 21. -/
def Obligations.TokenQueues : Prop :=
  ∀ (e : Engine) (a d : Reg) (sc : Scope) (q : BitVec 15) (i : Fin 512) (v : W32) (p k : Put) (r : List W32) (w : List Put) (s : State),
    let ret := fun (t : State) => (Host.Outcome.next (t.retire e (issueBytes e false) .fall) : Out)
    let x := s.queueAt q
    let now := s.queueNow q
    let got := fun (q : BitVec 15) (r : List W32) => { s.queueAt q with entries := r, lastGet := some (s.queueNow q) }
    let may := fun (q : BitVec 15) (r : List W32) => (s.queueAt q).lastGet ≠ some (s.queueNow q) ∧ ((s.queueAt q).lastPut = some (s.queueNow q) → r ≠ [])
    (CanIssue s e false [a] → exec (.tput e a sc q) s = ret (s.setHold e (.put q sc (s.xw e a)))) ∧
    (s.hold e = .put q sc v → s.clocked e → s.movesDone e sc = true → (∀ c, engCell e = some c → (s.cell c).pairStopped = false) →
      ((s.queueCell q).die.val = (engDie e).val → exec (.fenceComplete e) s = .next (((s.releaseAll e).offer q (.eng e) v).setHold e (.putWait q))) ∧
      ((s.queueCell q).die.val ≠ (engDie e).val →
        exec (.fenceComplete e) s = .next (((s.releaseAll e).setHold e (.putAck s.crateNext)).sendPut (.eng e) (engDie e) sc q v))) ∧
    (s.hold e = .put q sc v → s.clocked e → s.movesDone e sc = true → (∃ c, engCell e = some c ∧ (s.cell c).pairStopped = true) → exec (.fenceComplete e) s = .next (s.releaseAll e)) ∧
    ((∀ k ∈ w, k.at_ ≠ p.at_) → insPut (s.queueCell q) p w = w ++ [p]) ∧
    (k.at_ = p.at_ → p.who.rank (s.queueCell q) < k.who.rank (s.queueCell q) → insPut (s.queueCell q) p (k :: w) = p :: k :: w) ∧
    (CanIssue s e false [d] → isHost e = false → ownQueue (cellOf e) q = true → s.hoQueue (cellOf e).die ≠ some q →
      (x.entries = v :: r → may q r → exec (.tget e d sc q) s = ret (((((s.awaitVar e 0 d).setQueueAt q (got q r)).readsDone e).acquire sc).deliver e d v)) ∧
      ((x.entries = [] ∨ x.lastGet = some now ∨ x.lastPut = some now ∧ x.entries = [v]) →
        exec (.tget e d sc q) s = ret ((s.awaitVar e 0 d).setHold e (.get (Fin.ofNat 512 q.toNat) d sc)))) ∧
    (CanIssue s e false [d] → isHost e = false → ownQueue (cellOf e) q = false → ∃ word, exec (.tget e d sc q) s = .next (s.raise e 0 (s.pc e) word excOperand)) ∧
    (x.waiting = p :: w → s.clkStopped (s.queueCell q).die = false → p.at_ ≤ now → x.lastPut ≠ some now → x.entries.length < 16 →
      exec (.tokenPutAccept q) s = .next ((s.setQueueAt q { x with entries := x.entries ++ [p.val], waiting := w, lastPut := some now }).putEnds p.who false)) ∧
    ((x.entries.length = 16 ∨ x.lastPut = some now ∨ x.waiting = []) → exec (.tokenPutAccept q) s = .next s) ∧
    (isHost e = false → s.clocked e → s.hold e = .get i d sc → (s.queueAt (queueNum (cellOf e) i)).entries = v :: r → may (queueNum (cellOf e) i) r →
      exec (.tokenGetTake e) s =
        .next (((((s.setQueueAt (queueNum (cellOf e) i) (got (queueNum (cellOf e) i) r)).readsDone e).acquire sc).deliver e d v).setHold e .none)) ∧
    (x.waiting = p :: w → s.clkStopped (s.queueCell q).die = false → 16 ≤ x.entries.length → s.fld (cellBlk (s.queueCell q)) 0x1C 15 0 ≠ 0 →
      exec (.tqTimeout (.putAt q)) s =
        .next (((s.setQueueAt q { x with waiting := w }).tqRecord (s.queueCell q) q false).putEnds p.who true)) ∧
    (isHost e = false → s.clocked e → s.hold e = .get i d sc → (s.queueAt (queueNum (cellOf e) i)).entries = [] → s.fld (cellBlk (cellOf e)) 0x1C 15 0 ≠ 0 →
      exec (.tqTimeout (.getBy e)) s =
        .next ((((s.setHold e .none).tqRecord (cellOf e) (queueNum (cellOf e) i) true).setSt e 2).deliver e d 0)) ∧
    ((x.entries.length < 16 ∨ s.fld (cellBlk (s.queueCell q)) 0x1C 15 0 = 0) → exec (.tqTimeout (.putAt q)) s = .next s)

/-! ### Moves and Shelf slots -/

/-- R118, R166 to R170, R209, R249: MOVE with a legal descriptor whose lines lie in local stores and Shelves of its die enters the cell's move unit with all its lines, of any count, stride and Shelf
tracking, and none of its bytes is moved yet; one with virtual addresses goes on with the lines that it translates at once, or raises the exception of the first that fails; a full move unit holds it. MOVE_COMPLETE of a
move with nothing outstanding copies its lines inside the die, byte for byte, leaves every other byte, ends the move and puts its token; one with bytes still on their way, or with requests held at its port, waits.
Where the spec leaves a point open, the clause is the model's own choice: log entries 16, 19. -/
def Obligations.MoveInLocalStore : Prop :=
  ∀ (e : Engine) (d a : Reg) (sc : Scope) (tok loft : Bool) (w2 : W32) (shelf : Option (CellId × List (Fin 128))) (m : Move) (s : State), isHost e = false →
    let c := cellOf e
    let o := (s.xw e a).toNat
    let v := s.ownNum e (lsBase c + o) 32
    let g := descOf v
    let k := s.cell c
    let base := fun (sp x : Nat) => if sp = 2 ∧ isSeq e then ((s.av c d).toNat + x) % 2 ^ 40 else x
    let place := fun (sp b : Nat) (str : Int) (i : Nat) =>
      if sp = 0 then (lsBase c, b + i * str, (0x600000 : Int)) else (shelfBase (shelfOf c.die b).1 (shelfOf c.die b).2.1, (shelfOf c.die b).2.2 + i * str, 2 ^ 18)
    let x : Move :=
      { id := k.moveNext, owner := e, scope := sc, tok := if tok then some (w2.setWidth 15, (w2 >>> 16).setWidth 16) else none, loft := loft, count := g.count,
        cons := BitVec.ofNat 2 g.cons, pieces := [], rest := none, shelf := shelf, arrived := 0, granted := [], requested := 0, filled := [], overlap := false, pages := [],
        lost := false, drains := false }
    (CanIssue s e true [a] → s.ecc = [] → (if tok then w2.getLsbD 15 = false else w2 = 0) → (if isSeq e then d.val < 16 else d = 0) → k.moves.length < 32 → (∀ j ∈ k.moves, j.id ≠ k.moveNext) →
      o % 32 = 0 → o + 32 ≤ 0x600000 → s.descCheck c.die v = some shelf →
      (g.srcSp ≠ 2 → g.dstSp ≠ 2 →
        (∀ (i : Nat), i < g.count → ∀ p ∈ [place g.srcSp g.src g.sstr i, place g.dstSp g.dst g.dstr i], 0 ≤ p.2.1 ∧ p.2.1 + g.len ≤ p.2.2) →
        let pieces := (List.range g.count).map (fun i =>
          (⟨i, (place g.srcSp g.src g.sstr i).1 + (place g.srcSp g.src g.sstr i).2.1.toNat, (place g.dstSp g.dst g.dstr i).1 + (place g.dstSp g.dst g.dstr i).2.1.toNat, g.len, 0⟩ : Piece))
        ∃ t : State, exec (.move e d a sc tok loft w2) s = .next (t.retire e (issueBytes e true) .fall) ∧ t.mem = s.mem ∧ t.hosts = s.hosts ∧
          (t.cell c).moves = k.moves ++ [{ x with pieces := pieces, overlap := piecesOverlap pieces }]) ∧
      ((g.srcSp = 2 ∨ g.dstSp = 2) → ∃ (now : Nat) (u : State),
        let word := wordOf (.move e d a sc tok loft w2)
        let rest : MoveRest := ⟨⟨g.srcSp, base g.srcSp g.src, g.sstr⟩, ⟨g.dstSp, base g.dstSp g.dst, g.dstr⟩, g.len, 0, g.count, s.pc e, word⟩
        (u.cell c).moves = k.moves ++ [{ x with rest := some rest }] ∧ now ≤ g.count ∧
        exec (.move e d a sc tok loft w2) s = .next (match u.moveLines c k.moveNext now with
          | (none, t) => t.retire e (issueBytes e true) .fall
          | (some x, t) => (t.noteIssue e).raise e 0 (s.pc e) word x))) ∧
    (CanIssue s e true [a] → (if tok then w2.getLsbD 15 = false else w2 = 0) → (if isSeq e then d.val < 16 else d = 0) → 32 ≤ k.moves.length →
      ∃ t : State, exec (.move e d a sc tok loft w2) s = .next t ∧ (t.cell c).moves = k.moves ∧ t.pc e = s.pc e ∧ t.mem = s.mem) ∧
    (s.moveAt c m.id = some m → s.clkStopped c.die = false → m.rest = none → s.memCut c.die = 0 →
      (s.moveBusy c m.id 0 0 = false → s.portOwes (Fin.ofNat 5 c.die) c.idx = false → (m.shelf.isSome = true → ∀ i, i < m.count → i ∈ m.filled) →
        let t := if m.shelf.isSome then s else s.copyPieces c m.overlap m.pieces
        let u := (t.perfDue c (fun p => { p with moves := p.moves + (m.pieces.foldl (fun a p => a + p.n) 0 + 63) / 64 })).modCell c (fun k =>
          { k with moves := k.moves.filter (fun j => j.id ≠ m.id) })
        (m.tok = none ∨ m.lost = true ∨ k.pairStopped = true → exec (.moveComplete c m.id) s = .next u) ∧
        (∀ q v, m.tok = some (q, v) → m.lost = false → k.pairStopped = false → exec (.moveComplete c m.id) s =
          .next ((u.charge (Fin.ofNat 5 c.die) c.idx 4).putToken (.mv m.owner) (.moveTok m.owner) (Fin.ofNat 7 c.die) m.scope q (v.setWidth 32))) ∧
        (m.overlap = false → piecesOverlap m.pieces = false → dstOverlap m.pieces = false → s.ecc = [] → Memory.wf s.mem = true → (∀ y : CellId, s.pairOn y = false) →
          (∀ p ∈ m.pieces, localPiece c p = true ∧ (dieOf p.dst).val = c.die.val) →
          (m.shelf = none → ∀ p ∈ m.pieces, ∀ i, i < p.n → u.byte (p.dst + i) = s.byte (p.src + i)) ∧
          (∀ b, (m.shelf.isSome = true ∨ ∀ p ∈ m.pieces, b < p.dst ∨ p.dst + p.n ≤ b) → u.byte b = s.byte b) ∧
          u.moveAt c m.id = none ∧ u.hosts = s.hosts)) ∧
      (s.moveBusy c m.id 0 0 = true ∨ s.portOwes (Fin.ofNat 5 c.die) c.idx = true ∨ m.shelf.isSome = true ∧ (∃ i, i < m.count ∧ i ∉ m.filled) →
        exec (.moveComplete c m.id) s = .next s)) ∧
    (s.moveAt c m.id = none → exec (.moveComplete c m.id) s = .next s)

/-- R250 to R257, R708: the slots of a Shelf: a claim takes a FREE slot or waits at it in order; a line whose bytes are all performed, any such line of a move, makes its slot READY; SWAIT returns when its slot is READY with the fills it expects; each
release counts a consumer down and the last frees the slot, and a release of a slot that is not READY is a Shelf fault; waits time out where a limit is in force; SSTAT reads the slot.
Where the spec leaves a point open, the clause is the model's own choice: log entry 20. -/
def Obligations.ShelfSlots : Prop :=
  ∀ (e : Engine) (c : CellId) (d a : Reg) (n : Fin 128) (f : BitVec 4) (id : Nat) (k : Claim) (r : List Claim) (m : Move) (p : Piece) (sl : List (Fin 128)) (s : State),
    let sel := (s.xw e a).toNat
    let ret := fun (t : State) => (Host.Outcome.next (t.retire e (issueBytes e false) .fall) : Out)
    let x := s.slot (cellOf e) n
    let y := s.slot c n
    let now := (s.cell c).cycle
    let inside := fun (c : CellId) (m : Move) => ∀ p ∈ m.pieces, localPiece c p = true ∧ (dieOf p.dst).val = c.die.val
    (isHost e = false → CanIssue s e false [d, a] → sel = f.toNat * 256 + n.val → n.val % 64 < s.shelfSlots (cellOf e) (n.val / 64) →
      exec (.swait e d a) s = ret ((s.awaitVar e 1 d).setHold e (.swait n f d)) ∧
      (f = 0 → exec (.sstat e d a) s = ret (s.setVar e 1 d (BitVec.ofNat 32 (x.fills.toNat * 256 + x.st.code * 16 + x.count.toNat))))) ∧
    (isHost e = false → CanIssue s e false [a] → sel = n.val → n.val % 64 < s.shelfSlots (cellOf e) (n.val / 64) →
      exec (.srel e a) s = ret (s.setHold e (.srel n))) ∧
    (s.hold e = .swait n f d → s.clocked e → x.st = .ready → x.fills = f → exec (.fenceComplete e) s = .next (((s.readsDone e).setHold e .none).deliver e d (status 0 n.val))) ∧
    (s.hold e = .swait n f d → (x.st ≠ .ready ∨ x.fills ≠ f) → exec (.fenceComplete e) s = .next s) ∧
    (s.hold e = .srel n → s.clocked e → s.movesDone e .cell = true → s.releaseTurn e n = true → x.st = .ready →
      let now := some (s.cell (cellOf e)).cycle
      exec (.fenceComplete e) s = .next (((s.releaseAll e).setHold e .none).setSlot (cellOf e) n
        { x with count := x.count - 1, relAt := now, st := if x.count = 1 then .free else .ready, freeAt := if x.count = 1 then now else x.freeAt })) ∧
    (s.hold e = .srel n → s.releaseTurn e n = false → exec (.fenceComplete e) s = .next s) ∧
    (s.hold e = .srel n → s.clocked e → s.movesDone e .cell = true → s.releaseTurn e n = true → x.st ≠ .ready → exec (.fenceComplete e) s = .next (((s.releaseAll e).setHold e .none).shelfFault (cellOf e) 1 n)) ∧
    (s.hold e = .swait n f d → (x.st ≠ .ready ∨ x.fills ≠ f) → s.clocked e → s.fld (cellBlk (cellOf e)) 0x1C 15 0 ≠ 0 →
      exec (.swaitTimeout e) s = .next ((((s.setHold e .none).shelfFault (cellOf e) 2 n).setSt e 16).deliver e d (status 0x10 n.val))) ∧
    (s.hold e = .swait n f d → x.st = .ready → x.fills = f → exec (.swaitTimeout e) s = .next s) ∧
    (s.moveAt c id = some m → s.clkStopped c.die = false → m.shelf = some (c, sl) → sl[m.arrived]? = some n → (y.st ≠ .free ∨ y.waiting ≠ [] ∨ y.freeAt = some now) →
      ∃ t : State, exec (.claimArrival c id) s = .next t ∧ (t.slot c n).st = y.st ∧
        (t.slot c n).waiting = insClaim c ⟨c, id, m.arrived, if y.takenAt = some now then now + 1 else now⟩ y.waiting) ∧
    ((∀ q ∈ r, q.at_ ≠ k.at_) → insClaim c k r = r ++ [k]) ∧
    (s.moveAt c id = some m → s.clkStopped c.die = false → m.shelf = some (c, sl) → sl[m.arrived]? = some n → y.st = .free → y.waiting = [] → y.freeAt ≠ some now → m.rest = none → inside c m →
      ∃ t : State, exec (.claimArrival c id) s = .next t ∧ (t.slot c n).st = .filling ∧ t.mem = s.mem) ∧
    (y.waiting = k :: r → s.clkStopped c.die = false → y.st = .free → y.freeAt ≠ some now → k.at_ ≤ now → (∀ m, s.moveAt k.cell k.id = some m → m.rest = none ∧ inside k.cell m) →
      ∃ t : State, exec (.claimGrant c n) s = .next t ∧ (t.slot c n).st = .filling ∧ (t.slot c n).waiting = r) ∧
    (s.moveAt c id = some m → s.clkStopped c.die = false → m.shelf = some (c, sl) → s.memCut c.die = 0 → s.fillable c m ≠ [] → (∀ i ∈ s.fillable c m, i < sl.length) →
      ∃ (i : Nat) (n : Fin 128) (t : State), i ∈ s.fillable c m ∧ sl[i]? = some n ∧ exec (.lineFillComplete c id) s = .next t ∧
        (t.slot c n).st = .ready ∧ (t.slot c n).count = m.cons ∧ (t.slot c n).fills = (s.slot c n).fills + 1 ∧
        (t.moveAt c id).map Move.filled = some (i :: m.filled) ∧
        (m.line i = [p] → m.overlap = false → inside c m → s.ecc = [] → Memory.wf s.mem = true → s.pairOn c = false →
          lsBase c ≤ p.src → p.src + p.n ≤ lsBase c + 0x600000 → shelfBase c 0 ≤ p.dst → p.dst + p.n ≤ shelfBase c 2 →
          (∀ i, i < p.n → t.byte (p.dst + i) = s.byte (p.src + i)) ∧ (∀ b, (b < p.dst ∨ p.dst + p.n ≤ b) → t.byte b = s.byte b))) ∧
    (s.moveAt c id = some m → m.shelf = some (c, sl) → s.memCut c.die = 0 → s.fillable c m = [] → exec (.lineFillComplete c id) s = .next s) ∧
    (s.moveAt c id = some m → s.clkStopped c.die = false → m.shelf = some (c, sl) → sl = [n] → m.arrived = 1 → m.granted = [] → m.requested = 0 → m.filled = [] → s.fld (cellBlk c) 0x1C 15 0 ≠ 0 →
      ∃ t : State, exec (.claimTimeout c id) s = .next t ∧ t.moveAt c id = none ∧ t.mem = s.mem ∧
        (t.slot c n).waiting = y.waiting.filter (fun k => !(k.cell == c && k.id == m.id)))

/-! ### Bundles and registers -/

/-- R102 to R105: a bundle that holds one instruction outside the broadcast class, in a slot that it may take, and NOPs does what that instruction does alone, held, faulting or taking effect. An
extended instruction also takes the second word of its pair of slots.
R107, R118: a word of the broadcast class in slot V, with NOPs beside it, goes on its way to the cores once every receiving core's queue has room for it; an operand check of it that fails
raises its exception at decode.
Where the spec leaves a point open, the clause is the model's own choice: log entry 98. -/
def Obligations.BundleIssue : Prop :=
  (∀ (c : CellId) (k : Fin 4) (i : Instr) (op : Op) (w : Fin 4 → W32) (s : State),
    (∀ j : Fin 4, BitVec.ofNat 32 (s.num (cellBase c.num + 0x800000 + s.pc (.seq c) + 4 * j.val) 4) = w j) →
    opOf i = some op → isVec i = false → i ≠ .nop (.seq c) →
    ((wMaj (w k) ≠ 0x3F ∧ op.ext = false ∧ op.slot = k ∧ (∀ w2, decodeWord (.seq c) (w k) w2 = .ok i) ∧ ∀ j, j ≠ k → w j = nopWord) ∨
      (wMaj (w k) = 0x3F ∧ op.ext = true ∧ k.val % 2 = 0 ∧ op.slot.val / 2 = k.val / 2 ∧ op.slot ≠ 1 ∧ op.legal = true ∧ decodeWord (.seq c) (w k) (w (k + 1)) = .ok i ∧
        ∀ j : Fin 4, j.val / 2 ≠ k.val / 2 → w j = nopWord)) →
    exec (.bundleIssue c 0) s = .next (runOp (.seq c) (w k) op s)) ∧
  (∀ (c : CellId) (i : Instr) (op : Op) (w : W32) (s : State), CanIssue s (.seq c) false [] →
    let pa := cellBase c.num + 0x800000 + s.pc (.seq c)
    BitVec.ofNat 32 (s.num pa 4) = nopWord → BitVec.ofNat 32 (s.num (pa + 4) 4) = nopWord → BitVec.ofNat 32 (s.num (pa + 8) 4) = w →
    BitVec.ofNat 32 (s.num (pa + 12) 4) = nopWord → wMaj w ≠ 0x3F → (∀ w2, decodeWord (.seq c) w w2 = .ok i) → isVec i = true → i ≠ .nop (.seq c) → opOfVec i = some op → op.legal = true →
    (op.check s = some excOperand → exec (.bundleIssue c 0) s = .next (s.raise (.seq c) 2 (s.pc (.seq c)) w excOperand)) ∧
    (op.check s = none → (s.cell c).bcastRoom = true →
      exec (.bundleIssue c 0) s = .next ((s.modCell c (fun k => { k with bcastOut := k.bcastOut ++ [w] })).retire (.seq c) 16 .fall)) ∧
    (op.check s = none → (s.cell c).bcastRoom = false → ∃ t : State, exec (.bundleIssue c 0) s = .next t ∧ (t.cell c).bcastOut = (s.cell c).bcastOut ∧ t.pc (.seq c) = s.pc (.seq c) ∧
      (t.cell c).cycle = (s.cell c).cycle + 1))

/-- R8, R10, R13, R20, R587: a software write: RW bits take the value written, a 1 clears a W1C bit and sets a W1S bit, and every other bit stays; nothing else of the machine changes, but that an access ends a slice of a unit under test (R544). User code
reaches no register; a write that is misaligned or not allowed is not performed, nor one without a path: none while PWROK is low, none of an island held in reset, and none of an island past a link that is down (R20, R587, R589).
Where the spec leaves a point open, the clause is the model's own choice: log entry 78. -/
def Obligations.RegisterWrites : Prop :=
  ∀ (who : Agent) (pa : BitVec 40) (v : W32) (b : Blk) (o : Nat) (r : RegRow) (s : State), placeOf pa.toNat = .reg b o → Canonical s →
    (∀ w, mayReach .user w b = false) ∧
    (pa.toNat % 4 ≠ 0 ∨ mayReach who true b = false ∨ s.mayPass who b = false → exec (.registerWrite who pa v) s = .next s) ∧
    (pa.toNat % 4 = 0 → mayReach who true b = true → s.mayPass who b = true → b.row o = some r →
      ((∃ d, b = .loft d) ∨ (∃ d, b = .path d) ∨ (∃ i, b = .can i) ∨ (∃ m : Fin 6, b = .mac m ∧ (o = 0 → bits v 3 1 ≤ if m.val < 4 then 3 else 1)) ∨ b = .spi ∨ b = .usb ∨ b = .therm ∨
        b = .hlth ∧ o ≠ 0x320) →
      ∃ t : State, exec (.registerWrite who pa v) s = .next t ∧ t = { s.reachAt pa.toNat with regs := t.regs } ∧ (∀ x, x ≠ b.at o → t.rd x = s.rd x) ∧
        (∀ i, i < 32 → (t.reg b o).getLsbD i = ((r.rw.getLsbD i && v.getLsbD i) || (r.w1c.getLsbD i && (s.reg b o).getLsbD i && !v.getLsbD i) ||
          (r.w1s.getLsbD i && ((s.reg b o).getLsbD i || v.getLsbD i)) ||
          (!r.rw.getLsbD i && !r.w1c.getLsbD i && !r.w1s.getLsbD i && (s.reg b o).getLsbD i))))

/-- R13, R84, R134, R171: CRD and CWR reach the registers of their own cell at Supervisor or above; at User they raise the privilege exception, and an offset outside the two blocks or misaligned
raises ACCESS_FAULT. A checker's registers are those of its main (R533).
Where the spec leaves a point open, the clause is the model's own choice: log entries 13, 78. -/
def Obligations.CellRegisterAccess : Prop :=
  ∀ (e : Engine) (d a b : Reg) (s : State), isHost e = false →
    let v := s.xw e a
    let m := cellBlk (s.mainOf (cellOf e))
    let ret := fun (t : State) => (Host.Outcome.next (t.retire e (issueBytes e false) .fall) : Out)
    (CanIssue s e false [d, a] →
      (s.level e = .user → ∃ w, exec (.crd e d a) s = .next (s.raise e 1 (s.pc e) w excPriv)) ∧
      (s.level e ≠ .user → (v = 4 ∨ v = 8 ∨ v = 0xC ∨ v = 0x10 ∨ v = 0x18 ∨ v = 0x1C ∨ v = 0x20 ∨ v = 0x100 ∨ v = 0x104 ∨ v = 0x108) →
        exec (.crd e d a) s = ret (s.setVar e 1 d (s.reg m v.toNat))) ∧
      (s.level e ≠ .user → (v.toNat % 4 ≠ 0 ∨ 0x20000 ≤ v.toNat) → ∃ w, exec (.crd e d a) s = .next ((s.noteIssue e).raise e 1 (s.pc e) w (excAccess v.toNat)))) ∧
    (CanIssue s e false [a, b] →
      (s.level e = .user → ∃ w, exec (.cwr e a b) s = .next (s.raise e 1 (s.pc e) w excPriv)) ∧
      (s.level e ≠ .user → v = 0xC → exec (.cwr e a b) s = ret (s.setReg m 0xC (s.reg m 0xC &&& ~~~(s.xw e b &&& 0x7F#32)))) ∧
      (s.level e ≠ .user → v = 0x1C → exec (.cwr e a b) s = ret (s.setReg m 0x1C ((s.reg m 0x1C &&& 0xFFFF0000#32) ||| (s.xw e b &&& 0xFFFF#32)))) ∧
      (s.level e ≠ .user → (v.toNat % 4 ≠ 0 ∨ 0x20000 ≤ v.toNat) → ∃ w, exec (.cwr e a b) s = .next ((s.noteIssue e).raise e 1 (s.pc e) w (excAccess v.toNat))))

/-! ### Events of a cell -/

/-- R40, R105, R113, R115, R129, R134, R203, R263, R534: a variable-latency result enters its register at the end of a cycle, one whose read is still to be made reads first; the oldest exception of a cell is recorded where VALID is 0, sets MULTI otherwise, and is reported either way; a
corrected word is written back; a pair mismatch stops the main and is recorded; a Shelf is configured only while no job runs and in range; a scrub leaves memory as it is.
Where the spec leaves a point open, the clause is the model's own choice: log entries 13, 63, 76. -/
def Obligations.CellEvents : Prop :=
  ∀ (c : CellId) (d : Fin 4) (k : Fin 8) (sh : Fin 2) (n word o pc : Nat) (v x : W32) (r : List ExcRec) (q : ExcRec) (engine : BitVec 7) (point : BitVec 4) (w : Fin 5) (s : State),
    Canonical s →
    let b := cellBlk c
    let main : CellId := ⟨d, Fin.ofNat 16 (2 * k.val)⟩
    (∀ p, s.clkStopped c.die = false → ((s.cell c).seq.pendV)[n]? = some p →
      (p.val = some v → p.wr = false →
        ∃ t : State, exec (.variableResultWrite c n) s = .next t ∧ t.mem = s.mem ∧ t.regs = s.regs ∧ (∀ y, t.xw (.seq c) y = s.xw (.seq c) y) ∧
          (t.cell c).seq.pendV = setNth n { p with wr := true } (s.cell c).seq.pendV ∧ (∀ k ∈ ((t.tick c 1).cell c).seq.pendV, k.wr = false) ∧
          (p.reg ≠ 0 → (∀ w ∈ (s.cell c).seq.pendW, w.reg ≠ .s p.reg) → (t.tick c 1).xw (.seq c) p.reg = v)) ∧
      (p.val = none → p.read = some (o, pc, x) → o % 4 = 0 → o + 4 ≤ 0x600000 → s.ecc = [] →
        exec (.variableResultWrite c n) s = .next (s.modSeq c (fun q => { q with
          pendV := setNth n { p with val := some (BitVec.ofNat 32 (s.ownNum (.seq c) (lsBase c + o) 4)), read := none } q.pendV }))) ∧
      (p.val = none → p.read = none → exec (.variableResultWrite c n) s = .next s)) ∧
    ((s.cell c).excQ = q :: r → s.clkStopped c.die = false → ∃ t : State, exec (.cellExceptionReport c) s = .next t ∧ (t.cell c).excQ = r ∧ t.jobFaults = s.jobFaults ++ [(c.die, c.idx, q.cause)] ∧
      t.inbox = s.inbox.map (fun l => l ++ [.cellExc c]) ∧
      (s.fld b 0x100 31 31 = 1 → t.reg b 0x100 = s.reg b 0x100 ||| 0x40000000#32 ∧ ∀ o, o ≠ 0x100 → o < 0x10000 → t.reg b o = s.reg b o) ∧
      (s.fld b 0x100 31 31 = 0 → t.fld b 0x100 31 31 = 1 ∧ t.fld b 0x100 30 30 = s.fld b 0x100 30 30 ∧ t.fld b 0x100 22 16 = q.engine.toNat ∧ t.fld b 0x100 11 10 = q.slot.toNat ∧
        t.fld b 0x100 9 8 = q.level.code ∧ t.fld b 0x100 7 0 = q.cause.toNat ∧ t.reg b 0x104 = q.pc.setWidth 32 ∧ t.reg b 0x108 = q.word)) ∧
    (word < 0xC0000 → s.clkStopped c.die = false → s.eccAt (lsBase c + 8 * word) = .corrected → exec (.lsWriteback c word) s = .next (s.setEcc (lsBase c + 8 * word) .clean)) ∧
    (s.pairOn main = true → s.clkStopped d = false → ∃ t : State, exec (.pairMismatch d k engine point) s = .next t ∧ t.fld (cellBlk main) 0x504 31 31 = 1 ∧
      t.fld (cellBlk main) 0x504 22 16 = engine.toNat ∧ t.fld (cellBlk main) 0x504 3 0 = point.toNat ∧ (t.cell main).pairStopped = true ∧
      (∀ e, engCell e = some main → t.able e = false) ∧ (t.cell main).excQ = (s.cell main).excQ ∧ t.inbox = s.inbox.map (fun l => l ++ [.pairMismatch d])) ∧
    (let m := cellBlk (s.mainOf c)
     let slots := bits x 6 0
     let units := bits x 26 16
     let ok := slots ≤ 64 ∧ (slots ≠ 0 → 1 ≤ units ∧ units ≤ 1024) ∧ slots * units ≤ 1024
     (s.jobRuns = false → ok → exec (.shelfCfgWrite c sh x) s = .next (s.setReg m (0x200 + 4 * sh) ((s.reg m (0x200 + 4 * sh) &&& 0xF800FF80#32) ||| (x &&& 0x07FF007F#32)))) ∧
     ((s.jobRuns = true ∨ ¬ ok) → exec (.shelfCfgWrite c sh x) s = .next (s.orReg m 0x208 8#32))) ∧
    (∃ t : State, exec (.dramScrub w) s = .next t ∧ t.mem = s.mem ∧ t.hosts = s.hosts ∧ t.cells = s.cells ∧ (sparseWf (fun _ => Ecc.clean) none s.ecc = true → s.clocked5 w → s.portHeld w (if w.val < 4 then 21 else 13) = false → ∀ g, dramWin g = some w → s.eccAt g = .single → s.home g = g → t.eccAt g = .clean))

/-- R198, R217, R218, R228: GO removes the entries that KIND and the address name and runs until it is done, a second GO while it runs sets OVERRUN only; it is done once what it drains is done. A fill of a Loft
whose data are back leaves the fills and enters the Loft unless a scan covered it, its data are marked or no longer those of memory (R216), or the Loft is off.
Where the spec leaves a point open, the clause is the model's own choice: log entry 17. -/
def Obligations.InvalidationsAndFills : Prop :=
  ∀ (m : Fin 5) (d : Fin 4) (v : W32) (n num : Nat) (drain : Bool) (f : LoftFill) (data : List Byte) (mark : Bool) (s : State), Canonical s →
    let b := Blk.mmu m
    let kind := v.toNat % 8
    let va := (s.reg b 0xC).toNat + s.fld b 0x10 15 0 * 2 ^ 32
    (v.getLsbD 4 = true → (s.tlbs[m]).inv = some (drain, num) → exec (.mmuTlbInvGo m v) s = .next (s.orReg b 0x14 0x40000000#32)) ∧
    (v.getLsbD 4 = true → (s.tlbs[m]).inv = none → ∃ t : State, exec (.mmuTlbInvGo m v) s = .next t ∧
      (t.tlbs[m]).inv = some (v.getLsbD 3, s.crateNext) ∧ (t.tlbs[m]).entries = (s.tlbs[m]).entries.filter (tlbKeep kind va) ∧ (∀ k : Fin 5, k ≠ m → t.tlbs[k] = s.tlbs[k]) ∧ t.mem = s.mem) ∧
    (v.getLsbD 4 = false → ∃ t : State, exec (.mmuTlbInvGo m v) s = .next t ∧ t.tlbs = s.tlbs ∧ t.fld b 0x14 3 0 = v.toNat % 16 ∧ t = { s with regs := t.regs }) ∧
    ((s.tlbs[m]).inv = some (drain, num) → s.clocked5 m → (drain = false ∨ s.draining m = false) →
      exec (.tlbInvDone m) s = .next { s with tlbs := s.tlbs.set m { s.tlbs[m] with inv := none } }) ∧
    ((s.tlbs[m]).inv = some (true, num) → s.draining m = true → exec (.tlbInvDone m) s = .next s) ∧
    (((s.lofts[d]).fills.filter (fun f => f.data.isSome))[n]? = some f → f.data = some (data, mark) → s.clkStopped d = false → s.moveWants f.cell f.move f.dst = false →
      ∃ t : State, exec (.loftFillReturn d n) s = .next t ∧ (t.lofts[d]).fills = (s.lofts[d]).fills.filter (fun k => k.num ≠ f.num) ∧
        t = { s with lofts := t.lofts, free := s.free + 1 } ∧
        (f.dead = false → mark = false → s.fillCurrent d f.line data = true → (s.reg (.loft d) 0).getLsbD 0 = true → ⟨f.line, f.group, data, []⟩ ∈ (t.lofts[d]).lines ∧
          ∀ k ∈ (s.lofts[d]).lines, k.line ≠ f.line →
            (loftSet k.line ≠ loftSet f.line ∨ ((s.lofts[d]).lines.filter (fun x => loftSet x.line == loftSet f.line)).length < 16) → k ∈ (t.lofts[d]).lines) ∧
        (f.dead = true ∨ mark = true ∨ s.fillCurrent d f.line data = false ∨ (s.reg (.loft d) 0).getLsbD 0 = false → (t.lofts[d]).lines = (s.lofts[d]).lines))

/-! ### Attention -/

/-- R269, R276 to R278, R290, R303, R304: ATT.KV with a legal descriptor whose pages translate enters the Larder engine; its completion moves its rows and delivers status 0, or, where pages were dropped, delivers status 3 with
the range word and moves nothing. ATT.SYNC holds the sequencer while an ATT.KV is outstanding, in its register form until those of its GO are complete.
Where the spec leaves a point open, the clause is the model's own choice: log entries 12, 18, 77. -/
def Obligations.LarderOperations : Prop :=
  ∀ (c : CellId) (d a : Reg) (k q : KvOp) (r : List KvOp) (n : Nat) (w : W32) (p : Page) (s : State),
    let e : Engine := .seq c
    let o := (s.xw e a).toNat
    let go := fun (t : State) => (Host.Outcome.next (t.retire e 16 .fall) : Out)
    let walk := kvPages c ⟨c.die, by omega⟩ ((s.cell c).level == .user) (if k.store then .write else .read) ((k.va + k.count * k.rb - 1) / 65536 + 1 - k.va / 65536)
      (k.va / 65536 * 65536) ([], none, 0, 0) s
    (CanIssue s e false [d, d + 1, a] → s.ecc = [] → d.val ≠ 31 → o % 32 = 0 → o + 32 ≤ 0x600000 → (s.cell c).kv.length < 4 → s.portHeld (Fin.ofNat 5 c.die) 17 = false → kvOf (s.ownNum e (lsBase c + o) 32) d = some k →
      (∀ cause lvl va, walk.1.2.1 = some (cause, lvl, va) →
        ∃ word, exec (.attKv c d a) s = .next (((walk.2.mmuFault ⟨c.die, by omega⟩ c.idx 0x42 cause lvl va).noteIssue e).raise e 3 (s.pc e) word (excTrans va))) ∧
      (walk.1.2.1 = none → (∀ p ∈ walk.1.1, isMem p.pa = true) →
      let held := walk.2.modCell c (fun x => { x with kv := x.kv ++ [{ k with pages := walk.1.1, dropped := if walk.1.2.2.1 = 0 then none else some (walk.1.2.2.1, walk.1.2.2.2) }] })
      let charged := if walk.1.2.2.1 = 0 then Nat.repeat (fun t => t.charge ⟨c.die, by omega⟩ c.idx k.rb) k.count held else held
      exec (.attKv c d a) s = go ((charged.awaitVar e 3 d).awaitVar e 3 (d + 1)))) ∧
    (CanIssue s e false [d, d + 1, a] → s.ecc = [] → d.val ≠ 31 → o % 32 = 0 → o + 32 ≤ 0x600000 → (s.cell c).kv.length < 4 → s.portHeld (Fin.ofNat 5 c.die) 17 = false → kvOf (s.ownNum e (lsBase c + o) 32) d = none →
      ∃ word, exec (.attKv c d a) s = .next ((s.noteIssue e).raise e 3 (s.pc e) word excOperand)) ∧
    ((s.cell c).kv = q :: r → s.clkStopped c.die = false → s.portOwes (Fin.ofNat 5 c.die) c.idx = false → q.dropped = some (n, w) → ∃ t : State, exec (.attKvComplete c) s = .next ((t.deliver e q.d (status 3 n)).deliver e (q.d + 1) w) ∧ (t.cell c).kv = r ∧ t.mem = s.mem ∧
      (Canonical s → t.reg (.att c.num) 0x00C = w ∧ t.reg (.att c.num) 0x010 = q.seqn.setWidth 32 ∧ (t.reg (.att c.num) 0).getLsbD 2 = true)) ∧
    ((s.cell c).kv = q :: r → s.clkStopped c.die = false → s.portOwes (Fin.ofNat 5 c.die) c.idx = false → s.memCut c.die = 0 → q.dropped = none → q.count = 1 → q.store = false → q.transpose = false → pageLookup q.pages q.va = some p → s.ecc = [] → Memory.wf s.mem = true → s.pairOn c = false →
      q.ls + q.rb ≤ 0x600000 → p.phys q.va + q.rb ≤ 0xF000000000 →
      ∃ t : State, exec (.attKvComplete c) s = .next ((t.deliver e q.d (status 0 0)).deliver e (q.d + 1) 0) ∧ (t.cell c).kv = r ∧
        (∀ i, i < q.rb → t.byte (lsBase c + q.ls + i) = s.byte (p.phys q.va + i)) ∧ (∀ b, (b < lsBase c + q.ls ∨ lsBase c + q.ls + q.rb ≤ b) → t.byte b = s.byte b)) ∧
    (CanIssue s e false [] → exec (.attSync c) s = go (if (s.cell c).kv.isEmpty then s else s.setHold e .attSync)) ∧
    ((s.cell c).syncCover = none → s.clkStopped c.die = false → exec (.attSyncGo c) s = .next (s.modCell c (fun x => { x with syncCover := some x.kv.length }))) ∧
    ((s.cell c).syncCover = some n → s.clkStopped c.die = false → exec (.attSyncGo c) s = .next (s.orReg (.att c.num) 0x014 0x40000000#32)) ∧
    (s.clkStopped c.die = false →
      let u := if (s.cell c).seq.hold = .attSync ∧ (s.cell c).kv = [] then s.setHold e .none else s
      exec (.attSyncReturn c) s = .next (if (s.cell c).syncCover = some 0 then u.modCell c (fun x => { x with syncCover := none }) else u)) ∧
    ((s.cell c).seq.hold = .attSync → (s.cell c).kv = q :: r → (s.cell c).syncCover ≠ some 0 → exec (.attSyncReturn c) s = .next s)

/-- R119, R291 to R298: ATT.NORM and ATT.MERGE with legal parameter blocks whose rows lie in the local store write their destination ranges and statistics and no other byte, each row as its values give where no
row's bytes are written before they are read, and wait for their status; one of another shape raises its exception. Their events deliver status 0 with the number of empty rows, or a free value where two were in the normaliser at once.
R292 to R294: a row of the normaliser: a row with a NaN among its live scores gives quiet NaNs, a row without live scores gives zeros and statistics −∞ and 0, a row with scores of +∞ shares 1 among them, a lone
live score gives 1, equal live scores give equal elements, and a masked score gives 0.
Where the spec leaves a point open, the clause is the model's own choice: log entries 9, 15. -/
def Obligations.NormaliserRowsAndMerge : Prop :=
  (∀ (c : CellId) (d a : Reg) (q : NormOp) (r : List NormOp) (s : State),
    let e : Engine := .seq c
    let k := s.cell c
    let o := (s.xw e a).toNat
    let v := s.ownNum e (lsBase c + o) 64
    let g := normCfg v
    let h := s.ownNum e (lsBase c + o) 32
    let m := mergeCfg (s.ownNum e (lsBase c + o) (32 + 8 * (mergeCfg h).kp))
    let keeps := fun (t : State) (l : List (Nat × Nat)) => ∀ b, (∀ p ∈ l, s.home b < lsBase c + p.1 ∨ lsBase c + p.1 + p.2 ≤ s.home b) → t.byte b = s.byte b
    let inside := fun (l : List (Nat × Nat)) => ∀ p ∈ l, lsIn p.1 p.2 = true
    -- what a row reads, and what it writes: its elements and, where they are asked for, its statistics
    let nRead := fun (i : Nat) => (g.src + i * g.srcs, g.n * if g.sfmt = 0 then 4 else 2) :: if g.masken then [(g.mask + i * 32 * ((g.n + 255) / 256), (g.n + 7) / 8)] else []
    let nWrite := fun (i : Nat) => (g.dst + i * g.dsts, g.n * dfmtBytes g.dfmt) :: if g.sten then [(g.stats + 8 * i, 8)] else []
    let mRead := fun (i : Nat) => m.parts.flatMap (fun p => [(p.2 + 8 * i, 8), (p.1 + i * m.os, 4 * m.d)])
    let mWrite := fun (i : Nat) => (m.dst + i * m.dsts, m.d * dfmtBytes m.dfmt) :: if m.sten then [(m.stats + 8 * i, 8)] else []
    let apart := fun (l k : List (Nat × Nat)) => ∀ p ∈ l, ∀ q ∈ k, meets p.1 p.2 q.1 q.2 = false
    let free := fun (rows : Nat) (rd wr : Nat → List (Nat × Nat)) => ∀ i j, i < j → j < rows → apart (wr i) (rd j) ∧ apart (wr i) (wr j)
    let z := fun (i : Nat) =>
      let x := s.ownNum e (lsBase c + (g.src + i * g.srcs)) (g.n * if g.sfmt = 0 then 4 else 2)
      let mk := if g.masken then s.ownNum e (lsBase c + (g.mask + i * 32 * ((g.n + 255) / 256))) ((g.n + 7) / 8) else 0
      (List.range g.n).map (fun j =>
        (toF32 ((f32 g.scale).mul (if g.sfmt = 0 then f32 (BitVec.ofNat 32 (elemAt x 32 j)) else fF16.decode (elemAt x 16 j))),
          decide (g.nvalid ≤ j) || (g.causal && decide ((i : Int) + g.coff < j)) || (g.masken && elemAt mk 1 j == 1)))
    let nRow := fun (i : Nat) => normRow c.num i (z i)
    let mRow := fun (i : Nat) => mergeRow c.num i m.d (m.parts.map (fun p =>
      (BitVec.ofNat 32 (s.ownNum e (lsBase c + (p.2 + 8 * i)) 4), BitVec.ofNat 32 (s.ownNum e (lsBase c + (p.2 + 8 * i) + 4) 4),
        (List.range m.d).map (fun j => BitVec.ofNat 32 (s.ownNum e (lsBase c + (p.1 + i * m.os) + 4 * j) 4)))))
    let stat := fun (x : NormRow) => toLe 4 x.m.toNat ++ toLe 4 x.l.toNat
    (CanIssue s e false [d, a] → s.ecc = [] → Memory.wf s.mem = true →
      (o % 32 = 0 → o + 64 ≤ 0x600000 → normOk v = true → inside g.ranges → (∀ i, i < g.rows → inside (nRead i)) →
        ∃ (n : Nat) (t : State), exec (.attNorm c d a) s = .next ((t.normIssued c d (g.rows * 3 * ((g.n + 31) / 32) + 16) n false (!g.placed) g.ranges).retire e 16 .fall) ∧
          keeps t g.ranges ∧ n ≤ g.rows ∧
          (free g.rows nRead nWrite → (∀ i, i < g.rows → g.sten = true → apart [(g.dst + i * g.dsts, g.n * dfmtBytes g.dfmt)] [(g.stats + 8 * i, 8)]) →
            n = ((List.range g.rows).filter (fun i => (nRow i).empty)).length ∧
            ∀ i, i < g.rows → t.bytes (lsBase c + (g.dst + i * g.dsts)) (g.n * dfmtBytes g.dfmt) = rowBytes g.dfmt (nRow i).out ∧
              (g.sten = true → t.bytes (lsBase c + (g.stats + 8 * i)) 8 = stat (nRow i)))) ∧
      (o % 32 = 0 → o + 64 ≤ 0x600000 → normOk v = false → ∃ word, exec (.attNorm c d a) s = .next ((s.noteIssue e).raise e 3 (s.pc e) word excOperand)) ∧
      (o % 32 = 0 → o + 32 ≤ 0x600000 → mergeOk h = true → o + 32 + 8 * (mergeCfg h).kp ≤ 0x600000 → inside m.ranges → (∀ i, i < m.rows → inside (mRead i)) →
        ∃ t : State, exec (.attMerge c d a) s = .next ((t.normIssued c d (m.rows * m.kp * (2 + (m.d + 31) / 32) + 16) 0 true false m.ranges).retire e 16 .fall) ∧ keeps t m.ranges ∧
          (free m.rows mRead mWrite → (∀ i, i < m.rows → m.sten = true → apart [(m.dst + i * m.dsts, m.d * dfmtBytes m.dfmt)] [(m.stats + 8 * i, 8)]) →
            ∀ i, i < m.rows → t.bytes (lsBase c + (m.dst + i * m.dsts)) (m.d * dfmtBytes m.dfmt) = rowBytes m.dfmt (mRow i).out ∧
              (m.sten = true → t.bytes (lsBase c + (m.stats + 8 * i)) 8 = stat (mRow i)))) ∧
      (o % 32 = 0 → o + 32 ≤ 0x600000 → mergeOk h = false → ∃ word, exec (.attMerge c d a) s = .next ((s.noteIssue e).raise e 3 (s.pc e) word excOperand)) ∧
      (o % 32 ≠ 0 → ∃ word word', exec (.attNorm c d a) s = .next ((s.noteIssue e).raise e 3 (s.pc e) word (excAccess o)) ∧
        exec (.attMerge c d a) s = .next ((s.noteIssue e).raise e 3 (s.pc e) word' (excAccess o)))) ∧
    (k.norm = q :: r → s.clkStopped c.die = false →
      let u := s.modCell c (fun x => { x with norm := r })
      let done := if q.spoilt then { u.deliver e q.d (Config.freeVal 32 s.free) with free := s.free + 1 } else u.deliver e q.d (status 0 q.detail.toNat)
      exec (.attNormComplete c) s = .next (if q.merge then s else done) ∧ exec (.attMergeComplete c) s = .next (if q.merge then done else s)) ∧
    (k.norm = [] → exec (.attNormComplete c) s = .next s ∧ exec (.attMergeComplete c) s = .next s)) ∧
  (∀ (cell r : Nat) (z : List (W32 × Bool)),
    let live := fun (p : W32 × Bool) => !p.2 && p.1 != 0xFF800000#32
    let o := normRow cell r z
    ((∃ p ∈ z, live p = true ∧ (f32 p.1).isNan = true) → o.out = List.replicate z.length 0x7FC00000#32 ∧ o.nan = true) ∧
    ((∀ p ∈ z, live p = false) → o.out = List.replicate z.length 0 ∧ o.m = 0xFF800000#32 ∧ o.l = 0 ∧ o.empty = true) ∧
    ((∀ p ∈ z, live p = true → (f32 p.1).isNan = false) →
      o.out.length = z.length ∧ (∀ (i : Nat) (p : W32 × Bool), z[i]? = some p → live p = false → o.out[i]? = some 0) ∧
      (∀ (i j : Nat) (p q : W32 × Bool), z[i]? = some p → z[j]? = some q → live p = true → live q = true → p.1 = q.1 → o.out[i]? = o.out[j]?) ∧
      (∀ p ∈ z, live p = true → p.1 = 0x7F800000#32 → o.pinf = true ∧ o.m = 0x7F800000#32 ∧
        ∀ (i : Nat) (y : W32 × Bool), z[i]? = some y → live y = true → y.1 ≠ 0x7F800000#32 → o.out[i]? = some 0) ∧
      (∀ (i : Nat) (p : W32 × Bool), z[i]? = some p → live p = true → (z.filter live).length = 1 → o.out[i]? = some 0x3F800000#32)))

/-! ### Path units -/

/-- R355 to R357, R361, R362, R370: PLAN, COMMIT and UPD hold their engine for the fence; the submission then reads the descriptor: one that is legal is queued under the next ticket where EN is 1 and the unit has room, with status 0, 0x0D
or 0x0F; an illegal one, and a plan's or commit's that is not aligned, raises ILLEGAL_OPERAND, and one outside the local store ACCESS_FAULT. ABORT sends its ticket, for whose answer a sliver core waits (R117), and raises ILLEGAL_OPERAND for a number that is none; the unit's answer says whether it named an operation, and one that it names ends ABORTED, or
is marked ABORT_LATE where it is an update that has started or has ended in that cycle; GEN reads the generation.
Where the spec leaves a point open, the clause is the model's own choice: log entry 26. -/
def Obligations.PathSubmission : Prop :=
  ∀ (e : Engine) (d a x : Reg) (k : PathKind) (desc word : W32) (pc : Nat) (op : PathOp) (t : BitVec 16) (rest : List (Engine × Reg × BitVec 16)) (dd : Fin 4) (late : Bool) (n : Nat) (r : PathRun) (s : State), isHost e = false →
    let c := cellOf e
    let ret := fun (t : State) => (Host.Outcome.next (t.retire e (issueBytes e false) .fall) : Out)
    let held := fun (k : PathKind) (o : Out) => ∃ w, o = ret ((s.awaitVar e 1 d).setHold e (.path k (s.xw e a) d (s.pc e) w))
    let o := desc.toNat
    let s1 := ((s.releaseAll e).setHold e .none).reach c.die 16
    let v := s1.num (lsBase c + o) 32
    let u := s.paths[c.die]
    let freed := fun (t : State) => if s.hold e = .abort x then t.setHold e .none else t
    let read := match k with | .upd => updDesc v c (s.level e) o | _ => planDesc v (k == .commit) c (s.level e) o
    let q := s.paths[dd]
    (CanIssue s e false [d, a] → held .plan (exec (.pathPlan e d a) s) ∧ held .commit (exec (.pathCommit e d a) s) ∧ held .upd (exec (.pathUpd e d a) s) ∧
      ((s.xw e a).toNat < 65536 → exec (.pathAbort e d a) s =
        (let sent := (s.awaitVar e 1 d).modPath c.die (fun u => { u with aborts := u.aborts ++ [(e, d, (s.xw e a).setWidth 16)] })
         ret (if isSeq e then sent else sent.setHold e (.abort d)))) ∧
      (65536 ≤ (s.xw e a).toNat → ∃ w, exec (.pathAbort e d a) s = .next ((s.noteIssue e).raise e 1 (s.pc e) w excOperand))) ∧
    (CanIssue s e false [d] → exec (.pathGen e d) s = ret (s.setVar e 1 d (u.gen.setWidth 32))) ∧
    (s.hold e = .path k desc d pc word → s.clocked e → s.movesDone e .die = true → s.ecc = [] →
      (k ≠ .upd → o % 32 ≠ 0 → exec (.fenceComplete e) s = .next (s1.raise e 1 pc word excOperand)) ∧
      (k = .upd ∨ o % 32 = 0 → 0x600000 < o + 32 → exec (.fenceComplete e) s = .next (s1.raise e 1 pc word (excAccess o))) ∧
      (k = .upd ∨ o % 32 = 0 → o + 32 ≤ 0x600000 →
      (read = none → exec (.fenceComplete e) s = .next (s1.raise e 1 pc word excOperand)) ∧
      (read = some op → s.fld (.path c.die) 0 0 0 = 0 → exec (.fenceComplete e) s = .next ((s1.setSt e 0x0D).deliver e d (status 0x0D 0))) ∧
      (read = some op → s.fld (.path c.die) 0 0 0 = 1 → 16 ≤ u.depth → exec (.fenceComplete e) s = .next ((s1.setSt e 0x0F).deliver e d (status 0x0F 0))) ∧
      (read = some op → s.fld (.path c.die) 0 0 0 = 1 → u.depth < 16 → exec (.fenceComplete e) s =
        .next ((s1.modPath c.die (fun u => { u with ticketNext := u.ticketNext + 1, queue := u.queue ++ [{ op with ticket := some u.ticketNext }] })).deliver e d
          (status 0 u.ticketNext.toNat))))) ∧
    (q.aborts = (e, x, t) :: rest → s.clkStopped dd = false → q.queue.find? (fun o => o.ticket == some t) = some op →
      let ended : PathRun := { startRun op q.gen with fin := some 1 }
      exec (.pathAbortCapture dd late n) s =
        .next ((freed (s.modPath dd (fun u => { u with aborts := rest, queue := u.queue.erase op, ended := u.ended ++ [ended] }))).deliver e x (status 0 1))) ∧
    (q.aborts = (e, x, t) :: rest → s.clkStopped dd = false → q.queue.find? (fun o => o.ticket == some t) = none →
      let s0 := s.modPath dd (fun u => { u with aborts := rest })
      ((∀ r, q.inter = some r ∨ q.run = some r → r.op.ticket ≠ some t) → exec (.pathAbortCapture dd late n) s = .next ((freed s0).deliver e x (status 0 0))) ∧
      (q.inter = some r → r.op.ticket = some t →
        exec (.pathAbortCapture dd late n) s = .next ((freed (s0.modPath dd (fun u => { u with inter := some { r with late := true } }))).deliver e x (status 0 1))) ∧
      ((∀ r, q.inter = some r → r.op.ticket ≠ some t) → q.run = some r → r.op.ticket = some t →
        let p := if r.fin.isSome then (r, s0) else s0.partCand dd (if q.inter.isSome then 0 else n) r
        let y := if r.op.kind = .upd ∨ late = true ∧ r.fin.isSome = true then ({ r with late := true }, s0)
          else if r.expired = true ∧ r.fin.isSome = true then (r, s0)
          else if p.1.fin = some 0x0D then p else ({ p.1 with fin := some 1 }, p.2)
        exec (.pathAbortCapture dd late n) s = .next ((freed (y.2.modPath dd (fun u => { u with run := some y.1 }))).deliver e x (status 0 1)))) ∧
    (q.aborts = [] → exec (.pathAbortCapture dd late n) s = .next s)

/-- R348, R349, R357, R358, R363 to R367: an idle unit starts its oldest operation, and one that runs goes on with its candidates, up to an update that waits for a candidate boundary of a plan; an update whose generation is not newer is
rejected with 0x0E and leaves memory; a budget that expires ends a plan DONE with a ranked candidate and BUDGET without; of the operations that ended an update between candidates completes first, then one aborted in the queue, then
the one that ran; an operation that ended writes its result area and nothing else of memory, and an update that ends DONE sets the generation; one that ends in PATH_FAULT is a fault of the job, the clear of JOB.START, which has no ticket, too (R422).
Where the spec leaves a point open, the clause is the model's own choice: log entries 26, 28. -/
def Obligations.PathOperations : Prop :=
  ∀ (d : Fin 4) (n : Nat) (op : PathOp) (q : List PathOp) (r : PathRun) (el : BitVec 32) (s : State),
    let u := s.paths[d]
    let c : CellId := ⟨d, r.op.cell⟩
    let len := (r.result u.gen el).length
    let held := s.portHeld ⟨d, by omega⟩ 16 = true ∨ s.portHeld ⟨d, by omega⟩ 17 = true
    let free := ¬ held ∧ s.clkStopped d = false ∧ s.memCut d = 0
    let ends := s.portHeld ⟨d, by omega⟩ 16 = false ∧ s.clkStopped d = false ∧
      (u.inter = some r ∨ u.inter = none ∧ (∃ l, u.ended = r :: l) ∨ u.inter = none ∧ u.ended = [] ∧ u.run = some r ∧ r.fin.isSome = true)
    let rest := fun (u : PathUnit) =>
      if u.inter.isSome then { u with inter := none } else match u.ended with | _ :: l => { u with ended := l } | [] => { u with run := none }
    let upto := fun (op : PathOp) => if op.kind = .plan ∧ u.queue.any (fun o => o.kind == .upd) = true then min n 1 else n
    (free → u.run = none → u.queue = op :: q → op.kind = .upd → op.clear = false → ((op.newgen - u.gen).toNat = 0 ∨ 32768 ≤ (op.newgen - u.gen).toNat) →
      exec (.pathOpStart d n) s = .next ((s.orReg (.path d) 0x30 1#32).modPath d (fun u => { u with queue := q, run := some { startRun op u.gen with fin := some 0x0E } }))) ∧
    (free → u.run = none → u.queue = op :: q → op.kind ≠ .upd → exec (.pathOpStart d 0) s = .next (s.modPath d (fun u => { u with queue := q, run := some (startRun op u.gen) }))) ∧
    (free → u.run = none → u.queue = [] → exec (.pathOpStart d n) s = .next s) ∧
    (free → u.run = none → u.queue = op :: q →
      let s0 := s.modPath d (fun u => { u with queue := q })
      let y := if op.kind = .upd then s0.startUpd d (startRun op u.gen) else s0.stepCands d (upto op) (startRun op u.gen)
      exec (.pathOpStart d n) s = .next (y.2.modPath d (fun u => { u with run := some y.1 }))) ∧
    (free → u.run = some r → u.inter = none → r.fin = none →
      (r.op.kind = .plan → 0 < r.next → u.queue.find? (fun o => o.kind == .upd) = some op →
        let y := (s.modPath d (fun u => { u with queue := u.queue.erase op })).startUpd d (startRun op u.gen)
        exec (.pathOpStart d n) s = .next (y.2.modPath d (fun u => { u with inter := some y.1 }))) ∧
      ((r.op.kind ≠ .plan ∨ r.next = 0 ∨ u.queue.find? (fun o => o.kind == .upd) = none) →
        let y := s.stepCands d (upto r.op) r
        exec (.pathOpStart d n) s = .next (y.2.modPath d (fun u => { u with run := some y.1 })))) ∧
    (free → u.run = some r → (u.inter.isSome = true ∨ r.fin.isSome = true) → exec (.pathOpStart d n) s = .next s) ∧
    (u.run = some r → s.clkStopped d = false → u.inter = none → r.op.kind = .plan → r.fin = none → 0 < r.next →
      exec (.pathBudgetExpiry d 0) s = .next (s.modPath d (fun u => { u with run := some { r with expired := true, fin := some (if r.rank.isEmpty then 5 else 0) } }))) ∧
    (u.run = some r → s.clkStopped d = false → r.op.kind = .plan → r.fin = none → r.next = 0 →
      exec (.pathBudgetExpiry d n) s = .next (s.modPath d (fun u => { u with run := some { r with expired := true } }))) ∧
    (u.run = some r → s.clkStopped d = false → r.fin = none → (r.op.kind = .commit ∨ r.op.kind = .plan ∧ 0 < r.next) →
      let p := if u.inter.isSome then (r, s) else s.partCand d n r
      let cut := n = 0 ∨ u.inter.isSome = true ∨ p.1.recs.getLast?.any (fun k => k.outcome == 0) = true
      let y := if p.1.fin.isSome then p.1 else match (if cut then none else p.1.judge) with
        | some c => { p.1 with fin := some c }
        | none => { p.1 with expired := true, fin := some p.1.expiry }
      exec (.pathBudgetExpiry d n) s = .next (p.2.modPath d (fun u => { u with run := some y }))) ∧
    ((u.run = none ∨ ∃ r, u.run = some r ∧ (r.op.kind = .upd ∨ r.fin.isSome = true)) → exec (.pathBudgetExpiry d n) s = .next s) ∧
    (ends → exec (.pathOpComplete d el) s = .next (((s.modPath d rest).endUpd d r).pathFinish d r el)) ∧
    (u.inter = none → u.ended = [] → (u.run = none ∨ ∃ r, u.run = some r ∧ r.fin = none) → s.portHeld ⟨d, by omega⟩ 16 = false → exec (.pathOpComplete d el) s = .next s) ∧
    (ends → r.op.kind ≠ .upd → r.op.ticket.isSome = true → Memory.wf s.mem = true → s.pairOn c = false → r.op.res + len ≤ 0x600000 →
      ∃ t : State, exec (.pathOpComplete d el) s = .next t ∧ t.bytes (lsBase c + r.op.res) len = r.result u.gen el ∧
        (∀ b, (b < lsBase c + r.op.res ∨ lsBase c + r.op.res + len ≤ b) → t.byte b = s.byte b) ∧ t.paths[d] = rest u ∧
        t.jobFaults = s.jobFaults ++ (if r.fin = some 0x0D then [(d, r.op.cell, 0x0D#8)] else [])) ∧
    (ends → r.fin = some 0x0D → r.op.ticket = none →
      ∃ t : State, exec (.pathOpComplete d el) s = .next t ∧ t.paths[d] = rest u ∧ t.mem = s.mem ∧ t.jobFaults = s.jobFaults ++ [(d, r.op.cell, 0x0D#8)]) ∧
    (ends → r.op.kind = .upd → r.fin = some 0 → r.op.ticket.isSome = true → Memory.wf s.mem = true → s.pairOn c = false →
      r.op.desc + 32 ≤ 0x600000 →
      ∃ t : State, exec (.pathOpComplete d el) s = .next t ∧ (t.paths[d]).gen = r.op.newgen ∧ t.num (lsBase c + r.op.desc + 0x18) 4 = r.word.toNat ∧
        (r.op.ncand = 0 → r.op.clear = false → ∀ b, (b < lsBase c + r.op.desc + 0x18 ∨ lsBase c + r.op.desc + 0x1C ≤ b) → t.byte b = s.byte b))

/-- R342, R344, R349: an entry of a batch against its set of eight ways: a way that holds the key is replaced or emptied; a new key takes the first EMPTY way, then the first expired one, and else is refused and sets SAT; every other
way keeps its key and leaf but for SAT.
Where the spec leaves a point open, the clause is the model's own choice: log entry 27. -/
def Obligations.VoxelSetUpdate : Prop :=
  ∀ (l : Machine.PSet) (age st cl : Nat) (gen newgen : BitVec 16) (k : BitVec 64), l.length = 8 → st < 4 → cl < 256 →
    let r := Machine.PSet.update l age gen newgen k st cl
    let leaf := BitVec.ofNat 64 (newgen.toNat * 2 ^ 48 + cl * 2 ^ 32 + st)
    let same := fun (x y : BitVec 64 × BitVec 64) => x.1 = y.1 ∧ x.2 ||| 4#64 = y.2 ||| 4#64
    r.1.length = 8 ∧
    (∀ i, i < 8 → (∀ j, j < i → ¬ ((l.getD j 0).1 = k ∧ leafState (l.getD j 0).2 ≠ 0)) → (l.getD i 0).1 = k → leafState (l.getD i 0).2 ≠ 0 →
      r.2 = false ∧ same (r.1.getD i 0) (if st = 0 then (0, 0) else (k, leaf)) ∧ ∀ j, j < 8 → j ≠ i → same (r.1.getD j 0) (l.getD j 0)) ∧
    ((∀ j, j < 8 → ¬ ((l.getD j 0).1 = k ∧ leafState (l.getD j 0).2 ≠ 0)) →
      (st = 0 → r = (l, false)) ∧
      (st ≠ 0 → ∀ i, i < 8 → leafState (l.getD i 0).2 = 0 → (∀ j, j < i → leafState (l.getD j 0).2 ≠ 0) →
        r.2 = false ∧ same (r.1.getD i 0) (k, leaf) ∧ ∀ j, j < 8 → j ≠ i → same (r.1.getD j 0) (l.getD j 0)) ∧
      (st ≠ 0 → (∀ j, j < 8 → leafState (l.getD j 0).2 ≠ 0 ∧ (age = 0 ∨ (gen - leafGen (l.getD j 0).2).toNat ≤ age)) →
        r.2 = true ∧ r.1.sat = true ∧ ∀ j, j < 8 → same (r.1.getD j 0) (l.getD j 0)))

/-! ### The acoustic engine -/

/-- R377, R380, R381, R393 to R398, R401: what arrives at a tick, a slot and a block boundary: a slot's sample is held; at a tick the microphones complete their samples, the coefficient writes take effect, histories move on and the
tick is counted; an update starts on the current taps and is due later; a boundary accepts the block before it when it is whole, in sequence and its checksum holds, and ramps otherwise. With the engine off nothing of this happens, but that a tick makes the coefficient writes take effect and leaves zero samples on every output (R401, R402).
Where the spec leaves a point open, the clause is the model's own choice: log entry 29. -/
def Obligations.AcousticStream : Prop :=
  ∀ (l : List (BitVec 64)) (j : Fin 4) (n : Fin 16) (w : BitVec 32) (i : Fin 32) (x : Src) (r : Fin 16) (s : State),
    let a := s.aco
    let slot : Fin 64 := Fin.ofNat 64 (j.val * 16 + n.val)
    let k := a.blk
    (s.acoRuns = false → (∃ t : State, exec (.acoTick l) s = .next t ∧ (∀ p : Fin 16, t.aco.pdm[p] = 0) ∧ (∀ p : Fin 64, t.aco.tdm[p] = 0) ∧ t.aco.tick = a.tick ∧
      t.aco.memW = [] ∧ t.aco.mem = a.memW.foldl (fun m p => sparseSet (fun _ => (0#32 : W32)) p.1 p.2 m) a.mem ∧
      t.mem = s.mem ∧ t.cells = s.cells) ∧ exec (.tdmSlotReceived j n w) s = .next s ∧ exec .blockBoundary s = .next s ∧ exec .adaptUpdate s = .next s) ∧
    (s.acoRuns = true → Canonical s →
      (∃ t : State, exec (.acoTick l) s = .next t ∧ t.aco.tick = a.tick + 1 ∧ t.reg .aco 0xF0 = s.reg .aco 0xF0 + 1 ∧ t.aco.memW = [] ∧
        (t.aco.mic[i] = if (a.reg 0xC).getLsbD i then
          micSample s.acoK s.acoM (cicOut s.acoK s.acoM (l.getD i 0 :: (a.pdmIn[i]).take 4) :: (a.cic[i]).take 31) else 0) ∧
        t.aco.slot = a.slot ∧ (a.ref r = some x → t.aco.hist[r] = t.aco.sample x :: (a.hist[r]).take 299) ∧
        (∀ h : Fin 8, t.hosts[h] = { s.hosts[h] with irq := (t.hosts[h]).irq }) ∧ t.cells = s.cells) ∧
      ((a.reg 0x14).getLsbD j = true → ∃ t : State, exec (.tdmSlotReceived j n w) s = .next t ∧
        t.aco.slot[slot] = (if s.acoRate = 0 then sgn 24 (w.toNat / 2 ^ 8) else sgn 16 (w.toNat / 2 ^ 16) * 256) ∧ t.aco.raw[slot] = w ∧
        (∀ m : Fin 64, m ≠ slot → t.aco.slot[m] = a.slot[m]) ∧ t.mem = s.mem) ∧
      ((a.reg 0x14).getLsbD j = false → exec (.tdmSlotReceived j n w) s = .next s) ∧
      ((a.reg 0xE0).getLsbD 0 = true → a.upd = none → a.tick ≠ 0 → ∃ u : AcoUpd, exec .adaptUpdate s = .next { s with aco := { a with upd := some u } } ∧
        u.due = a.tick - 1 + 2 ^ bits (a.reg 0xE0) 3 1 ∧ (∀ p ∈ u.taps, 0x7200 ≤ p.1 ∧ p.1 < 0x47200 ∧ p.1 % 4 = 0)) ∧
      ((a.reg 0xE0).getLsbD 0 = false ∨ a.upd.isSome = true ∨ a.tick = 0 → exec .adaptUpdate s = .next s) ∧
      (a.tick < k * s.acoNb → exec .blockBoundary s = .next s) ∧
      (k * s.acoNb ≤ a.tick → ∃ t : State, exec .blockBoundary s = .next t ∧ t.aco.blk = k + 1 ∧ t.aco.got[Fin.ofNat 2 k] = 0 ∧
        (0 < k → let b := inBuf (k - 1)
          let good := 0x47300 ≤ a.got[Fin.ofNat 2 (k - 1)] ∧ s.num b 4 = (k - 1) % 2 ^ 32 ∧ s.num (b + 0x47200) 4 = (k - 1) % 2 ^ 32 ∧
            s.num (b + 0x47204) 4 = (crc32c (s.bytes b 0x47200)).toNat
          (good → t.aco.ramp = none) ∧ (¬ good → t.aco.ramp.isSome = true ∧ t.aco.mem = a.mem ∧ t.aco.play = a.play))))

/-- R400 to R402, R404, R409: a commit applies the shadow registers at the tick, or is refused with a cause and changes none; ACO_MEM writes wait for the tick and step the address; enabling with legal RATE, K and Q clears the engine and its
buffers; disabling stops it, so that the next tick leaves zero samples (R402), ends an update under way, and flushes the engine's crossing toward FAB and holds it (R477); RATE, K and Q do not change while EN is 1 (R404).
Where the spec leaves a point open, the clause is the model's own choice: log entries 31, 102. -/
def Obligations.AcousticControl : Prop :=
  ∀ (v : BitVec 32) (h : Fin 8) (d : Reg) (s : State), Canonical s →
    let o := s.fld .aco 0x100 18 2 * 4
    let ok := (0x100 ≤ o ∧ o < 0x4200) ∨ (0x7200 ≤ o ∧ o < 0x47200)
    let s1 := s.clrReg .aco 4 0x80000000#32
    let act : Vector W32 64 := Vector.ofFn (fun i => s1.reg .aco (4 * i.val))
    let causes := ({ s.aco with act := act }).causes s.acoRate s.acoNf s.acoB
    let next := s.setFld .aco 0x100 18 2 (s.fld .aco 0x100 18 2 + 1)
    let legal := 2 ≤ bits v 7 5 ∧ bits v 7 5 ≤ 5 ∧ 3 ≤ bits v 4 2 ∧ bits v 4 2 ≤ 5
    ((s.reg .aco 4).getLsbD 31 = false → exec .acoCommitGo s = .next (s.orReg .aco 4 0x80000000#32) ∧ exec .acoCommitApply s = .next s) ∧
    ((s.reg .aco 4).getLsbD 31 = true → exec .acoCommitGo s = .next ((s.orReg .aco 0xFC 0x40#32).raiseHub .aco) ∧
      (causes = [] → exec .acoCommitApply s = .next { s1 with aco := { s.aco with act := act } }) ∧
      (causes ≠ [] → ∃ t : State, exec .acoCommitApply s = .next t ∧ t.aco = s.aco ∧ t.fld .aco 8 15 8 ∈ causes ∧ (t.reg .aco 0xFC).getLsbD 5 = true ∧ (t.reg .aco 4).getLsbD 31 = false)) ∧
    (ok → exec (.acoMemDataWrite v) s = .next { next with aco := { s.aco with memW := s.aco.memW ++ [(o, v)] } } ∧
      exec (.acoMemDataRead h d) s = .next (next.setX (.host h) 0 1 d ((sparseGet (fun _ => (0#32 : W32)) o s.aco.mem).setWidth 64))) ∧
    (¬ ok → ∃ t u : State, exec (.acoMemDataWrite v) s = .next t ∧ t.aco = s.aco ∧ t.fld .aco 8 15 8 = 6 ∧
      exec (.acoMemDataRead h d) s = .next u ∧ u.aco = s.aco ∧ u.fld .aco 8 15 8 = 6) ∧
    ((s.reg .aco 0).getLsbD 0 = false → legal → ∃ t : State, exec (.acoEnable v) s = .next t ∧ t.reg .aco 0 = (v ||| 1#32) &&& 0xFF#32 ∧ t.acoRuns = true ∧ t.reg .aco 0xF0 = 0 ∧
      t.aco = { Aco.reset with act := s.aco.act, mem := s.aco.mem, memW := s.aco.memW, mod := Vector.replicate 16 (List.replicate (bits v 7 5) 0) } ∧
      (∀ b, t.byte b = if 0xF401800000 ≤ b ∧ b < 0xF401900000 then 0 else s.byte b)) ∧
    ((s.reg .aco 0).getLsbD 0 = false → ¬ legal → ∃ t : State, exec (.acoEnable v) s = .next t ∧ t.aco = s.aco ∧ t.reg .aco 0 = s.reg .aco 0 ∧ t.fld .aco 8 15 8 = 6) ∧
    ((s.reg .aco 0).getLsbD 0 = true → bits v 7 1 = bits (s.reg .aco 0) 7 1 → exec (.acoEnable v) s = .next s) ∧
    ((s.reg .aco 0).getLsbD 0 = true → bits v 7 1 ≠ bits (s.reg .aco 0) 7 1 →
      ∃ t : State, exec (.acoEnable v) s = .next t ∧ t.aco = s.aco ∧ t.reg .aco 0 = s.reg .aco 0 ∧ t.fld .aco 8 15 8 = 1) ∧
    ((s.reg .aco 0).getLsbD 0 = false → v = s.reg .aco 0 → legal → exec .acoDisable s = .next (s.setReg .aco 0 (v &&& 0xFE#32))) ∧
    ((s.reg .aco 0).getLsbD 0 = true → ∃ t : State, exec .acoDisable s = .next t ∧ (t.reg .aco 0).getLsbD 0 = false ∧ t.acoRuns = false ∧
      t.aco = { s.aco with upd := none, slotNow := none, ports := [] } ∧
      ((∀ k, s.crossing 4 11 = some k → k.reset = false) → (t.reg (.cdc 4) 8).getLsbD 11 = true ∧ (∃ k, t.crossing 4 11 = some k ∧ k.reset = true) ∧
        (∀ l : Fin 64, 32 ≤ l.val → l.val < 42 → t.hub.raised[l] = 0)) ∧
      (s.crates = [] → (∀ l : Fin 64, 32 ≤ l.val → l.val < 42 → s.lineChan l = none) → t.mem = s.mem))

/-! ### Time and sensors -/

/-- R305 to R315, R323, R542: the time base: a nanosecond of ADJ, SET and its refusal, ADJ, the FSYNC commit, which rules an output from the first edge of its new values on, edge and end, PPS stamps, cutoffs in order, the captured epoch, and the marks of frames.
Where the spec leaves a point open, the clause is the model's own choice: log entry 46. -/
def Obligations.TimeBaseEvents : Prop :=
  ∀ (v : BitVec 64) (x : BitVec 32) (n : Fin 16) (i : Fin 2) (m k : Nat) (r : List Nat) (c : FsCfg) (d : Fin 4) (s : State),
    let b := s.hub.tb
    let f := b.fs[n]
    let set := fun (t : TimeBase) => { s with hub := { s.hub with tb := t } }
    let time := fun (t : TimeBase) => ((t.now.toNat * 2 ^ 32 + t.frac.toNat : Nat) : Int)
    let due := (f.cur.en = true ∨ f.pend.isSome = true) ∧ f.next ≤ s.now
    let w := s.fsWritten n
    let fs := fun (g : Fsync) => set { b with fs := b.fs.set n g }
    let line : Fin 64 := Fin.ofNat 64 (42 + n.val)
    (let o := 0x100 + 16 * n.val;
     s.fsWritten n = ⟨(s.reg .tbase o).getLsbD 0, (s.reg .tbase o).getLsbD 1, (s.reg .tbase (o + 4)).toNat, (s.reg .tbase (o + 8)).toNat, (s.reg .tbase (o + 12)).toNat⟩) ∧
    (b.adjLeft = 0 → exec .adjStep s = .next s) ∧
    (b.adjLeft ≠ 0 → ∃ t : TimeBase, exec .adjStep s = .next (set t) ∧
      (time t - (time b + (10 + if b.adjLeft.toInt < 0 then -1 else 1) * 2 ^ 32 + (s.reg .tbase 0x10).toInt)) % 2 ^ 96 = 0 ∧
      t.adjLeft.toInt = b.adjLeft.toInt - (if b.adjLeft.toInt < 0 then -1 else 1) ∧ t.up = b.up + 1 ∧ t.fs = b.fs) ∧
    ((∀ j : Fin 16, (b.fs[j]).runs = false) → s.now ≤ v.toNat → exec (.timeSet v) s = .next (set { b with now := v })) ∧
    ((f.cur.en = true ∨ (∃ c, f.pend = some c ∧ c.en = true) ∨ v.toNat < s.now) → exec (.timeSet v) s = .next (s.orReg .tbase 0x20 1#32)) ∧
    exec (.timeAdj x) s = .next (set { b with adjLeft := x }) ∧
    exec (.ppsEdge i) s = .next (set { b with pps := b.pps.set i b.now }) ∧
    ((∃ j, (s.fsWritten j).ok = false) → exec .fsyncCommit s = .next (s.orReg .tbase 0x20 1#32)) ∧
    ((∀ j, (s.fsWritten j).ok = true) → ∃ t : TimeBase, exec .fsyncCommit s = .next (set t) ∧ t.now = b.now ∧
      (f.pend = none → due → t.fs[n] = { f with pend := some w, at_ := s.now }) ∧
      (f.pend = none → ¬ due → (f.cur.en = true ∨ w.en = true) →
        t.fs[n] = { f with pend := some w, at_ := s.now, active := f.active && f.cur.en, next := (if w.en then w else f.cur).after s.anchor s.now }) ∧
      (f.pend = none → f.cur.en = false → w.en = false → t.fs[n] = { f with cur := w, at_ := s.now, active := false })) ∧
    (due → f.pend = none → exec (.fsyncEdge n) s = .next ((fs f.edge).raiseLine line 1) ∧
      f.edge = { f with active := true, endAt := f.next + f.cur.width, lastDue := some f.next, used := false, next := f.next + f.cur.period }) ∧
    (due → f.pend = some c → f.at_ < f.next →
      (c.en = true → exec (.fsyncEdge n) s =
        .next ((fs { f with cur := c, pend := none, active := true, endAt := f.next + c.width, lastDue := some f.next, used := false, next := f.next + c.period }).raiseLine line 1)) ∧
      (c.en = false → exec (.fsyncEdge n) s = .next (fs { f with cur := c, pend := none, active := false }))) ∧
    (due → f.pend = some c → f.next ≤ f.at_ → ∃ g : Nat, exec (.fsyncEdge n) s = .next ((fs { f.edge with next := g }).raiseLine line 1) ∧
      (g = f.next + f.cur.period ∧ g ≤ f.at_ ∨ f.at_ < f.next + f.cur.period ∧ g = (if c.en then c else f.cur).after s.anchor f.at_)) ∧
    (¬ due → exec (.fsyncEdge n) s = .next s) ∧
    (f.active = true → f.endAt ≤ s.now → exec (.fsyncEnd n) s = .next (set { b with fs := b.fs.set n { f with active := false } })) ∧
    (s.now < f.endAt → exec (.fsyncEnd n) s = .next s) ∧
    (s.cutDue = none → exec .cutoff s = .next s) ∧
    (s.cutDue = some m → b.lastCut = none → exec .cutoff s = .next (set { b with lastCut := some 0, cuts := b.cuts ++ [0] })) ∧
    (s.cutDue = some m → b.lastCut = some k → k < m → exec .cutoff s = .next (set { b with lastCut := some (k + 1), cuts := b.cuts ++ [k + 1] })) ∧
    (s.cutDue = some m → b.lastCut = some k → m ≤ k → exec .cutoff s = .next s) ∧
    (b.cuts = k :: r → let cl := if s.jobRuns then s.hub.ing.closes ++ [(k, (s.reg .ingest 0x420).toNat)] else s.hub.ing.closes
      exec .epochCapture s = .next { s with hub := { s.hub with tb := { b with cuts := r }, ing := { s.hub.ing with was := s.hub.ing.epoch, epoch := k + 1, closes := cl } } }) ∧
    (s.fenced (Fin.ofNat 7 d.val) = false → s.edgeUp 4 (Fin.ofNat 7 d.val) = true → ∃ t : State, exec .frameMark s = .next t ∧ (t.tests[d]).mark = some s.now ∧
      (∀ p, (s.tests[d]).mark = some p → s.now < p + s.instPeriod → (t.tests[d]).slices = []) ∧
      ((s.tests[d]).mark = none → (t.tests[d]).slices = (s.tests[d]).slices) ∧ t = { s with tests := t.tests })

/-- R313, R315, R318 to R323, R617: sensor data: an IMU read starts on the grid and its sample enters the window, with its request, where there is room; a frame of a supported format opens at its trigger where its function is ready and its
channel armed, after the open one has completed TRUNCATED, and is discarded and counted otherwise; line groups and lidar packets enter the open frame, a change of the sweep number completes it, and so does the LAST packet; a frame completes,
with the epoch before the cutoff that its cycle captures or the one in force; the descriptor of the oldest moved frame enters the ring, 32 bytes and no other; its instant is closed with a token.
Where the spec leaves a point open, the clause is the model's own choice: log entries 43, 47, 48. -/
def Obligations.SensorIngest : Prop :=
  ∀ (k : Fin 4) (p : Fin 12) (q : Fin 24) (m : Fin 6) (port : Fin 8) (data : List (BitVec 8)) (u e w : Bool) (g : Nat) (f : Frame) (fmt : CamFormat) (r : List Frame) (cs : List (Nat × Nat)) (time : BitVec 64) (sw : BitVec 32) (s : State),
    let i := s.hub.ing
    let p24 : Fin 24 := p.castLE (by omega)
    let lp : Fin 24 := Fin.ofNat 24 (16 + port.val)
    let mine := (s.reg (.mac m) 0).getLsbD 4 && decide (bits (s.reg .ingest (0x20 * lp.val + 12)) 2 0 = m.val)
    let takes := s.ready 15 = true ∧ (s.reg (.mac m) 0).getLsbD 0 = true ∧ mine = true
    let dropped := i.lidDrop.contains (port.val, sw)
    let early := (s.count (.boot 0) 0x14 31 16 1).modIng (fun g => { g with lidDrop := (port.val, sw) :: g.lidDrop.filter (fun x => x.1 ≠ port.val) })
    let stamp := (s.rxStamp m).toNat
    let skew := if stamp < time.toNat then time.toNat - stamp else stamp - time.toNat
    let wr := s.reg .ingest 0x420
    let trig := s.hub.tb.fs[Fin.ofNat 16 (bits (s.reg .ingest (0x20 * p.val)) 7 4)]
    let unit := winUnit 64 g 0 (data.take 64)
    let ring := s.ringBase + 32 * (if bits (s.reg .ingest 0x418) 15 0 = 0 then 0 else (s.reg .ingest 0x420).toNat % bits (s.reg .ingest 0x418) 15 0)
    let fits := (s.winBytes (56 + k.val)).length + 256 ≤ Config.windowBytes (56 + k.val)
    let free := s.perCut (some 10) = 0 ∧ s.portHeld 4 3 = false
    let setI := fun (x : Ingest) => { s with hub := { s.hub with ing := x } }
    ((s.reg .spi (0x100 * k.val)).getLsbD 0 = true → s.lineArmed (58 + k.val) = true → i.imu[k] = none →
      exec (.imuReadStart k) s = .next (setI { i with imu := i.imu.set k s.msGrid })) ∧
    (i.imu[k] = some g → unit.length = 256 ∧ ∃ t : State, exec (.imuSampleReady k data) s = .next t ∧ t.hub.ing.imu[k] = none ∧
      t.hub.raised[Fin.ofNat 64 (58 + k.val)] = s.hub.raised[Fin.ofNat 64 (58 + k.val)] + (if fits then 1 else 0) ∧
      t.winBytes (56 + k.val) = if fits then s.winBytes (56 + k.val) ++ unit else s.winBytes (56 + k.val)) ∧
    (((s.reg .spi (0x100 * k.val)).getLsbD 0 = false ∨ s.lineArmed (58 + k.val) = false ∨ i.imu[k] ≠ none) → exec (.imuReadStart k) s = .next s) ∧
    (i.imu[k] = none → exec (.imuSampleReady k data) s = .next s) ∧
    (camOk fmt = true → s.openFrame p24 = none → s.ready 14 = true → s.lineArmed p.val = true → (s.reg .ingest (0x20 * p.val)).getLsbD 0 = true →
      ∃ (t : State) (x : Frame), exec (.frameStart p fmt) s = .next t ∧ t.openFrame p24 = some x ∧ x.port = p24 ∧ x.counter = i.counters[p24] ∧ t.hub.ing.counters[p24] = i.counters[p24] + 1 ∧
        (∀ g, trig.lastDue = some g → trig.used = false → g ≤ s.now → s.now - g ≤ (s.reg .ingest (0x20 * p.val + 8)).toNat →
          x.flags = 0 ∧ x.ts = BitVec.ofInt 64 (g + (s.reg .ingest (0x20 * p.val + 4)).toInt)) ∧
        (trig.lastDue = none ∨ trig.used = true → x.flags = 1 ∧ x.ts = BitVec.ofInt 64 (s.now + (s.reg .ingest (0x20 * p.val + 4)).toInt))) ∧
    (camOk fmt = true → s.openFrame p24 = none → (s.ready 14 = false ∨ s.lineArmed p.val = false) → exec (.frameStart p fmt) s = .next (s.count (.boot 0) 0x14 15 0 1)) ∧
    (camOk fmt = true → s.openFrame p24 = none → s.ready 14 = true → s.lineArmed p.val = true → (s.reg .ingest (0x20 * p.val)).getLsbD 0 = false → exec (.frameStart p fmt) s = .next s) ∧
    (camOk fmt = true → s.openFrame p24 = some f → ∃ t : State, exec (.frameComplete p24 true false false) s = .next t ∧ t.openFrame p24 = none ∧ exec (.frameStart p fmt) s = exec (.frameStart p fmt) t) ∧
    (camOk fmt = false → exec (.frameStart p fmt) s = .next s) ∧
    (s.openFrame p24 = none → exec (.lineGroup p data) s = .next s) ∧
    (s.openFrame p24 = some f → ∃ (t : State) (x : Frame), exec (.lineGroup p data) s = .next t ∧ t.openFrame p24 = some x ∧ x.crc = crcRun f.crc data ∧
      x.rest = (f.rest ++ data).drop (256 * ((f.rest ++ data).length / 256)) ∧ x.ts = f.ts ∧ x.counter = f.counter ∧ t.mem = s.mem) ∧
    (s.openFrame q = some f → ∃ (t : State) (x : Frame), exec (.frameComplete q u e w) s = .next t ∧ t.openFrame q = none ∧ t.hub.ing.done.getLast? = some x ∧ x.port = f.port ∧ x.rest = [] ∧
      x.edone = (if w then i.was else i.epoch) ∧ x.late = ((x.edone : Int) - f.k).toNat ∧
      x.flags = f.flags + (if u then 2 else 0) + (if e || f.err then 4 else 0) + (if 1 ≤ x.late ∧ x.late ≤ 3 then 16 else 0) + (if 4 ≤ x.late then 32 else 0)) ∧
    (s.openFrame q = none → exec (.frameComplete q u e w) s = .next s) ∧
    (takes → s.openFrame lp = some f → f.sweep = sw →
      (∃ (t : State) (x : Frame), exec (.lidarPacket m port time sw false data) s = .next t ∧ t.openFrame lp = some x ∧ x.crc = crcRun f.crc data ∧ x.sweep = sw) ∧
      (∃ (t : State) (x : Frame), exec (.lidarPacket m port time sw true data) s = .next t ∧ t.openFrame lp = none ∧ t.hub.ing.done.getLast? = some x ∧ x.crc = crcRun f.crc data ∧ x.sweep = sw)) ∧
    (takes → s.openFrame lp = some f → f.sweep ≠ sw → ∃ t : State, exec (.frameComplete lp false false false) s = .next t ∧ t.openFrame lp = none ∧
      exec (.lidarPacket m port time sw u data) s = exec (.lidarPacket m port time sw u data) t) ∧
    (takes → s.openFrame lp = none → s.lineArmed (12 + port.val) = true → dropped = false → (s.reg .ingest (0x20 * lp.val)).getLsbD 0 = true →
      ∃ (t : State) (x : Frame), exec (.lidarPacket m port time sw false data) s = .next t ∧ t.openFrame lp = some x ∧ x.ts = time ∧ x.sweep = sw ∧ x.counter = i.counters[lp] ∧
        x.flags = (if (s.reg .ingest 0x400).toNat < skew then 8 else 0)) ∧
    (takes → s.openFrame lp = none → s.lineArmed (12 + port.val) = true → (dropped = true ∨ (s.reg .ingest (0x20 * lp.val)).getLsbD 0 = false) → exec (.lidarPacket m port time sw u data) s = .next s) ∧
    ((s.ready 15 = false ∨ (s.reg (.mac m) 0).getLsbD 0 = false ∨ takes ∧ s.openFrame lp = none ∧ s.lineArmed (12 + port.val) = false) →
      exec (.lidarPacket m port time sw u data) s = .next (if dropped then s else early)) ∧
    (s.ready 15 = true → (s.reg (.mac m) 0).getLsbD 0 = true → mine = false → exec (.lidarPacket m port time sw u data) s = .next s) ∧
    (free → i.done = f :: r → s.frameMoved f = true → ∃ (t : State) (buf : Nat), exec .descriptorWrite s = .next t ∧
      let l := f.descriptor (bits (s.reg .ingest (0x20 * f.port.val)) 31 16) buf
      let x := (s.charge 4 3 32).unitStore ring l
      t = ({ x with free := x.free + 1 }.setReg .ingest 0x420 (wr + 1)).modIng (fun g =>
        { g with done := r, closes := g.closes.map (fun (c : Nat × Nat) => if f.edone ≤ c.1 then (c.1, (wr + 1).toNat) else c) }) ∧
      (Memory.wf s.mem = true → ring + 32 ≤ 0xF000000000 → t.ownBytes .unit ring 32 = l ∧
        ∀ b, (s.home b < ring ∨ ring + 32 ≤ s.home b) → t.byte b = (s.performAll (fun k => k.who == .unit)).byte b)) ∧
    ((i.done = [] ∨ i.done = f :: r ∧ (s.frameMoved f = false ∨ s.perCut (some 10) ≠ 0)) → exec .descriptorWrite s = .next s) ∧
    (free → i.closes = (g, bits sw 31 0) :: cs → (∀ x ∈ i.done, g < x.edone) → exec .closeEntryPut s =
      .next (((setI { i with closes := cs }).charge 4 3 4).putToken .unit .unit 4 .sys (BitVec.ofNat 15 (s.reg .ingest 0x41C).toNat) sw)) ∧
    (i.closes = (g, bits sw 31 0) :: cs → f ∈ i.done → f.edone ≤ g → exec .closeEntryPut s = .next s)

/-! ### The hub's ports -/

/-- R538, R551, R617, R675, R684, R685, R688, R689: the windows and ports of the hub: frames received, or dropped and counted, sensor frames given to their lidar port, frames sent from a queue whose gate is open, stamps, reads and writes of a
window, requests of a PCIe device to usable hub DRAM and the Unsupported Request of any other, PERST#, link events and resets, and the output checker.
Where the spec leaves a point open, the clause is the model's own choice: log entries 12, 40, 41, 45, 90. -/
def Obligations.HubPorts : Prop :=
  ∀ (m : Fin 6) (c : Fin 4) (i : Fin 2) (kind : Fin 3) (ext crcErr : Bool) (ident : BitVec 29) (data : List (BitVec 8)) (w : Fin 70) (n : Nat) (pa : BitVec 64) (width speed : BitVec 3) (port : OutPort) (lidar : Fin 8) (pl : List (BitVec 8)) (s : State),
    let q := s.winBytes (40 + m.val)
    let l := s.txReady m
    let up := match port with
      | .eth m => s.ready 15 && (s.reg (.mac m) 0).getLsbD 0
      | .can i => s.ready 18 && (s.reg (.can i) 0).getLsbD 0
    let push := fun (x : State) (w : Nat) (l : List Byte) => (x.winPush w l).1
    let unit := winUnit (data.length + (if crcErr then 65536 else 0)) (s.rxStamp m).toNat 0 data
    let rx := s.winPush (32 + m.val) unit
    let a := pa.toNat
    let usable := fun (n : Nat) => dramOk a = true ∧ dramOk (a + n - 1) = true ∧ dramWin a = some 4
    let linked := s.perCut (some 13) = 0 ∧ (s.reg (.pcie i) 0x1000).getLsbD 1 = true
    let port1 : Nat := 4 + i.val
    (data.length ≤ 9216 → s.sensorPort m data = none → s.ready 15 = true → (s.reg (.mac m) 0).getLsbD 0 = true → s.lineArmed (20 + m.val) = true →
      exec (.ethRxFrame m data crcErr) s = .next (s.feedWin (32 + m.val) (20 + m.val) (unit.length / 256) unit) ∧
      (data.length ≤ 224 → s.perCut (some 12) = 0 → exec (.ethRxFrame m data crcErr) s = .next (if rx.2 then rx.1.raiseLine (Fin.ofNat 64 (20 + m.val)) 1 else rx.1))) ∧
    ((9216 < data.length ∨ s.sensorPort m data = none ∧ (s.ready 15 = false ∨ (s.reg (.mac m) 0).getLsbD 0 = false ∨ s.lineArmed (20 + m.val) = false)) →
      exec (.ethRxFrame m data crcErr) s = .next { s with hub := { s.hub with macDrop := s.hub.macDrop.set m (s.hub.macDrop[m] + 1) } }) ∧
    (data.length ≤ 9216 → s.sensorPort m data = some (lidar, pl) → exec (.ethRxFrame m data false) s =
      exec (.lidarPacket m lidar (BitVec.ofNat 64 (leNat (pl.take 8))) (BitVec.ofNat 32 (leNat ((pl.drop 8).take 4))) ((pl.getD 12 0).getLsbD 0) (pl.drop 16)) s) ∧
    (s.ready 18 = true → (s.reg (.can c) 0).getLsbD 0 = true → exec (.canRxFrame c kind ext ident data) s =
      .next (push s (48 + c.val) (winUnit (data.length % 2 ^ 12 + kind.val * 4096 + (if ext then 16384 else 0)) s.now ident.toNat data))) ∧
    ((s.ready 18 = false ∨ (s.reg (.can c) 0).getLsbD 0 = false) → exec (.canRxFrame c kind ext ident data) s = .next s) ∧
    (s.ready 15 = true → (s.reg (.mac m) 0).getLsbD 0 = true → l ≠ [] → ∃ (t : State) (k off n : Nat), exec (.ethTxFrame m) s = .next t ∧ (k, off, n) ∈ l ∧ (s.gates m).testBit k = true ∧
      t.winBytes (40 + m.val) = q.take off ++ q.drop (off + 256 * n) ∧ t.mem = s.mem ∧
      (let len := leNat ((q.drop off).take 4) % 2 ^ 14
       t.out = if len ≤ 9216 then s.out ++ [.eth m ((q.drop (off + 32)).take len)] else s.out)) ∧
    ((s.ready 15 = false ∨ (s.reg (.mac m) 0).getLsbD 0 = false ∨ l = []) → exec (.ethTxFrame m) s = .next s) ∧
    (exec (.tstampPop m) s = .next { s with hub := { s.hub with stamps := s.hub.stamps.set m (s.hub.stamps[m]).tail } }) ∧
    (winExists w = true → s.perCut (winDom w) = 0 → ∃ t : State, exec (.windowRead w n) s = .next t ∧ t.out = s.out ++ [.read ((s.winBytes w).take n ++ List.replicate (n - (s.winBytes w).length) 0)] ∧ t.mem = s.mem) ∧
    (winExists w = true → s.perCut (winDom w) = 0 → exec (.windowWrite w data) s = .next (push s w data)) ∧
    ((winExists w = false ∨ s.perCut (winDom w) ≠ 0) → exec (.windowRead w n) s = .next s ∧ exec (.windowWrite w data) s = .next s) ∧
    (linked → data ≠ [] → usable data.length → s.portHeld 4 port1 = false → exec (.pcieDeviceRequest i pa n (some data)) s = .next ((s.charge 4 port1 data.length).unitStore a data)) ∧
    (linked → 0 < n → usable n → s.portHeld 4 port1 = false → let x := (s.charge 4 port1 n).touch a n
      exec (.pcieDeviceRequest i pa n none) s = .next (x.emit (.read (x.ownBytes .unit a n)))) ∧
    (linked → data ≠ [] → ¬ usable data.length → exec (.pcieDeviceRequest i pa n (some data)) s = .next (s.emit (.unsupported i))) ∧
    (linked → 0 < n → ¬ usable n → exec (.pcieDeviceRequest i pa n none) s = .next (s.emit (.unsupported i))) ∧
    (¬ linked → exec (.pcieDeviceRequest i pa n (some data)) s = .next s ∧ exec (.pcieDeviceRequest i pa n none) s = .next s) ∧
    (10000000 ≤ s.hub.tb.up → exec (.perstRelWrite i) s = .next (s.orReg (.pcie i) 0x1000 1#32)) ∧
    (s.hub.tb.up < 10000000 → exec (.perstRelWrite i) s = .next s) ∧
    (Canonical s → (s.reg (.pcie i) 0x1000).getLsbD 0 = true → ∃ t : State, exec (.pcieLinkUp i width speed) s = .next t ∧ t.fld (.pcie i) 0x1000 1 1 = 1 ∧ t.fld (.pcie i) 0x1000 4 2 = width.toNat ∧
      t.fld (.pcie i) 0x1000 7 5 = speed.toNat ∧ t.fld (.pcie i) 0x1000 0 0 = 1) ∧
    ((s.reg (.pcie i) 0x1000).getLsbD 0 = false → exec (.pcieLinkUp i width speed) s = .next s) ∧
    exec (.pcieHotReset i) s = .next ((s.setFld (.pcie i) 0x1000 7 1 0).farReset 4 13) ∧
    exec .usbBusReset s = .next (((s.setWin 68 []).setWin 69 []).farReset 4 14) ∧
    (s.faultLow = true → ∃ t : State, exec .hubFaultNFall s = .next t ∧ t.hub.invalid = true ∧ t.isl = s.isl) ∧
    (s.faultLow = false → exec .hubFaultNFall s = .next s) ∧
    (up = false → exec (.outputFrame port data) s = .next s) ∧
    (up = true → let body := data.take (data.length - 4)
      let tr := data.drop (data.length - 4)
      let inv := s.faultLow || s.hub.invalid || decide (4 ≤ s.partLevel)
      let sent := withTrailer (body.set 14 (BitVec.ofNat 8 (bit inv + 2 * s.partLevel)))
      (20 ≤ data.length → tr = toLe 4 (crc32c body).toNat → ∃ t : State, exec (.outputFrame port data) s = .next t ∧
        t.out = s.out ++ [match port with | .eth m => .eth m sent | .can i => .can i sent]) ∧
      ((data.length < 20 ∨ tr ≠ toLe 4 (crc32c body).toNat) → ∃ t : State, exec (.outputFrame port data) s = .next t ∧ t.out = s.out))

/-! ### Peripheral DMA and handover -/

/-- R493 to R498, R501, R503, R506, R508, R510, R511, R516: channels: an arm is captured, in the order of service, then checked and accepted or refused; a request is captured by the armed channel of its line, or dropped and counted; a burst moves its bytes and no other; a channel completes
when its last byte is acknowledged, or ends at an abort; the hub takes handover entries in order and firmware pops them; a regulator's window ends and grants whole requests of what was held, while its new count is below the budget; a port in HOLD that is over budget lets neither a descriptor read nor a burst start.
Where the spec leaves a point open, the clause is the model's own choice: log entries 42, 67, 114, 115, 116. -/
def Obligations.PeripheralDma : Prop :=
  ∀ (e : Fin 2) (c : Fin 16) (job w : Bool) (l : Fin 64) (d : Fin 4) (dd : ChDesc) (q : BitVec 15) (v : W32) (kk : Queue) (r : List W32) (b : Fin 5) (p : Fin 22) (sa da n z : Nat) (s : State),
    let k := s.chan e c
    let a := s.descAddr e c
    let rd := (s.charge 4 (1 + e.val) 64).touch a 64
    let f := fun o n => rd.num (a + o) n
    let usable := dramOk a = true ∧ dramWin a = some 4
    let h := s.hub.ho[d]
    let x : Fin 7 := d.castLE (by omega)
    let port : Nat := 1 + e.val
    let held := s.portHeld 4 port = true
    let refuse := fun (s : State) (cause : Nat) =>
      (s.modDma e (fun k => { order := k.order.filter (· ≠ c), ch := k.ch.set c { k.ch[c] with st := .idle, cause := cause } })).pdmaErr e 1#32
    (k.st = .idle ∨ k.st = .faulted → exec (.pdmaArm e c job) s =
      .next ((s.setFld (.pdma e) (0x108 + 32 * c.val) 3 3 (bit job)).modDma e (fun k => { order := k.order.filter (· ≠ c) ++ [c], ch := k.ch.set c { k.ch[c] with st := .checking, job := job } }))) ∧
    (k.st = .armed ∨ k.st = .checking → exec (.pdmaArm e c job) s = .next ((s.setFld (.pdma e) (0x108 + 32 * c.val) 3 3 (bit job)).orReg (.pdma e) (0x108 + 32 * c.val) 0x80000000#32)) ∧
    (k.st = .checking → ¬ held → ¬ usable → exec (.pdmaArmCheck e c) s = .next (refuse s 2)) ∧
    (k.st = .checking → ¬ held → usable → s.armCause f ≠ 0 → exec (.pdmaArmCheck e c) s = .next (refuse rd (s.armCause f))) ∧
    (k.st = .checking → ¬ held → usable → s.armCause f = 0 → ∃ t : State, exec (.pdmaArmCheck e c) s = .next t ∧ (t.chan e c).st = .armed ∧ (t.chan e c).desc = some (chDesc f) ∧ (t.chan e c).pend = 0 ∧
      (t.chan e c).left = ((chDesc f).slen * (chDesc f).scount + (chDesc f).burst - 1) / (chDesc f).burst ∧ (t.chan e c).moved = 0 ∧ (t.hub.dma[e]).order = (s.hub.dma[e]).order ∧ t.mem = rd.mem) ∧
    (k.st ≠ .checking → exec (.pdmaArmCheck e c) s = .next s) ∧
    (k.st = .checking → held → exec (.pdmaArmCheck e c) s = .next (s.classHeld 4 port)) ∧
    (exec (.pdmaKick e c) s = .next { s with hub := { s.hub with soft := s.hub.soft ++ [(e, c)] } }) ∧
    (l ≠ 62 → s.hub.raised[l] = 0 → exec (.pdmaRequest l) s = .next s) ∧
    (l ≠ 62 → s.hub.raised[l] ≠ 0 → s.lineChan l = none → ∃ t : State, exec (.pdmaRequest l) s = .next t ∧ t.hub.raised[l] + 1 = s.hub.raised[l] ∧ t.hub.dma = s.hub.dma ∧
      (Canonical s → t.fld (.pdma 0) 8 15 0 = min (s.fld (.pdma 0) 8 15 0 + 1) 65535)) ∧
    (l ≠ 62 → s.hub.raised[l] ≠ 0 → s.lineChan l = some (e, c) → k.desc = some dd → k.pend ≠ k.left → k.pend < dd.pend →
      ∃ t : State, exec (.pdmaRequest l) s = .next t ∧ t.hub.raised[l] + 1 = s.hub.raised[l] ∧ t.chan e c = { k with pend := k.pend + 1 }) ∧
    (l ≠ 62 → s.hub.raised[l] ≠ 0 → s.lineChan l = some (e, c) → k.desc = some dd → k.pend ≠ k.left → dd.pend ≤ k.pend → exec (.pdmaRequest l) s = .next s) ∧
    (s.hub.soft = [] → exec (.pdmaRequest 62) s = .next s) ∧
    (s.hub.soft = [(e, c)] → (s.boundTo e c 62 = false ∨ k.desc = none ∨ k.pend = k.left) → exec (.pdmaRequest 62) s = .next ({ s with hub := { s.hub with soft := [] } }.dropRequest e)) ∧
    (l ≠ 62 → s.hub.raised[l] ≠ 0 → s.lineChan l = some (e, c) → (k.desc = none ∨ k.pend = k.left) →
      exec (.pdmaRequest l) s = .next ({ s with hub := { s.hub with raised := s.hub.raised.set l (s.hub.raised[l] - 1) } }.dropRequest e)) ∧
    (s.hub.soft = [(e, c)] → s.boundTo e c 62 = true → k.desc = some dd → k.pend ≠ k.left → k.pend < dd.pend →
      exec (.pdmaRequest 62) s = .next ({ s with hub := { s.hub with soft := [] } }.modChan e c (fun k => { k with pend := k.pend + 1 }))) ∧
    ((s.hub.dma[e]).order.find? (fun c => decide (0 < (s.chan e c).pend ∧ 0 < (s.chan e c).left)) = none → exec (.pdmaBurst e) s = .next s) ∧
    ((s.hub.dma[e]).order.find? (fun c => decide (0 < (s.chan e c).pend ∧ 0 < (s.chan e c).left)) = some c → k.desc = some dd → ¬ held →
      ((∀ z ∈ dd.burstAt k.moved, s.pieceCut z = 0) → exec (.pdmaBurst e) s = .next ((dd.burstAt k.moved).foldl (fun s z => s.movePiece e c k.moved z)
        (s.modChan e c (fun k => { k with pend := k.pend - 1, left := k.left - 1, moved := k.moved + 1 })))) ∧
      (((dd.burstAt k.moved).map s.pieceCut).find? (· ≠ 0) = some n → exec (.pdmaBurst e) s = .next (s.pdmaBreak e c n (some k.moved)))) ∧
    (dieOf sa ≠ 4 → s.movePiece e c n (sa, da, n) = (s.charge 4 port n).sendRd (.pdma e c n) 4 sa da n (n + 1)) ∧
    ((s.hub.dma[e]).order.find? (fun c => decide (0 < (s.chan e c).pend ∧ 0 < (s.chan e c).left)) = some c → k.desc = some dd → ¬ held →
      burstPieces dd (dd.burst + 1) (k.moved * dd.burst) (min dd.burst (dd.slen * dd.scount - k.moved * dd.burst)) = [(sa, da, n)] → s.pieceCut (sa, da, n) = 0 →
      dieOf sa = 4 → dieOf da = 4 → dieOf (da + n) = 4 → winOf sa = none → winOf da = none → (inAcoPort da = false ∨ s.stores = []) → n ≤ 256 → s.ecc = [] → Memory.wf s.mem = true →
      ∃ t : State, exec (.pdmaBurst e) s = .next t ∧ t.chan e c = { k with pend := k.pend - 1, left := k.left - 1, moved := k.moved + 1 } ∧
        (∀ i, i < n → t.ownByte (.pdma e c) (da + i) = s.ownByte (.pdma e c) (sa + i)) ∧ (∀ b, (s.home b < da ∨ da + n ≤ s.home b) → t.byte b = s.byte b)) ∧
    ((s.hub.dma[e]).order.find? (fun c => decide (0 < (s.chan e c).pend ∧ 0 < (s.chan e c).left)) = some c → k.desc = some dd → held → exec (.pdmaBurst e) s = .next (s.classHeld 4 port)) ∧
    (s.chanDone e c = true → k.desc = some dd →
      let idle := fun (late : Bool) => (if dd.irq then s.raiseHub .pdma else s).modDma e (fun x => { order := x.order.filter (fun y => y ≠ c), ch := x.ch.set c { x.ch[c] with st := .idle, cause := 0, late := late, code := 0, pend := 0, desc := none } })
      let ended := fun (late : Bool) => if dd.tok then ((idle late).charge 4 port 4).putToken .unit .unit 4 .sys dd.cq (dd.tval.setWidth 32) else idle late
      exec (.pdmaChannelComplete e c) s = .next (ended false) ∧ exec (.pdmaAbort e c true) s = .next (ended true)) ∧
    (s.chanDone e c = false → exec (.pdmaChannelComplete e c) s = .next s) ∧
    (k.st = .armed → (w = false ∨ s.chanDone e c = false) → ∃ t : State, exec (.pdmaAbort e c w) s = .next t ∧ (t.chan e c).st = .idle ∧ (t.chan e c).code = 1 ∧ (t.chan e c).desc = none ∧
      c ∉ (t.hub.dma[e]).order ∧ (k.desc = some dd → ∀ x ∈ t.crates, ∀ b : Nat, x.who ≠ .pdma e c b) ∧ t.mem = s.mem) ∧
    (k.st ≠ .armed → exec (.pdmaAbort e c w) s = .next s) ∧
    (s.hoQueue d = some q → (s.queueAt q).get? (s.queueNow q) = some (v, kk) → s.edgeUp x 4 = true → s.crossCode x 4 = 0 → h.fifo.length < 64 → (h.pair = true ∨ bits v 23 20 ≠ 3) →
      ∃ t : State, exec (.handoverEntry d) s = .next t ∧ (t.hub.ho[d]).fifo = h.fifo ++ [v] ∧ (t.hub.ho[d]).pair = (!h.pair && (bits v 23 20 == 1 || bits v 23 20 == 2)) ∧ t.queueAt q = kk) ∧
    (s.hoQueue d = some q → (s.queueAt q).get? (s.queueNow q) = some (v, kk) → s.edgeUp x 4 = true → s.crossCode x 4 = 0 → h.fifo.length < 64 → h.pair = false → bits v 23 20 = 3 →
      exec (.handoverEntry d) s = .next ((s.setQueueAt q kk).kickEntry v)) ∧
    ((s.queueAt q).entries = v :: r → (s.queueAt q).lastGet ≠ some (s.queueNow q) → ((s.queueAt q).lastPut = some (s.queueNow q) → r ≠ []) →
      (s.queueAt q).get? (s.queueNow q) = some (v, { s.queueAt q with entries := r, lastGet := some (s.queueNow q) })) ∧
    (s.hoQueue d = none → exec (.handoverEntry d) s = .next s) ∧
    (s.hoQueue d = some q → ((s.queueAt q).get? (s.queueNow q) = none ∨ s.edgeUp x 4 = false ∨ s.crossCode x 4 ≠ 0) → exec (.handoverEntry d) s = .next s) ∧
    (s.hoQueue d = some q → 64 ≤ h.fifo.length → exec (.handoverEntry d) s = .next s) ∧
    (h.fifo = v :: r → exec (.hoPop d) s = .next (s.modHo d (fun h => { h with fifo := r, data := v, valid := true }))) ∧
    (h.fifo = [] → exec (.hoPop d) s = .next (s.modHo d (fun h => { h with valid := false }))) ∧
    (s.clocked5 b → (b.val = 4 → p.val < 14) →
      let budget := s.reg (.reg b) (0x104 + 8 * p.val)
      let fresh := { s.regPort b p.val with count := 0, cfg := s.reg (.reg b) (0x100 + 8 * p.val), budget := budget }
      let u := fresh.grant (s.holdMode b) []
      exec (.regWindow b p) s = .next ((s.setRegPort b p.val fresh).grantAt b p.val []) ∧
      (∃ t : State, exec (.regWindow b p) s = .next t ∧ (sparseWf regPortDflt none s.regPorts = true → t.regPort b p.val = u.2) ∧ t.mem = s.mem) ∧
      ((s.holdMode b = false ∨ bits budget 23 0 = 0xFFFFFF) → u = (unitsOf fresh.owed, { fresh with count := unitsOf fresh.owed, total := fresh.total + unitsOf fresh.owed, owed := [] })) ∧
      (s.holdMode b = true → bits budget 23 0 ≠ 0xFFFFFF → fresh.owed = [(n, z)] → 0 < z → u.1 = min n ((bits budget 23 0 + z - 1) / z) * z)) ∧
    ((¬ s.clocked5 b ∨ b.val = 4 ∧ 14 ≤ p.val) → exec (.regWindow b p) s = .next s)

/-! ### Links and crates -/

/-- R436 to R442, R451 to R453: modules: bring-up starts, and the Capability Record is sent, the peer's record is stored and checked, a module whose records passed at both ends enters service, one without a record or training goes out with its cause; a bad flit counts and the sixteenth in a row
retrains; a retrain ends in service or out; scores decay; a message from the peer takes the end out.
Where the spec leaves a point open, the clause is the model's own choice: log entries 14, 39. -/
def Obligations.LinkModules : Prop :=
  ∀ (d p : Fin 7) (m : Fin 10) (pm : Nat) (w0 w1 : BitVec 32) (c : Fin 8) (s : State), Canonical s → modPeer d m.val = some (p, pm) →
    let st := s.modState d m.val
    let k := s.link d m
    let score := s.fld (.d2d d) (0x140 + 4 * m.val) 15 0
    let limit := s.fld (.d2d d) 8 15 0
    let out := fun (i : Instr) (cause : Nat) => ∃ t : State, exec i s = .next t ∧ t.modState d m.val = 3 ∧ t.fld (.d2d d) (0x100 + 4 * m.val) 6 3 = cause
    let v := capMeet (capWord d m.val) w0.toNat
    let pe : Fin 10 := Fin.ofNat 10 pm
    let back := s.fenced d = true ∨ s.fenced p = true
    let relink := s.relinking d = true ∨ s.relinking p = true
    let bad := v / 2 ^ 24 % 16 = 0 ∨ v / 128 % 2 = 0 ∨ v / 256 % 2 ^ 15 ≠ 0x7FFF ∨ w0.toNat % 8 ≠ capWord d m.val % 8
    ((st = 0 ∨ (st = 3 ∧ back)) → (¬ back ∨ relink) → ∃ t : State, exec (.sidebandTrained d m) s = .next t ∧ t.modState d m.val = 1 ∧ t.reg (.d2d d) (0x1C0 + 4 * m.val) = 0 ∧
      t.link d m = { Link.reset with sent := some (capRecord d m) }) ∧
    (st = 1 ∨ st = 2 ∨ (st = 3 ∧ ¬ back) ∨ (back ∧ ¬ relink) → exec (.sidebandTrained d m) s = .next s) ∧
    (s.awaitsRecord d m = true → (s.link p pe).sent ≠ none → ¬ bad → bits w1 2 0 = p.val → bits w1 6 3 = pm → ∃ t : State, exec (.capabilityRecord d m w0 w1) s = .next t ∧ t.reg (.d2d d) (0x1C0 + 4 * m.val) = w0 ∧ t.modState d m.val = 1 ∧
      t.link p pe = { s.link p pe with sent := none } ∧ t = { s with regs := t.regs, links := t.links }) ∧
    ((s.link p pe).sent = none → exec (.capabilityRecord d m w0 w1) s = .next s) ∧
    (s.awaitsRecord d m = true → (s.link p pe).sent ≠ none → bad → out (.capabilityRecord d m w0 w1) 3) ∧
    (s.awaitsRecord d m = true → (s.link p pe).sent ≠ none → ¬ bad → (bits w1 2 0 ≠ p.val ∨ bits w1 6 3 ≠ pm) → out (.capabilityRecord d m w0 w1) 4) ∧
    (s.awaitsRecord d m = true → out (.negFailTimeout d m) 3) ∧
    (s.awaitsRecord d m = false → exec (.negFailTimeout d m) s = .next s ∧ exec (.capabilityRecord d m w0 w1) s = .next s) ∧
    (st = 1 → k.retrain = false → s.awaitsRecord d m = false → s.checked p pe = true → ∃ t : State, exec (.mainbandTrained d m) s = .next t ∧ t.modState d m.val = 2 ∧ t.links = s.links ∧ t.mem = s.mem) ∧
    ((st ≠ 1 ∨ s.checked d m = false ∨ s.checked p pe = false) → exec (.mainbandTrained d m) s = .next s) ∧
    (2 ≤ st ∨ k.retrain = true → exec (.trainFail d m) s = .next s) ∧
    (st = 3 → exec (.takeOut d m) s = .next s) ∧
    (k.msg = none ∨ st = 3 → exec (.moduleOutMessage d m) s = .next s) ∧
    (st ≠ 2 → exec (.flitReceived d m true) s = .next s ∧ exec (.flitReceived d m false) s = .next s) ∧
    (st = 2 → k.bad < 15 → limit < min (score + 1) 65535 → out (.flitReceived d m false) 1) ∧
    (k.retrain = false ∨ st ≠ 1 → exec (.retrainDone d m true) s = .next s ∧ exec (.retrainDone d m false) s = .next s) ∧
    (st = 0 ∨ st = 1 → k.retrain = false → out (.trainFail d m) 7) ∧
    (st ≠ 3 → out (.takeOut d m) 6) ∧
    (st ≠ 3 → k.msg = some c → out (.moduleOutMessage d m) c.val) ∧
    (st = 2 → exec (.flitReceived d m true) s = .next (s.setLink d m { k with bad := 0 })) ∧
    (st = 2 → k.bad < 15 → score < limit → ∃ t : State, exec (.flitReceived d m false) s = .next t ∧ t.link d m = { k with bad := k.bad + 1 } ∧ t.modState d m.val = 2 ∧
      t.fld (.d2d d) (0x140 + 4 * m.val) 15 0 = score + 1) ∧
    (st = 2 → k.bad = 15 → score + 257 ≤ limit → (s.modState p pm = 2 → s.fld (.d2d p) (0x140 + 4 * pm) 15 0 + 256 ≤ s.fld (.d2d p) 8 15 0) → ∃ t : State, exec (.flitReceived d m false) s = .next t ∧
      t.modState d m.val = 1 ∧ (t.link d m).retrain = true ∧ (t.link d m).bad = 0 ∧ (s.modState p pm = 2 → t.modState p pm = 1)) ∧
    (st = 1 → k.retrain = true → ∃ t : State, exec (.retrainDone d m true) s = .next t ∧ t.modState d m.val = 2 ∧ t.link d m = { k with bad := 0, retrain := false }) ∧
    (st = 1 → k.retrain = true → out (.retrainDone d m false) 2) ∧
    (∃ t : State, exec (.scoreDecay d) s = .next t ∧ t.fld (.d2d d) (0x140 + 4 * m.val) 15 0 = score - 1 ∧ t.modState d m.val = st ∧ t = { s with regs := t.regs })

/-- R445, R447, R449, R450, R451, R452, R454, R478, R484: a crate that may cross its next edge goes on toward its die, counted where it passes through; at its die a write is performed and acknowledged, or not accepted where it comes from a ring neighbour before the microcode has started (R623; log entry 135), a read answered with the bytes, a put
offered to its queue, whose acceptance acknowledges it; data and acknowledgements reach their issuer. While no module of its edge is in service a crate waits, and one that meets a held or stalled crossing ends. One whose answer is late is lost.
Where the spec leaves a point open, the clause is the model's own choice: log entries 23, 135. -/
def Obligations.CrateDelivery : Prop :=
  ∀ (n a at_ : Nat) (h : Fin 8) (reg : Reg) (kd : Fin 9) (u : Bool) (ea : W64) (c : Crate) (d x : Fin 7) (y : List (Fin 7)) (e : Engine) (cc : CellId) (id : Nat) (v : W32) (w : List Put) (s : State), s.crateAt n = some c → c.num = n → Memory.wf s.mem = true →
    let open_ := s.nextCode c = 0 ∧ s.mayCross c = true
    let gone := fun (t : State) => ∀ k ∈ t.crates, k.num ≠ n
    let is := fun (t : State) (k : Crate) => t.crates = s.crates.map (fun j => if j.num = n then k else j)
    let c' := { c with modl := if c.modl = none ∧ c.cur = c.src ∧ c.kind = c.req then s.pickModule c.src (c.route.headD c.cur) else c.modl }
    let events : List Instr := [.crateForward n, .wrCrate n, .rdCrate n, .tputCrate n, .rdataCrate n, .ackCrate n]
    (open_ → c.route = d :: x :: y → ∃ t : State, exec (.crateForward n) s = .next t ∧ is t { c' with cur := d, route := x :: y } ∧ t.mem = s.mem ∧
      (sparseWf regReset none s.regs = true → t.reg (.d2d d) 0x1C = s.reg (.d2d d) 0x1C + 1)) ∧
    (open_ → c.route = [d] → c.kind = .wr → s.cellGate c = true → ∃ t : State, exec (.wrCrate n) s = .next t ∧ is t { c' with cur := d, route := [], len := 0, data := [] } ∧ t.mem = s.mem) ∧
    (open_ → c.route = [d] → c.kind = .wr → s.cellGate c = false → ∃ t : State, exec (.wrCrate n) s = .next t ∧
      ((∀ h, c.who ≠ .host h) → is t { c' with kind := .ack, cur := d, route := c.back }) ∧ (∃ k ∈ t.crates, k.num = n ∧ k.kind = .ack ∧ k.cur = d ∧ k.route = c.back) ∧
      (s.home c.pa = c.pa → (∀ i, i < c.data.length → s.home (c.pa + i) = c.pa + i) → ∀ i, (h : i < c.data.length) → t.byte (c.pa + i) = c.data[i]) ∧
      (∀ b, (s.home b < s.home c.pa ∨ s.home c.pa + c.data.length ≤ s.home b) → t.byte b = s.byte b)) ∧
    (open_ → c.route = [d] → c.kind = .rd → s.ecc = [] → ∃ t : State, exec (.rdCrate n) s = .next t ∧ t.mem = s.mem ∧
      is t { c' with kind := .rdata, cur := d, route := c.back, data := (List.range c.len).map (fun i => s.rdByte c (c.pa + i)), mark := false }) ∧
    ((∀ h, c.who ≠ .host h) → s.rdByte c a = s.byte a) ∧
    (open_ → c.route = [d] → c.kind = .tput → ∃ t : State, exec (.tputCrate n) s = .next t ∧ (t.queueAt c.q).entries = (s.queueAt c.q).entries ∧
      (t.queueAt c.q).waiting = insPut (s.queueCell c.q) ⟨.crate n, c.val, (s.queueAt c.q).arrival (s.queueNow c.q)⟩ (s.queueAt c.q).waiting ∧ is t { c' with cur := d, route := [] } ∧ t.mem = s.mem) ∧
    ((s.queueAt c.q).waiting = ⟨.crate n, v, at_⟩ :: w → s.clkStopped (s.queueCell c.q).die = false → at_ ≤ s.queueNow c.q → (s.queueAt c.q).lastPut ≠ some (s.queueNow c.q) → (s.queueAt c.q).entries.length < 16 →
      ∃ t : State, exec (.tokenPutAccept c.q) s = .next t ∧ (t.queueAt c.q).entries = (s.queueAt c.q).entries ++ [v] ∧ (t.queueAt c.q).waiting = w ∧
        is t { c with kind := .ack, timedOut := false, route := c.back }) ∧
    (open_ → c.route = [d] → c.kind = .rdata → c.who = .move cc id → s.moveWants cc id c.dest = true → (∀ m, s.moveAt cc id = some m → m.overlap = false) →
      (dieOf c.dest).val = cc.die.val → s.memCut cc.die = 0 → winOf c.dest = none →
      ∃ t : State, exec (.rdataCrate n) s = .next t ∧ gone t ∧
        ((∀ i, i < c.data.length → s.home (c.dest + i) = c.dest + i) → ∀ i, (h : i < c.data.length) → t.byte (c.dest + i) = c.data[i])) ∧
    (open_ → c.route = [d] → c.kind = .rdata → c.who = .host h → c.mark = false → s.hold (.host h) = .hostRead n reg kd u ea →
      ∃ t : State, exec (.rdataCrate n) s = .next t ∧ gone t ∧ t.hold (.host h) = .none ∧ t.x (.host h) reg = ((s.setHold (.host h) .none).setX (.host h) 0 1 reg (loadVal kd (leNat c.data) u)).x (.host h) reg ∧ t.mem = s.mem) ∧
    (open_ → c.route = [d] → c.kind = .ack → c.who = .eng e → ∃ t : State, exec (.ackCrate n) s = .next t ∧ gone t ∧ t.hold e = (s.setHold e .none).hold e ∧ t.mem = s.mem) ∧
    (s.nextCode c = 0 → s.mayCross c = false → ∀ i ∈ events, exec i s = .next s) ∧
    (c.route = d :: x :: y → s.nextCode c ≠ 0 → exec (.crateForward n) s = .next (s.endCrate c (s.nextCode c))) ∧
    (c.route = [d] → s.nextCode c ≠ 0 → c.kind = .wr → exec (.wrCrate n) s = .next (s.endCrate c (s.nextCode c))) ∧
    (Canonical s → (∀ m, c.modl = some m → s.fld (.d2d c.src) (0x140 + 4 * m.val) 15 0 + 256 ≤ s.fld (.d2d c.src) 8 15 0) →
      ∃ t : State, exec (.crateAckTimeout n) s = .next t ∧ gone t ∧ (c.who = .eng e → t.hold e = (s.setHold e .none).hold e ∧ (t.st e).getLsbD 17 = true))

/-! ### Fences and clocks -/

/-- R456 to R460, R466, R478, R479, R482, R484, R486, R487: a fenced die's modules go out and its crates are lost; it is unfenced once its live readmission has put all its modules in service; a far reset and a stall flush a crossing, which its ready opens again; a clock
window stores the counts and judges them, and a stopped clock is recorded.
Where the spec leaves a point open, the clause is the model's own choice: log entries 79, 92. -/
def Obligations.FencesAndClocks : Prop :=
  ∀ (mask : BitVec 4) (d : Fin 4) (g : Fin 4) (a b x : Fin 7) (m : Nat) (dom : Fin 18) (i : Isl) (counts : List Nat) (k : Crossing) (s : State), Canonical s →
    let y : Fin 7 := Fin.ofNat 7 d.val
    let modsUp := ∀ z ∈ neighbours y, (∀ m ∈ edgeMods y z, s.modState y m = 2) ∧ (∀ m ∈ edgeMods z y, s.modState z m = 2)
    let ready := s.readmitting d = true ∧ s.hlth.resetDone.contains d = true ∧ modsUp
    let blk := Blk.cdc (Fin.ofNat 7 (5 + i.num.val))
    (mask.getLsbD d.val = true → ∃ t : State, exec (.fenceSet mask) s = .next t ∧ t.fenced y = true ∧
      (s.fenced y = false → (∀ z, m ∈ edgeMods y z → t.modState y m = 3 ∧ ∀ c ∈ t.crates, c.meets y = false))) ∧
    (mask = 0 → exec (.fenceSet mask) s = .next s ∧ exec (.unfence mask) s = .next s) ∧
    (ringEdges[g.val]? = some (a, b) → (s.edgeOut a b = true ∨ s.edgeOut b a = true) → s.fenced a = false → s.fenced b = false →
      ∃ t : State, exec (.edgeFenceTimeout g) s = .next t ∧ t.fenced b = true) ∧
    (ringEdges[g.val]? = some (a, b) → s.edgeOut a b = false → s.edgeOut b a = false → exec (.edgeFenceTimeout g) s = .next s) ∧
    (mask = BitVec.ofNat 4 (2 ^ d.val) → s.fenced y = true → ready → ∃ t : State, exec (.unfence mask) s = .next t ∧ t.fenced y = false ∧ (∀ z : Fin 7, z ≠ y → t.fenced z = s.fenced z)) ∧
    (mask = BitVec.ofNat 4 (2 ^ d.val) → (s.fenced y = false ∨ ¬ ready) → exec (.unfence mask) s = .next (s.orReg (.d2d 4) 0x20 0x1000000#32)) ∧
    (hasCrossing x dom = true → (∀ k, s.crossing x dom = some k → k.reset = false) → ∃ t : State, exec (.farResetCapture x dom) s = .next t ∧ (∃ k, t.crossing x dom = some k ∧ k.reset = true) ∧
      (t.reg (.cdc x) 8).getLsbD dom.val = true) ∧
    (hasCrossing x dom = false → exec (.farResetCapture x dom) s = .next s ∧ exec (.clockStall x dom) s = .next s) ∧
    (s.crossing x dom = some k → exec (.clockStall x dom) s = .next s ∧ (k.reset = true → exec (.farResetCapture x dom) s = .next s) ∧ (k.reset = false → exec (.farReadyCapture x dom) s = .next s)) ∧
    (s.crossing x dom = none → exec (.farReadyCapture x dom) s = .next s) ∧
    (s.crossing x dom = some k → k.reset = true → exec (.farReadyCapture x dom) s = .next (s.dropCrossing x dom) ∧ (s.dropCrossing x dom).crossing x dom = none) ∧
    (hasCrossing x dom = true → s.crossing x dom = none → s.crossOut x dom = false → ∃ t : State, exec (.clockStall x dom) s = .next t ∧ t.crossing x dom = some ⟨x, dom, false, true⟩ ∧
      (t.reg (.cdc x) 4).getLsbD dom.val = true) ∧
    ((s.isl[i.num]).up = true → ∃ t : State, exec (.clockWindow i counts) s = .next t ∧ t.fld blk (0x180 + 4 * dom.val) 16 0 = min (counts.getD dom.val 0) 0x1FFFF ∧
      ((s.reg blk 0x100).getLsbD 0 = true → (s.isl[i.num]).judge.contains dom = true → (s.isl[i.num]).skipWin.contains dom = false → (s.isl[i.num]).clkStop.contains dom = false →
        freqBad (s.domKhz dom.val) (s.tolOf i.num dom.val) (min (counts.getD dom.val 0) 0x1FFFF) = true → 8 ≤ dom.val → (t.reg blk 0x104).getLsbD dom.val = true)) ∧
    ((s.isl[i.num]).up = false → exec (.clockWindow i counts) s = .next s ∧ exec (.clockStopCount i dom) s = .next s) ∧
    ((s.isl[i.num]).up = true → (s.reg blk 0x100).getLsbD 0 = true → (s.isl[i.num]).judge.contains dom = true → (s.isl[i.num]).clkStop.contains dom = false →
      ∃ t : State, exec (.clockStopCount i dom) s = .next t ∧ (t.reg blk 0x108).getLsbD dom.val = true)

/-! ### Islands -/

/-- R521 to R523, R550, R551, R553, R612, R614, R629: the cross-link: a frame carries the island's level, its trigger count, SL4, ARM and its counter, under a CRC-8; a good frame gives the peer's level and ARM, a bad one is discarded; what takes an island to
SL4 raises its trigger, latches SL4, drops VALID and pulls FAULT_N low; firmware sets ARM once its conditions hold, and VALID rises when every one of its own does; the status frame leaves on both CAN ports, and the hub's ready bits in it read 0 while HUB_SILENT is active or
the hub link is down.
Where the spec leaves a point open, the clause is the model's own choice: log entries 52, 54. -/
def Obligations.IslandSafeState : Prop :=
  ∀ (ix : Isl) (f : BitVec 64) (s : State),
    let i := ix.num
    let k := s.isl[i]
    let safe := fun (t : State) (id : Nat) => (t.isl[i]).active id 0 = true ∧ (t.isl[i]).sl4 = true ∧ (t.isl[i]).level = 4 ∧ (t.isl[i]).valid = false ∧ t.faultLow = true
    let low := f &&& 0x00FFFFFFFFFFFFFF#64
    let l := s.statusBytes i
    let silent := k.active 0x15 0 || !s.hubLink i
    (k.up = true →
      (∃ t : State, exec (.forceSafeWrite ix) s = .next t ∧ safe t 0x1A ∧ t.jobState = s.jobState) ∧
      (k.pull = false → ∃ t : State, exec (.faultNLow ix) s = .next t ∧ safe t 0x17 ∧ (s.faultLow = true → t.faultExt = s.faultExt)) ∧
      (k.pull = true → exec (.faultNLow ix) s = .next s) ∧
      (k.active 0x16 0 = false → ∃ t : State, exec (.peerLost ix) s = .next t ∧ safe t 0x16 ∧ (t.isl[i]).fresh = false) ∧
      (k.active 0x16 0 = true → ∃ t : State, exec (.peerLost ix) s = .next t ∧ (t.isl[i]).fresh = false ∧ (t.isl[i]).trigs = k.trigs) ∧
      (∃ t : State, exec (.xlinkSend ix) s = .next t ∧ (t.isl[i]).frameCtr = k.frameCtr + 1 ∧ t.mem = s.mem ∧ t.regs = s.regs ∧
        (let v := (t.isl[i]).sentFrame.toNat
         v % 8 = k.own % 8 ∧ (k.own < 256 → v % 256 = k.own ∧ v / 256 % 256 = min 255 k.trigs.length ∧ v.testBit 16 = k.sl4 ∧ v.testBit 17 = s.armed i ∧ v / 2 ^ 24 % 2 ^ 32 = k.frameCtr.toNat ∧
           v / 2 ^ 56 = (crc8 ((t.isl[i]).sentFrame &&& 0x00FFFFFFFFFFFFFF#64)).toNat))) ∧
      (crc8 low ≠ (f >>> 56).setWidth 8 → exec (.xlinkFrame ix f) s = .next (s.orReg (.safe i) 0x1C 4#32)) ∧
      (crc8 low = (f >>> 56).setWidth 8 → ∃ t : State, exec (.xlinkFrame ix f) s = .next t ∧ (t.isl[i]).peer = f.toNat % 8 ∧ (t.isl[i]).peerArm = f.getLsbD 17 ∧ (t.isl[i]).fresh = true ∧
        (t.isl[i]).trigs = k.trigs ∧ (4 ≤ f.toNat % 8 → (t.isl[i]).sl4 = true ∧ (t.isl[i]).valid = false ∧ t.faultLow = true)) ∧
      (s.mayArm i = true → ∃ t : State, exec (.safeArm ix) s = .next t ∧ (Canonical s → t.armed i = true ∧
        (k.sl4 = false → k.peerArm = true → k.dropped = false → s.faultLow = false → (t.isl[i]).valid = true))) ∧
      ((k.func.getLsbD 21 = false ∨ k.func.getLsbD 22 = false ∨ k.kindSeen = false ∨ 4 ≤ k.level ∨ k.fresh = false ∨ s.mayArm i = false) → exec (.safeArm ix) s = .next s) ∧
      (∃ t : State, exec (.statusFrame ix) s = .next t ∧ t.out = s.out ++ [.islCan i 0 l, .islCan i 1 l] ∧ leNat ((l.drop 16).take 4) % 8 = k.level % 8 ∧
        (t.isl[i]).statusCtr = k.statusCtr + 1 ∧ t.mem = s.mem ∧ t.regs = s.regs) ∧
      (silent = true → leNat ((l.drop 28).take 4) / 4 = 0 ∧ exec (.funcReadyPoll ix) s = .next s) ∧
      (silent = false → ∃ t : State, exec (.funcReadyPoll ix) s = .next t ∧ (t.isl[i]).func = s.funcReady ∧ (t.isl[i]).jobId = s.reg .job 0x14 ∧ t.regs = s.regs ∧ t.mem = s.mem)) ∧
    (k.up = false → exec (.forceSafeWrite ix) s = .next s ∧ exec (.xlinkSend ix) s = .next s ∧ exec (.xlinkFrame ix f) s = .next s ∧ exec (.peerLost ix) s = .next s ∧
      exec (.safeArm ix) s = .next s ∧ exec (.statusFrame ix) s = .next s ∧ exec (.funcReadyPoll ix) s = .next s)

/-- R526, R527, R529 to R531, R539, R541 to R543, R547 to R549, R615: the safety page and the reports: a poll takes the time, but not while the hub is silent, and the beat, and applies the entries of the mailbox, a raise and a clear; a beat that stands still and an output that is late raise their
triggers; a report raises what it names, a second pair mismatch within 600 s fences the die, other reports count for the health of their part, and a trigger of a pair clears with those that met the same JOB_KIND; a self-test slice starts in its window, ends, and a failed one reports.
Where the spec leaves a point open, the clause is the model's own choice: log entries 51, 53. -/
def Obligations.SafetyPageAndReports : Prop :=
  ∀ (ix : Isl) (idx : Fin 32) (d : Fin 4) (e : Fin 5) (u : Fin 19) (pass : Bool) (r : Report) (f : Nat × Nat × Nat) (s : State),
    let i := ix.num
    let k := s.isl[i]
    let page := s.safePage i
    let j := k.mbRead
    let a := page + 0x800 + 8 * (j.toNat % 256)
    let w : W32 := BitVec.ofNat 32 (s.num a 4)
    let id := bits w 15 8
    let inst := bits w 7 0
    let polled := fun (t : State) => (t.isl[i]).time = (if k.active 0x15 0 then k.time else s.hub.tb.now) ∧ (t.isl[i]).beat = BitVec.ofNat 32 (s.num (page + 4) 4) ∧ (t.isl[i]).clears = []
    let x := s.tests[d]
    let pos := tallyOf x.pos u
    let left := x.slices.filter (fun r => r.unit ≠ u)
    let runs := s.clkStopped d = false
    let heard := { s with inbox := s.inbox.set i ((s.inbox[i]).erase r) }
    let acts := match r with | .pairMismatch _ => true | .cellParity _ _ => true | .cdcStall _ => true | .sliceFail _ => true | .seqDone _ _ => true | .hotTrip _ => true | _ => false
    (s.polls i = false → exec (.safetyPoll ix) s = .next s ∧ exec (.hubSilent ix) s = .next s ∧ exec (.outputMissing ix idx) s = .next s) ∧
    (s.polls i = true → k.clears = [] → k.kindSeen = false →
      (s.num page 4 = j.toNat → ∃ t : State, exec (.safetyPoll ix) s = .next t ∧ polled t ∧ (t.isl[i]).mbRead = j ∧ (t.isl[i]).trigs = k.trigs) ∧
      (s.num page 4 = (j + 1).toNat → s.num (a + 4) 4 = j.toNat → mailOk w = true → w.getLsbD 31 = true → id ≠ 8 → k.active id inst = false →
        ∃ t : State, exec (.safetyPoll ix) s = .next t ∧ polled t ∧ (t.isl[i]).mbRead = j + 1 ∧ (∃ y, (t.isl[i]).trigs = ⟨id, inst, k.mailLevel w, y⟩ :: k.trigs)) ∧
      (s.num page 4 = (j + 1).toNat → s.num (a + 4) 4 = j.toNat → mailOk w = true → w.getLsbD 31 = false → (id < 8 ∨ id = 9) →
        ∃ t : State, exec (.safetyPoll ix) s = .next t ∧ polled t ∧ (t.isl[i]).mbRead = j + 1 ∧ (t.isl[i]).trigs = k.trigs.filter (fun t => !(t.id == id && t.inst == inst)))) ∧
    (s.polls i = true → k.func.getLsbD 3 = true → s.num (page + 4) 4 = k.beat.toNat → k.active 0x15 0 = false →
      ∃ t : State, exec (.hubSilent ix) s = .next t ∧ (t.isl[i]).active 0x15 0 = true ∧ (t.isl[i]).sl4 = true ∧ (t.isl[i]).valid = false ∧ (Canonical s → (t.reg (.safe i) 0x1C).getLsbD 1 = true)) ∧
    (s.polls i = true → (s.num (page + 4) 4 ≠ k.beat.toNat ∨ k.func.getLsbD 3 = false ∨ k.active 0x15 0 = true) → exec (.hubSilent ix) s = .next s) ∧
    (s.polls i = true → k.kindSeen = true → s.num (page + 0x104 + 8 * idx.val) 4 ≠ 0 → k.active 0x12 idx.val = false →
      ∃ t : State, exec (.outputMissing ix idx) s = .next t ∧ (∃ y, (t.isl[i]).trigs = ⟨0x12, idx.val, 3, y⟩ :: k.trigs)) ∧
    (s.polls i = true → (k.kindSeen = false ∨ s.num (page + 0x104 + 8 * idx.val) 4 = 0) → exec (.outputMissing ix idx) s = .next s) ∧
    (k.up = false → exec (.faultReport ix r) s = .next heard) ∧
    (k.up = true → acts = false → exec (.faultReport ix r) s = .next (match healthOf r with | some (p, w) => if i = 1 then heard.healthAdd p w else heard | none => heard)) ∧
    (k.up = true → k.active 0x0F d.val = false → k.pairAt = [] → ∃ t : State, exec (.faultReport ix (.pairMismatch d)) s = .next t ∧ (∃ y, (t.isl[i]).trigs = ⟨0x0F, d.val, 3, y⟩ :: k.trigs) ∧
      (t.isl[i]).pairAt = [(d.val, k.time.toNat)] ∧ ((∀ x, s.readmitting x = false) → t.inbox[i] = (s.inbox[i]).erase (.pairMismatch d))) ∧
    (k.up = true → (∃ p ∈ k.pairAt, p.1 = d.val ∧ k.time.toNat ≤ p.2 + 600000000000) → ∃ t : State, exec (.faultReport ix (.pairMismatch d)) s = .next t ∧
      (Canonical s → t.fenced (Fin.ofNat 7 d.val) = true)) ∧
    (k.up = true → (∃ t : State, exec (.faultReport ix (.hotTrip 0)) s = .next t ∧ (t.isl[i]).active 0x1A 0 = true ∧ (t.isl[i]).sl4 = true)) ∧
    (k.up = true → k.pairSeen.find? (fun x => x.2.1 == d.val) = some f → ∃ t : State, exec (.pairTriggerClear ix d) s = .next t ∧ (t.isl[i]).pairSeen = k.pairSeen.filter (fun x => x.2 != f.2) ∧
      (∀ x ∈ k.pairSeen, x.2 = f.2 → (t.isl[i]).active x.1 d.val = false) ∧ (∀ id inst, (∀ x ∈ k.pairSeen, x.2 = f.2 → (x.1, d.val) ≠ (id, inst)) → (t.isl[i]).active id inst = k.active id inst)) ∧
    (k.up = false ∨ (∀ x ∈ k.pairSeen, x.2.1 ≠ d.val) → exec (.pairTriggerClear ix d) s = .next s) ∧
    (∀ logic len, (testSeq u)[pos]? = some (logic, len) → runs → (∀ r ∈ x.slices, r.unit ≠ u ∧ (r.logic && logic) = false) → s.sliceOk d u len = true →
      exec (.sliceStart d u) s = .next ({ s with tests := s.tests.set d { x with slices := x.slices ++ [⟨u, logic, s.now⟩] } } : State).grantLower) ∧
    (∀ logic len, (testSeq u)[pos]? = some (logic, len) → s.sliceOk d u len = false → exec (.sliceStart d u) s = .next s) ∧
    ((∃ r ∈ x.slices, r.unit = u) → exec (.sliceStart d u) s = .next s) ∧
    (runs → (∃ y ∈ x.slices, y.unit = u) →
      (pos + 1 < (testSeq u).length → exec (.sliceEnd d u true) s = .next { s with tests := s.tests.set d { x with slices := left, pos := tally x.pos u (pos + 1) } }) ∧
      ((testSeq u).length ≤ pos + 1 → ∃ t : State, exec (.sliceEnd d u true) s = .next t ∧ tallyOf (t.tests[d]).pos u = 0 ∧ u.val ∈ (t.tests[d]).done ∧ t.inbox = s.inbox.map (fun l => l ++ [.seqDone (d.castLE (by omega)) u])) ∧
      (∃ t : State, exec (.sliceEnd d u false) s = .next t ∧ t.tests[d] = { x with slices := left } ∧ t.inbox = s.inbox.map (fun l => l ++ [.sliceFail (d.castLE (by omega))]))) ∧
    ((∀ y ∈ x.slices, y.unit ≠ u) → exec (.sliceEnd d u pass) s = .next s) ∧
    (k.up = true → k.active 0x0E e.val = false → ∃ t : State, exec (.testStarved ix e u) s = .next t ∧ tallyOf (t.isl[i]).starved (e.val * 32 + u.val) = tallyOf k.starved (e.val * 32 + u.val) + 1 ∧
      (∃ y, (t.isl[i]).trigs = ⟨0x0E, e.val, min 2 (tallyOf k.starved (e.val * 32 + u.val) + 1), y⟩ :: k.trigs))

/-! ### Power, resets, temperature -/

/-- R586, R587, R589 to R593, R596, R597: PWROK falling resets the hub and the compute dies, which stay in reset while it is low, and has each island enter SL4; its rise lets them go and resets an island that captured the fall, after a dump under way; a supervisor holds its island in reset, whose supply may be gone, and releases it: its ROM brings it up where it accepts a firmware
and a configuration, and never with a blank OTP in OPEN; a sleep
frame has SIA enter SL4 and each island owe a sleep-ready frame; ten samples of a rail outside its tolerance in a row end service; a die's mean power and reading reach SIA.
Where the spec leaves a point open, the clause is the model's own choice: log entries 37, 38, 80, 83. -/
def Obligations.PowerAndResets : Prop :=
  ∀ (ix : Isl) (port : Fin 2) (data : List (BitVec 8)) (v : List Int) (d : Fin 5) (p : Nat) (temp : Int) (s : State),
    let i := ix.num
    let k := s.isl[i]
    let a : Island := s.isl[(0 : Fin 2)]
    let b : Island := s.isl[(1 : Fin 2)]
    let e := s.therm.est[d]
    let mean := if e.2 = 0 then s.therm.power[d] else e.1 / e.2
    let x := if b.up then s.resetMain.evalParts else s.resetMain
    let otp := (s.boots[1 + i.val]).otp
    let flash := Config.flashDir i s.free
    let accepts := (firstImage otp 1 (dirImages flash 1) 0).1.isSome = true ∧ (firstImage otp 2 ((dirImages flash 2).take 1) 0).1.isSome = true
    (s.pwrok = true → ∃ t : State, exec .pwrokFall s = .next t ∧ t.pwrok = false ∧ t.cells = State.reset.cells ∧ t.hosts = State.reset.hosts ∧ t.hub = Hub.reset ∧ t.job = JobSt.reset ∧ t.crates = [] ∧ t.jtag = s.jtag ∧
      (∀ x, inIsl 1 x = true → t.byte x = s.byte x) ∧
      (∀ x, inIsl 0 x = false → inIsl 1 x = false → t.byte x = 0 ∧ t.rd x = regReset x) ∧
      (k.up = true → (t.isl[i]).sl4 = true ∧ (t.isl[i]).valid = false ∧ (t.isl[i]).active 0x1A 0 = true ∧ (t.isl[i]).pwrLow = k.rel) ∧ (k.up = false → t.isl[i] = { k with pwrLow := k.rel })) ∧
    (s.pwrok = false → exec .pwrokFall s = .next s) ∧
    (s.pwrok = true → exec .pwrokRise s = .next s) ∧
    (s.pwrok = false → a.pwrLow = false → b.pwrLow = false → exec .pwrokRise s = .next x ∧ x.pwrok = true) ∧
    (s.pwrok = false → a.pwrLow = true → b.pwrLow = false → s.dump.run = none → ∃ t : State, exec .pwrokRise s = .next t ∧ t = x.startIsland 0 ∧ (t.isl[(0 : Fin 2)]).trigs = [] ∧ (t.isl[(0 : Fin 2)]).sl4 = false ∧
      t.isl[(1 : Fin 2)] = x.isl[(1 : Fin 2)] ∧ t.therm = Therm.reset ∧ t.cells = State.reset.cells ∧ t.pwrok = true) ∧
    (s.pwrok = false → a.pwrLow = true → b.pwrLow = false → s.dump.run ≠ none → exec .pwrokRise s = .next (x.modIsl 0 (fun k => { k with pwrLow := false, resetDue := true }))) ∧
    (∃ (t : State) (off : Bool), exec (.supervisorReset ix) s = .next t ∧
      t.isl[i] = { Island.reset with rel := false, sram := if off then [] else k.sram, sramEcc := if off then [] else k.sramEcc } ∧ t.isl[1 - i] = s.isl[1 - i] ∧ t.inbox[i] = [] ∧ t.cells = s.cells ∧
      (off = true → ∀ x, inIsl i.val x = true → t.byte x = 0) ∧ (∀ x, inIsl i.val x = false → t.byte x = s.byte x) ∧
      (∀ x, inIsl i.val x = true → t.rd x = regReset x) ∧ (∀ x, inIsl i.val x = false → t.rd x = s.rd x)) ∧
    (k.up = true → exec (.supervisorRelease ix) s = .next s) ∧
    (k.up = false → exec (.supervisorRelease ix) s = .next (s.startIsland i) ∧ (((s.startIsland i).isl[i]).up = true ↔ otp.blank = false ∧ accepts)) ∧
    (i = 0 → ∃ u : Bool, (s.startIsland i).isl[(0 : Fin 2)] = { Island.reset with up := u, sram := a.sram, sramEcc := a.sramEcc } ∧ (s.startIsland i).isl[(1 : Fin 2)] = b ∧ (s.startIsland i).free = s.free + 1) ∧
    (a.up = true → isSleepFrame data = true → ∃ t : State, exec (.sleepFrame port data) s = .next t ∧ (t.isl[(0 : Fin 2)]).active 0x1A 0 = true ∧ (t.isl[(0 : Fin 2)]).sl4 = true ∧
      (t.isl[i]).sleep = k.up ∧ (b.up = false → t.hlth.flash = s.hlth.flash) ∧
      (b.up = true → ∃ f, t.hlth.flash = some f ∧ f.buckets = s.hlth.buckets ∧ f.ages = s.hlth.ages ∧ f.hours = s.reg .hlth 4)) ∧
    (a.up = false ∨ isSleepFrame data = false → exec (.sleepFrame port data) s = .next s) ∧
    (k.sleep = true → ∃ t : State, exec (.sleepReady ix) s = .next t ∧ (t.isl[i]).sleep = false ∧ (t.isl[i]).statusCtr = k.statusCtr + 1 ∧ t.regs = s.regs ∧
      (∃ l, l.length = 20 ∧ leNat (l.take 4) = k.statusCtr.toNat ∧ leNat ((l.drop 12).take 2) = (Config.statusId i).toNat ∧ t.out = s.out ++ [.islCan i 0 l, .islCan i 1 l])) ∧
    (k.sleep = false → exec (.sleepReady ix) s = .next s) ∧
    (k.up = true → ∃ t : State, exec (.adcSample ix v) s = .next t ∧ (∀ c : Fin 2, (t.isl[i]).coolant[c] = coolantOk (v.getD c.val 0)) ∧
      (∀ c : Fin 8, (t.isl[i]).rail[c] = v.getD c.val 0) ∧ (∀ c : Fin 8, (t.isl[i]).railBad[c] = if c.val < 2 ∨ railOk c.val (v.getD c.val 0) = true then 0 else k.railBad[c] + 1) ∧
      ((∃ c : Fin 8, 2 ≤ c.val ∧ railOk c.val (v.getD c.val 0) = false ∧ k.railBad[c] = 9) → (t.isl[i]).active 0x1A 0 = true ∧ (t.isl[i]).sl4 = true) ∧
      (ix = .sib → (∀ c : Fin 8, k.railBad[c] < 9) → (t.isl[i]).trigs = k.trigs)) ∧
    (k.up = false → exec (.adcSample ix v) s = .next s ∧ exec (.flowPulse ix) s = .next s) ∧
    (k.up = true → exec (.flowPulse ix) s = .next ((if i = 1 then s.rollPulses 1 else s).modIsl i (fun k => { k with pulses := k.pulses + 1 }))) ∧
    ((h : d.val < 4) → s.clocked5 d → s.therm.cap[d.val] = none → exec (.powerEstimate d p) s = .next (s.modTherm (fun t => { t with est := t.est.set d (e.1 + p, e.2 + 1) }))) ∧
    ((h : d.val < 4) → s.clocked5 d → ∀ w, s.therm.cap[d.val] = some w → exec (.powerEstimate d p) s = .next (s.modTherm (fun t => { t with est := t.est.set d (e.1 + min p (10 * w), e.2 + 1) }))) ∧
    (d = 4 → exec (.powerEstimate d p) s = .next (s.modTherm (fun t => { t with est := t.est.set d (e.1 + p, e.2 + 1) }))) ∧
    (a.up = true → s.reaches d = true → ∃ t : State, exec (.powerReport d temp) s = .next t ∧ t.therm.power[d] = mean ∧ t.therm.reading[d] = temp ∧ t.therm.age[d] = 0 ∧ t.therm.est[d] = (0, 0) ∧
      (Canonical s → (t.reg .therm (0x30 + 4 * d.val)).toNat = min mean 0xFFFF) ∧ t.isl = s.isl) ∧
    (a.up = false ∨ s.reaches d = false → exec (.powerReport d temp) s = .next s)

/-- R595, R596, R598 to R605, R608: the ladder: each step of the model takes every node on by 1 ms, its hot spots at least to what is measured, and forecasts the temperatures 20 ms ahead with the powers held; a die whose forecast reaches T_DOWN takes a step down, 20 ms after its last; a governor applies its command where SIA's links reach it; a die that does not acknowledge is fenced; stopped
flow clamps the dies to the lowest step and raises THERMAL, and 10 s of flow release the clamp; a die's error line is reported.
Where the spec leaves a point open, the clause is the model's own choice: log entries 55, 79, 81. -/
def Obligations.ThermalLadder : Prop :=
  ∀ (d : Fin 4) (x : Fin 5) (y : Fin 7) (st : Fin 4) (s : State),
    let a : Island := s.isl[(0 : Fin 2)]
    let r := s.therm
    let die : Fin 7 := Fin.ofNat 7 d.val
    let m := (s.modTherm (fun t => { t with age := t.age.map (· + 1) })).thermIn
    let reach := s.reaches (d.castLE (by omega)) = true
    (a.up = true → ∃ t : State, exec .thermalStep s = .next t ∧ t.therm.node[2 * x.val]'(by omega) = max ((m.run 10 r.node.toList).getD (2 * x.val) 0) (r.reading[x] * 2 ^ 26) ∧
      t.therm.node[2 * x.val + 1]'(by omega) = (m.run 10 r.node.toList).getD (2 * x.val + 1) 0 ∧ t.therm.age = r.age.map (· + 1) ∧
      (Canonical s → t.fld .therm (0x10 + 4 * y.val) 15 0 = nodeTemp ((m.run 200 t.therm.node.toList).getD (hotNode y.val) 0)) ∧
      (s.unfenced d = true → (s.reg .therm 0).getLsbD 0 = true → r.cmd[d] = none →
        (t.tDown ≤ t.forecast d → s.stepOf d < 3 → 19 ≤ r.since[d] → t.therm.cmd[d] = some (Fin.ofNat 4 (s.stepOf d + 1)) ∧ t.therm.since[d] = 0 ∧ t.therm.below[d] = 0) ∧
        (t.tDown ≤ t.forecast d → r.since[d] < 19 → t.therm.cmd[d] = none ∧ t.therm.since[d] = r.since[d] + 1) ∧
        (t.forecast d < t.tUp → t.forecast d < t.tDown → 999 ≤ r.below[d] → 0 < s.stepOf d → s.clamped = false → t.therm.cmd[d] = some (Fin.ofNat 4 (s.stepOf d - 1)))) ∧
      (s.unfenced d = false → t.therm.cmd[d] = r.cmd[d] ∧ t.therm.since[d] = r.since[d] + 1)) ∧
    (a.up = false → exec .thermalStep s = .next s ∧ exec .flowTimeout s = .next s ∧ exec .clampRelease s = .next s ∧ exec (.ladderAckTimeout d) s = .next s) ∧
    (r.cmd[d] = some st → s.unfenced d = true → s.reaches (d.castLE (by omega)) = true → ∃ t : State, exec (.ladderApply d) s = .next t ∧ t.therm.cmd[d] = none ∧ (∀ i : Fin 2, Fin.ofNat 18 d.val ∈ (t.isl[i]).skipWin) ∧
      (Canonical s → t.stepOf d = st.val ∧ (∀ e : Fin 4, e ≠ d → t.stepOf e = s.stepOf e) ∧ (t.reg (.path d) 0x28).toNat = (tickOf st.val).1 ∧ (t.reg (.reg (d.castLE (by omega))) 4).toNat = (tickOf st.val).2)) ∧
    (r.cmd[d] = none ∨ s.unfenced d = false → exec (.ladderApply d) s = .next s ∧ exec (.ladderAckTimeout d) s = .next s) ∧
    (s.reaches (d.castLE (by omega)) = false → exec (.ladderApply d) s = .next s) ∧
    (a.up = true → r.cmd[d] = some st → s.unfenced d = true → ∃ t : State, exec (.ladderAckTimeout d) s = .next t ∧ t.therm.cmd[d] = none ∧
      (Canonical s → t.fenced die = true ∧ (t.reg .therm 0x64).getLsbD 5 = true)) ∧
    (a.up = true → s.clamped = false → Canonical s → ∃ t : State, exec .flowTimeout s = .next t ∧ t.clamped = true ∧ (t.reg .therm 0x64).getLsbD 0 = true ∧
      (s.unfenced d = true → t.therm.cmd[d] = some 3) ∧ t.therm.cap[d] = (if reach then some (match r.host with | none => 20 | some h => if d = h then 50 else 10) else r.cap[d]) ∧
      ((∀ g ∈ a.trigs, g.id ≠ 0x18) → (t.isl[(0 : Fin 2)]).active 0x18 0 = true)) ∧
    (a.up = true → s.clamped = true → exec .flowTimeout s = .next (s.orReg .therm 0x64 1#32)) ∧
    (a.up = true → s.clamped = true → 400 ≤ s.fld .therm 0x58 15 0 → r.outlet < 3 → Canonical s → ∃ t : State, exec .clampRelease s = .next t ∧ t.clamped = false ∧ (reach → t.therm.cap[d] = none) ∧ t.therm.below[d] = 0 ∧
      t.therm.cmd = r.cmd) ∧
    (s.clamped = false ∨ s.fld .therm 0x58 15 0 < 400 ∨ 3 ≤ r.outlet → exec .clampRelease s = .next s) ∧
    (exec (.hotTrip y) s = .next { s with inbox := s.inbox.map (fun l => l ++ [.hotTrip y]) })

/-! ### Health -/

/-- R22, R571 to R577, R580 to R582, R585, R611, R694 to R697: SIB's scores: a reading scores each part against its thresholds, a part at LIMIT raises HEALTH and its die is fenced; an hour rolls the buckets, takes a monitor's first measurement, where its die's rail is steady, as its baseline and writes
the record to flash; the health frame leaves on both ports; a readmission that runs out is abandoned; a fenced die in readmission is reset, and no other, keeps its ladder step, and its neighbours hold their crossings toward it; DRAM that has trained is reported.
Where the spec leaves a point open, the clause is the model's own choice: log entries 57, 93. -/
def Obligations.HealthAndReadmission : Prop :=
  ∀ (n c j : Nat) (counts : List (Nat × Nat)) (d : Fin 4) (w : Fin 5) (gib : Nat) (s : State),
    let b : Island := s.isl[(1 : Fin 2)]
    let h := s.hlth
    let k := (counts.getD j (0, 0))
    let busy := (s.reg .hlth 0xC).getLsbD (4 + d.val)
    let stopped := ∃ i : Fin 2, ∃ q ∈ (s.isl[i]).clkStop, q.val = d.val ∨ q.val = 4 + d.val
    let die : Fin 7 := Fin.ofNat 7 d.val
    let step := s.fld .therm 8 (2 * d.val + 1) (2 * d.val)
    let trains := ∀ h : w.val < 4, s.fenced (Fin.ofNat 7 w.val) = false ∨ s.readmitting ⟨w.val, h⟩ = true ∧ s.hlth.resetDone.contains ⟨w.val, h⟩ = true ∧ s.clkStopped ⟨w.val, h⟩ = false
    let trained : State := { s with dramGib := s.dramGib.set w (some gib) }
    (s.pwrok = false → exec (.hourBoundary counts) s = .next s) ∧
    (b.up = false → exec .healthRead s = .next s ∧ exec (.hourBoundary counts) s = .next s ∧ exec .healthFrame s = .next s) ∧
    (b.up = true → partClass n = some c → Canonical s → ∃ t : State, exec .healthRead s = .next t ∧
      (let v := t.score99 n c
       (t.reg .hlth (0x100 + 4 * n)).toNat = v ∧ (t.reg .hlth (0x40 + 4 * (n / 32))).getLsbD (n % 32) = decide (t.warnAt c ≤ v) ∧ (t.reg .hlth (0x50 + 4 * (n / 32))).getLsbD (n % 32) = decide (t.limitAt c ≤ v) ∧
         (t.limitAt c ≤ v → (t.isl[(1 : Fin 2)]).active 0x19 n = true ∧ ∀ x, partDie n = some x → t.fenced (Fin.ofNat 7 x.val) = true) ∧
         (v < t.warnAt c → (t.isl[(1 : Fin 2)]).active 0x19 n = false))) ∧
    (b.up = true → s.pwrok = true → Canonical s → ∃ t : State, exec (.hourBoundary counts) s = .next t ∧ t.reg .hlth 4 = s.reg .hlth 4 + 1 ∧ t.hlth.buckets = [] :: h.buckets.take 99 ∧
      t.hlth.flash = some ⟨t.hlth.buckets, t.reg .hlth 4, t.hlth.ages, sha512 (identPub 2)⟩ ∧ t.isl = s.isl ∧ t.mem = s.mem ∧
      (20000 ≤ (s.reg .hlth 4 + 1).toNat → (t.reg .hlth 0x324).getLsbD 31 = true) ∧
      (j < 24 → s.railSteady (monDie j) = true → k.1 ≠ 0 → k.2 ≠ 0 → (∀ a ∈ h.ages, a.mon ≠ j) → ⟨monDie j, j, k, []⟩ ∈ t.hlth.ages)) ∧
    (b.up = true → ∃ t : State, exec .healthFrame s = .next t ∧ t.hlth.ctr = h.ctr + 1 ∧ t.regs = s.regs ∧
      (∃ l, l.length = 64 ∧ leNat (l.take 4) = h.ctr.toNat ∧ leNat ((l.drop 20).take 4) = (s.reg .hlth 0x40).toNat ∧ t.out = s.out ++ [.islCan 1 0 l, .islCan 1 1 l])) ∧
    (busy = true → Canonical s → ∃ t : State, exec (.readmitTimeout d) s = .next t ∧ (t.reg .hlth 0xC).getLsbD (4 + d.val) = false ∧ t.fld .hlth 0xC 23 16 = 8 ∧
      t.fld .hlth 0xC (25 + 2 * d.val) (24 + 2 * d.val) = min 3 (s.fld .hlth 0xC (25 + 2 * d.val) (24 + 2 * d.val) + 1) ∧
      (∀ i : Fin 2, Fin.ofNat 18 d.val ∈ (t.isl[i]).clkStop ∧ Fin.ofNat 18 (4 + d.val) ∈ (t.isl[i]).clkStop)) ∧
    (busy = false → exec (.readmitTimeout d) s = .next s) ∧
    (s.fenced die = true → busy = true → ¬ stopped → Canonical s → (∀ c ∈ s.crates, c.meets die = false) → ∃ t : State, exec (.dieReset d) s = .next t ∧
      (∀ x : CellId, t.cell x = if x.die = d then Cell.reset else s.cell x) ∧ t.paths[d] = PathUnit.reset ∧ t.lofts[d] = Loft.reset ∧ t.hosts = s.hosts ∧ t.hlth.resetDone.contains d = true ∧
      (∀ i : Fin 2, (t.isl[i]).trigs = (s.isl[i]).trigs ∧ (t.isl[i]).clkStop = (s.isl[i]).clkStop) ∧
      (∀ x, t.byte x = if inDie d.val x then 0 else s.byte x) ∧ (∀ x, inDie d.val x = true → x ≠ (Blk.path d).at 0x28 → x ≠ (Blk.reg (d.castLE (by omega))).at 4 → t.rd x = regReset x) ∧
      (t.reg (.path d) 0x28).toNat = (tickOf step).1 ∧ (t.reg (.reg (d.castLE (by omega))) 4).toNat = (tickOf step).2 ∧
      (∀ x, inDie d.val x = false → x ≠ (Blk.boot 0).at 4 → (∀ y o, y ∈ neighbours die → x ≠ (Blk.cdc y).at o) → t.rd x = s.rd x) ∧
      (∀ y ∈ neighbours die, s.crossing y (Fin.ofNat 18 (linkDom die)) = none → ∃ k, t.crossing y (Fin.ofNat 18 (linkDom die)) = some k ∧ k.reset = true)) ∧
    (s.fenced die = false ∨ busy = false ∨ stopped → exec (.dieReset d) s = .next s) ∧
    (¬ trains → exec (.dramTrained w gib) s = .next s) ∧
    (trains → Canonical s → ∃ t : State, exec (.dramTrained w gib) s = .next t ∧ t.dramGib[w] = some gib ∧ t.mem = s.mem ∧
      (w = 4 → (t.reg (.boot 0) 4) = s.reg (.boot 0) 4 ||| 0x14#32 ∧ 1 ≤ t.fld (.boot 0) 0 7 0) ∧
      (w.val < 4 → trained.dramDiffer = false → t.reg (.boot 0) 4 = s.reg (.boot 0) 4 ||| BitVec.ofNat 32 (2 ^ (5 + w.val))) ∧
      (w.val < 4 → trained.dramDiffer = true → t.fld (.boot 0) 0 15 8 = 8 ∧ (t.reg (.boot 0) 4) &&& 0x1E00#32 = 0))

/-! ### Jobs -/

/-- R413, R416, R418 to R422, R424, R428, R429, R431 to R434, R569: the JOB_ block: a start and a switch are checked and accepted or refused with their status, or overrun, and none is made where the hub has stopped, bring-up is abandoned, the capacities differ or IMAGES is not set (R22, R618, R628); a switch stops the running job; the wait for switch points ends in immediate mode; the stop ends
in the switch, or after an abort or a fault in IDLE; the restore is reported; the first bundles are released at User once no move of an earlier job is outstanding; a completion, an abort and a fault are captured; no running job takes the islands to SL4.
Where the spec leaves a point open, the clause is the model's own choice: log entries 32, 34, 59, 61, 62. -/
def Obligations.JobLife : Prop :=
  ∀ (imm late : Bool) (sw : W32) (ix : Isl) (c : CellId) (img : Nat) (code : Nat) (e : Bool) (s : State), Canonical s →
    let j := s.job
    let st := s.jobState
    let runs := s.noStart = false
    let done := Host.Outcome.next (s.hatchDone)
    let result := fun (t : State) (v : Nat) => t.reg .job 8 = status v 0
    let state := fun (t : State) (v : Nat) (busy : Bool) => t.jobState = v ∧ (t.reg .job 0).getLsbD 31 = busy
    let waits := fun (t : State) (n : Option Nat) (w : JobStop) (i : Bool) => t.job.next = n ∧ t.job.stop = some w ∧ t.job.imm = i
    let idle := fun (t : State) => state t 0 false ∧ t.job.next = none ∧ t.job.stop = none ∧ t.reg .job 0x14 = 0
    let stopped := (st = 3 ∨ st = 5) ∧ s.jobIsStopped = true ∧ s.jobDrained = true
    let sup := fun (t : State) => c.die ∈ s.diesOf j.cur → (t.cell c).level = .supervisor ∧ ∀ x ∈ (t.cell c).slv.toList, x.run ≠ .running
    (s.jobImage = img →
      (s.noStart = true → exec .jobStart s = .next s) ∧
      ((s.abandoned = true ∨ s.dramDiffer = true ∨ s.ready 21 = false) → s.noStart = true) ∧
      (runs → st ≠ 0 → exec .jobStart s = .next s.jobOverrun) ∧
      (runs → st = 0 → s.imageRefused img = some code → exec .jobStart s = .next (s.jobResult code)) ∧
      (runs → st = 0 → img ∉ j.eligible → exec .jobStart s = .next (s.jobResult 0x15)) ∧
      (runs → st = 0 → s.imageRefused img = none → ∃ t : State, exec .jobStart s = .next t ∧ t.job.next = some img ∧ t.job.stop = none ∧ t.job.cur = j.cur ∧ state t 1 true ∧
        (c.die ∈ s.liveDies img → (t.cell c).level = .supervisor ∧ (∀ m ∈ (t.cell c).moves, m.tok = none ∧ m.shelf = none) ∧ (t.cell c).slots = Vector.replicate 128 Slot.reset)) ∧
      (st ≠ 2 → exec (.jobSwitch imm) s = .next (s.setFld .job 0 3 3 (bit imm)).jobOverrun) ∧
      (st = 2 → s.imageRefused img = some code → exec (.jobSwitch imm) s = .next ((s.setFld .job 0 3 3 (bit imm)).jobResult code)) ∧
      (st = 2 → s.imageRefused img = none → ∃ t : State, exec (.jobSwitch imm) s = .next t ∧ waits t (some img) .switch imm ∧ state t 3 true ∧ t.cells = s.cells ∧ t.mem = s.mem ∧
        (∀ x ∈ t.tests.toList, x.slices = []))) ∧
    (st = 3 → j.stop = some .switch → j.imm = false → ∃ t : State, exec .switchWaitExpired s = .next t ∧ waits t j.next .switch true ∧ (t.reg .job 4).getLsbD 4 = true ∧ t.cells = s.cells) ∧
    (st ≠ 3 ∨ j.stop ≠ some .switch ∨ j.imm = true → exec .switchWaitExpired s = done) ∧
    (stopped → j.stop = some .switch → j.next = some img → ∃ t : State, exec .jobStopped s = .next t ∧ t.job.next = some img ∧ t.job.stop = none ∧ state t 4 true ∧ (j.imm = true → (t.reg .job 4).getLsbD 5 = true)) ∧
    (stopped → j.stop = some .abort → ∃ t : State, exec .jobStopped s = .next t ∧ idle t ∧ result t 1 ∧ sup t) ∧
    (stopped → j.stop = some .fault → ∃ t : State, exec .jobStopped s = .next t ∧ idle t ∧ sup t) ∧
    (j.stop = none ∨ ¬ stopped → exec .jobStopped s = done) ∧
    (j.restore = some e → ∃ t : State, exec .restoreComplete s = .next t ∧ t.job.restore = none ∧ t.fld .job 4 7 6 = (if e then 2 else 1) ∧ t.cells = s.cells) ∧
    (j.restore = none → exec .restoreComplete s = done) ∧
    let moving := ∃ x ∈ cellsOf (s.liveDies img), (s.cell x).moves ≠ []
    (j.next = some img → moving → exec (.jobRelease sw) s = done) ∧
    (j.next = some img → ¬ moving → (st = 1 ∨ st = 4) → s.fld .job 4 7 6 ≠ 0 → ∃ t : State, exec (.jobRelease sw) s = .next t ∧ t.job.cur = img ∧ t.job.next = none ∧ state t 2 false ∧ result t 0 ∧
      t.reg .job 0x14 = BitVec.ofNat 32 (s.img img 0xC) ∧ (st = 4 → t.reg .job 0x1C = sw) ∧ t.mem = s.mem ∧
      (c.die ∈ s.liveDies img → t.cell c = (s.cell c).release) ∧ (c.die ∉ s.liveDies img → t.cell c = s.cell c)) ∧
    (j.next = none ∨ (st ≠ 1 ∧ st ≠ 4) ∨ s.fld .job 4 7 6 = 0 → exec (.jobRelease sw) s = done) ∧
    (st = 2 → s.allHalted = true → ∃ t : State, exec .jobComplete s = .next t ∧ idle t ∧ result t 0 ∧ sup t) ∧
    (st = 3 → j.stop = some .switch → s.allHalted = true → exec .jobComplete s = .next (s.jobResult 0).hatchDone) ∧
    (st ≠ 2 → st ≠ 3 → exec .jobComplete s = done) ∧
    (s.allHalted = false → exec .jobComplete s = done) ∧
    ((st = 2 ∧ (late = false ∨ s.allHalted = false) ∨ st = 3 ∧ j.stop = some .switch) → ∃ t : State, exec (.jobAbort late) s = .next t ∧ waits t none .abort true ∧ state t 3 true ∧ t.cells = s.cells) ∧
    (st = 2 → late = true → s.allHalted = true → ∃ t : State, exec (.jobAbort late) s = .next t ∧ idle t ∧ t.reg .job 8 = status 0 0 true) ∧
    (st = 1 ∨ st = 4 → ∃ t : State, exec (.jobAbort late) s = .next t ∧ idle t ∧ result t 1) ∧
    (st = 0 ∨ st = 5 ∨ st = 3 ∧ j.stop ≠ some .switch → exec (.jobAbort late) s = .next s.jobOverrun.hatchDone) ∧
    (∀ d k cause r, s.jobFaults = (d, k, cause) :: r →
      (st = 2 ∨ st = 3 ∧ j.stop = some .switch → ∃ t : State, exec .jobFault s = .next t ∧ t.jobFaults = r ∧ waits t none .fault true ∧ state t 5 false ∧ result t 0x14 ∧ (t.reg .job 0x18).getLsbD 31 = true ∧
        ((s.reg .job 0x18).getLsbD 31 = false → bits (t.reg .job 0x18) 19 16 = d.val ∧ bits (t.reg .job 0x18) 15 12 = k.val ∧ bits (t.reg .job 0x18) 7 0 = cause.toNat) ∧
        ((s.reg .job 0x18).getLsbD 31 = true → t.reg .job 0x18 = s.reg .job 0x18 ||| 0x40000000#32)) ∧
      (st = 5 ∨ st = 3 ∧ j.stop ≠ some .switch → ∃ t : State, exec .jobFault s = .next t ∧ t.jobFaults = r ∧ t.jobState = st ∧ (t.reg .job 0x18).getLsbD 31 = true) ∧
      (st = 1 ∨ st = 4 → exec .jobFault s = done) ∧
      (st = 0 → exec .jobFault s = .next ({ s with jobFaults := r } : State).hatchDone)) ∧
    (s.jobFaults = [] → exec .jobFault s = done) ∧
    (j.driven = true → st ≠ 2 → (s.isl[ix.num]).up = true → ∃ t : State, exec (.noJob ix) s = .next t ∧ (t.isl[ix.num]).active 0x0A 0 = true ∧ (t.isl[ix.num]).sl4 = true) ∧
    (j.driven = false ∨ st = 2 ∨ (s.isl[ix.num]).up = false → exec (.noJob ix) s = .next s)

/-! ### Hatch -/

/-- R640 to R646, R653, R656, R664: the lines of the Hatch monitors: where nobody listens a line is lost; one that meets a request under way waits, or finds the buffer full and is answered ERR LINE, as is one of a wrong form; before any grant a request that needs a scope is not
answered; a ROM answers ERR CMD to it, and a request without its scope is answered ERR LOCKED; an unknown command, a wrong number of arguments, a request out of its range, of its window, on a checker, behind a crossing or a link that is cut, or a job command
that cannot run is answered with its error, and nothing else happens.
Where the spec leaves a point open, the clause is the model's own choice: log entry 71. -/
def Obligations.HatchRequests : Prop :=
  ∀ (l : List (BitVec 8)) (m : MonId) (pa n : Nat) (img : BitVec 40) (v : W32) (part : Option (Fin 128)) (x : CellId) (ci : Fin 8) (ev : Byte) (edge framing : Bool) (slot off entry : Nat) (d : Fin 7)
    (f : List (List Byte)) (c : List Byte × List Nat) (s : State),
    let u := fun (m : MonId) => s.modUart m (fun q => { q with tag := (lineTag l).getD 0 })
    let err := fun (m : MonId) (e : LineErr) => (Host.Outcome.next ((u m).reply m [] (some e)) : Out)
    let turn := fun (m : MonId) => s.listens m = true ∧ s.monBusy m = false ∧ lineFields l ≠ none
    let open_ := fun (m : MonId) (b : Nat) => turn m ∧ s.served m = true ∧ s.anyGrant m = true ∧ s.granted (monNum m) b = true
    let locked := fun (m : MonId) (b : Nat) => turn m ∧ s.served m = true ∧ s.anyGrant m = true ∧ s.granted (monNum m) b = false
    let hub : MonId := .hd
    let reads : List (Instr × Req) := [(.hatchHealth l part, .health part), (.countersRead l x, .countersRead x), (.countersHub l, .countersHub), (.hatchJobStatus l, .jobStatus), (.cellState l x, .cellState x),
      (.peek l .hd pa n, .peek .hd pa n), (.hatchReady l .hd, .ready .hd), (.cellRegRead l x 0 0 0, .cellRegRead x 0 0 0)]
    let writes : List (Instr × Req) := [(.poke l pa v, .poke pa v), (.countersSet l x ci ev edge, .countersSet x ci ev edge), (.hatchJobStart l img, .jobStart img), (.hatchJobSwitch l img, .jobSwitch img), (.hatchJobAbort l, .jobAbort),
      (.hatchCellHalt l x, .cellHalt x), (.hatchCellResume l x, .cellResume x), (.hatchCellStep l x 0, .cellStep x 0), (.cellRegWrite l x 0 0 0 v, .cellRegWrite x 0 0 0 v), (.cellBkpt l x 0 0 0, .cellBkpt x 0 0 0), (.cellBkptOff l x 0, .cellBkptOff x 0)]
    let others : List (Instr × Req) := [(.peek l m pa n, .peek m pa n), (.hatchReady l m, .ready m), (.dumpInfo l m slot, .dumpInfo m slot), (.dumpRead l m slot off n, .dumpRead m slot off n), (.dumpClear l slot, .dumpClear slot), (.readId l m, .readId m)]
    (∀ p ∈ reads ++ writes ++ others, let w := p.2.mon
      (s.listens w = false → exec p.1 s = .next s) ∧
      (s.listens w = true → s.monBusy w = true → 512 < (s.uart[monNum w]).bytes + l.length → exec p.1 s = .next (s.badLine w l)) ∧
      (s.listens w = true → s.monBusy w = true → (s.uart[monNum w]).bytes + l.length ≤ 512 → exec p.1 s = .next (s.modUart w (fun q => { q with wait := q.wait ++ [(l, p.2)] }))) ∧
      (s.listens w = true → s.monBusy w = false → lineFields l = none → exec p.1 s = .next (s.badLine w l))) ∧
    (turn hub → s.anyGrant hub = false → ∀ p ∈ reads ++ writes, exec p.1 s = .next (u hub)) ∧
    (turn m → s.anyGrant m = false → exec (.hatchReady l m) s = .next (u m) ∧ exec (.peek l m pa n) s = .next (u m) ∧ exec (.dumpInfo l m slot) s = .next (u m) ∧ exec (.dumpRead l m slot off n) s = .next (u m)) ∧
    (turn hub → s.anyGrant hub = true → s.served hub = false → ∀ p ∈ reads ++ writes, exec p.1 s = err hub .cmd) ∧
    (locked hub 0 → ∀ p ∈ reads, exec p.1 s = err hub .locked) ∧
    (locked hub 1 → ∀ p ∈ writes, exec p.1 s = err hub .locked) ∧
    (open_ m 0 →
      (n = 0 ∨ 64 < n → exec (.peek l m pa n) s = err m .arg) ∧
      (1 ≤ n → n ≤ 64 → monWindow m pa n = false → exec (.peek l m pa n) s = err m .priv) ∧
      (m ≠ .sib → 2 ≤ slot → exec (.dumpRead l m slot off n) s = err m .arg ∧ exec (.dumpInfo l m slot) s = err m .arg)) ∧
    (turn .sib → s.anyGrant .sib = true → exec (.dumpInfo l .sib slot) s = err .sib .cmd ∧ exec (.dumpRead l .sib slot off n) s = err .sib .cmd) ∧
    (open_ hub 0 →
      (s.hostCut hubBase = true → exec (.hatchJobStatus l) s = err hub .fault ∧ exec (.countersHub l) s = err hub .fault) ∧
      (s.hostCut (islBase 1) = true → exec (.hatchHealth l part) s = err hub .fault) ∧
      (s.hostCut (lsBase x) = true → exec (.countersRead l x) s = err hub .fault)) ∧
    (open_ hub 1 →
      (s.pokeBarred pa = true → exec (.poke l pa v) s = err hub .priv) ∧
      (s.pokeBarred pa = false → s.inChecker pa = true → exec (.poke l pa v) s = err hub .checker) ∧
      (s.pokeBarred pa = false → s.inChecker pa = false → (pa % 4 ≠ 0 ∨ superOk true pa = false ∨ s.hostCut pa = true) → exec (.poke l pa v) s = err hub .fault) ∧
      (s.isChecker x = true → exec (.countersSet l x ci ev edge) s = err hub .checker) ∧
      (s.isChecker x = false → evCode ev.toNat = false → exec (.countersSet l x ci ev edge) s = err hub .arg) ∧
      (Canonical s → s.jobState = 0 → (s.reg .job 0).getLsbD 31 = false →
        (∃ t : State, exec (.hatchJobAbort l) s = .next (t.reply .hd [] (some .state)) ∧ t.job = s.job ∧ t.out = s.out) ∧
        (∃ t : State, exec (.hatchJobSwitch l img) s = .next (t.reply .hd [] (some .state)) ∧ t.job = s.job ∧ t.out = s.out)) ∧
      (Canonical s → s.noStart = false → s.jobState = 2 → ∃ t : State, exec (.hatchJobStart l img) s = .next (t.reply .hd [] (some .state)) ∧ t.job = s.job)) ∧
    (open_ .sia 1 →
      (2 ≤ slot → exec (.dumpClear l slot) s = err .sia .arg) ∧
      (slot < 2 → s.dump.run ≠ none → exec (.dumpClear l slot) s = err .sia .state)) ∧
    (s.listens m = true → s.monBusy m = false →
      (framing = true ∨ lineFields l = none → exec (.lineError l m framing) s = .next (s.badLine m l)) ∧
      (lineFields l = some f →
        ((openCommands m).find? (fun p => p.1 == f.getD 1 []) = some c → (f.length - 2) ∉ c.2 → exec (.lineError l m false) s = err m .arg) ∧
        ((∀ p ∈ openCommands m ++ scopedCommands m, p.1 ≠ f.getD 1 []) → exec (.lineError l m false) s = if s.anyGrant m then err m .cmd else .next (u m)) ∧
        (s.served m = true → s.anyGrant m = true → (openCommands m).find? (fun p => p.1 == f.getD 1 []) = none → (scopedCommands m).find? (fun p => p.1 == f.getD 1 []) = some c → (f.length - 2) ∉ c.2 →
          exec (.lineError l m false) s = err m .arg))) ∧
    (s.listens m = false → exec (.lineError l m framing) s = .next s) ∧
    (s.dump.run = none → exec (.remoteReadTimeout d entry) s = .next s ∧ exec .dumpCaptured s = .next s ∧ exec .dumpSealed s = .next s)

/-- R641 to R646, R648, R653, R656 to R664: every request of a Hatch monitor completes, in every state in which it is its turn, its line has the right form, the monitor is served, holds the scope and reaches what the request names, and its answer echoes the tag: READY, HEALTH, COUNTERS and
JOB STATUS are answered from their registers; PEEK answers the words that memory holds; POKE writes one word and no other byte, and answers it; COUNTERS SET sets its counter; a job command runs, and is answered when it ends; DUMP answers the words of its slot, and
clears it; a broken line is answered, a line that stops is dropped; a failed read of a dump is noted with its entry, its records are written, and it is sealed.
Where the spec leaves a point open, the clause is the model's own choice: log entries 71, 72. -/
def Obligations.HatchCompletions : Prop :=
  ∀ (l : List (BitVec 8)) (m : MonId) (pa n : Nat) (img : BitVec 40) (v : W32) (p : Fin 128) (x : CellId) (ci : Fin 8) (ev : Byte) (edge : Bool) (slot off entry : Nat) (tag : Byte) (d : Fin 7) (code : Nat) (k : Fin 2) (y : Nat) (s : State),
    let low := (s.reg .job 0xC &&& 0x1FF#32) ||| (img.setWidth 32 &&& 0xFFFFFE00#32)
    let image := low.toNat + img.toNat / 2 ^ 32 * 2 ^ 32
    let u := fun (m : MonId) => s.modUart m (fun q => { q with tag := (lineTag l).getD 0 })
    let open_ := fun (m : MonId) (b : Nat) => s.listens m = true ∧ s.monBusy m = false ∧ lineFields l ≠ none ∧ s.served m = true ∧ s.anyGrant m = true ∧ s.granted (monNum m) b = true
    let plain := fun (m : MonId) (write : Bool) (a : Nat) => a % 4 = 0 ∧ placeOf a = .mem ∧ s.inChecker a = false ∧ superOk write a = true ∧ s.monCut m a = false
    let words := fun (a n : Nat) => (List.range n).map (fun i => (BitVec.ofNat 32 (s.num (a + 4 * i) 4) : W32))
    let answers := fun (i : Instr) (m : MonId) (w : List W32) => ∃ t : State, exec i s = .next (t.reply m w none) ∧ t = { u m with tests := t.tests }
    let q := (s.cell (s.mainOf x)).perf
    -- READ of a monitor
    ((u m).reqTag m = (lineTag l).getD 0) ∧
    (open_ m 0 →
      exec (.hatchReady l m) s = .next ((u m).reply m [s.funcReady, s.safeLevel 0, s.safeLevel 1] none) ∧
      (1 ≤ n → n ≤ 64 → monWindow m pa n = true → s.ecc = [] → (∀ i, i < n → plain m false (pa + 4 * i)) → answers (.peek l m pa n) m (words pa n)) ∧
      (m ≠ .sib → slot < 2 → off % 4 = 0 → 1 ≤ n → n ≤ 64 → off + 4 * n ≤ 0x1000000 → s.ecc = [] → (∀ i, i < n → plain m false (atticSlot slot + off + 4 * i)) →
        answers (.dumpRead l m slot off n) m (words (atticSlot slot + off) n)) ∧
      (m ≠ .sib → slot < 2 → s.ecc = [] → (∀ i, i < 64 → plain m false (atticSlot slot + 4 * i)) → answers (.dumpInfo l m slot) m (words (atticSlot slot) 64))) ∧
    -- READ of the hub's monitor
    (open_ .hd 0 →
      (s.hostCut hubBase = false →
        exec (.hatchJobStatus l) s = .next ((u .hd).reply .hd [s.reg .job 4, s.reg .job 8, s.reg .job 0x14] none) ∧
        exec (.countersHub l) s = .next ((u .hd).reply .hd ((List.range 16).map (fun k => s.reg (.reg 4) (0x40 + 4 * k))) none)) ∧
      (s.hostCut (islBase 1) = false →
        exec (.hatchHealth l (some p)) s = .next ((u .hd).reply .hd [s.reg .hlth (0x100 + 4 * p.val)] none) ∧
        exec (.hatchHealth l none) s = .next ((u .hd).reply .hd ([s.reg .hlth 8, s.reg .hlth 4] ++ (List.range 4).map (fun k => s.reg .hlth (0x40 + 4 * k)) ++ (List.range 4).map (fun k => s.reg .hlth (0x50 + 4 * k))) none)) ∧
      (s.hostCut (lsBase x) = false → ∃ (t : State) (w : List W32), exec (.countersRead l x) s = .next (t.reply .hd w none) ∧ t.out = s.out ∧ t.regs = s.regs ∧ w.length = 35 ∧
        w[0]? = some (BitVec.ofNat 32 (s.cell (s.mainOf x)).cycle) ∧ w[1]? = some (BitVec.ofNat 32 ((s.cell (s.mainOf x)).cycle / 2 ^ 32)) ∧
        (∀ i : Fin 8, w[2 + 2 * i.val]? = some ((q.cnt[i]).setWidth 32) ∧ w[3 + 2 * i.val]? = some (hi48 q.cnt[i]) ∧
          w[18 + 2 * i.val]? = some ((q.snap[i]).setWidth 32) ∧ w[19 + 2 * i.val]? = some (hi48 q.snap[i])))) ∧
    -- WRITE of the hub's monitor
    (open_ .hd 1 →
      (s.pokeBarred pa = false → plain .hd true pa → superOk false pa = true → inAcoPort pa = false → s.ecc = [] → Memory.wf s.mem = true →
        ∃ t : State, exec (.poke l pa v) s = .next (t.reply .hd [v] none) ∧ t.num pa 4 = v.toNat ∧ t.out = s.out ∧
          (∀ a, (s.home a < pa ∨ pa + 4 ≤ s.home a) → t.byte a = s.byte a) ∧ t.regs = s.regs) ∧
      (s.isChecker x = false → evCode ev.toNat = true → s.hostCut (lsBase x) = false → Canonical s → ∃ t : State, exec (.countersSet l x ci ev edge) s = .next (t.reply .hd [] none) ∧
        bits (t.reg (.perf x.num) (0x40 + 16 * ci.val)) 7 0 = ev.toNat ∧ (t.reg (.perf x.num) (0x40 + 16 * ci.val)).getLsbD 31 = true ∧ (t.reg (.perf x.num) (0x40 + 16 * ci.val)).getLsbD 30 = edge) ∧
      (Canonical s → s.noStart = false → s.jobState = 0 → (s.reg .job 0).getLsbD 31 = false → s.imageRefused image = some code →
        ∃ t : State, exec (.hatchJobStart l img) s = .next (t.reply .hd [status code 0] none) ∧ t.job.owed = false ∧ t.reg .job 0xC = low) ∧
      (Canonical s → s.noStart = false → s.jobState = 0 → s.imageRefused image = none →
        ∃ t : State, exec (.hatchJobStart l img) s = .next t ∧ t.job.owed = true ∧ t.job.next = some image ∧ t.job.stop = none ∧ t.jobState = 1 ∧ t.out = s.out) ∧
      (Canonical s → s.jobState = 2 → s.imageRefused image = none →
        ∃ t : State, exec (.hatchJobSwitch l img) s = .next t ∧ t.job.owed = true ∧ t.job.next = some image ∧ t.job.stop = some .switch ∧ t.out = s.out) ∧
      (Canonical s → s.jobState = 2 →
        ∃ t : State, exec (.hatchJobAbort l) s = .next t ∧ t.job.owed = true ∧ t.job.stop = some .abort ∧ t.jobState = 3 ∧ t.out = s.out)) ∧
    -- the dump, and the lines themselves
    (open_ .sia 1 → slot < 2 → s.dump.run = none → Memory.wf s.mem = true →
      ∃ t : State, exec (.dumpClear l slot) s = .next (t.reply .sia [] none) ∧ t.dumpState slot = 0 ∧ (slot = 0 → t.dump.seq = 0) ∧
        (∀ a, a ≠ atticSlot slot + 5 → t.byte a = s.byte a)) ∧
    (s.listens m = true → s.monBusy m = false → lineTag l = some tag → exec (.lineError l m true) s = .next (s.sendLines m [endLine tag (some .line)])) ∧
    (exec (.lineTimeout m) s = .next s) ∧
    (s.dump.run ≠ none → exec (.remoteReadTimeout d entry) s = .next { s with dump := { s.dump with fails := s.dump.fails.set d (entry :: s.dump.fails[d]) } }) ∧
    (s.dump.run = some (k, y) → Memory.wf s.mem = true → s.dumpState k.val = 1 →
      ∃ t : State, exec .dumpCaptured s = .next t ∧ t.dumpState k.val = 2 ∧ t.dump = s.dump ∧ (∀ a, (s.home a < atticSlot k.val ∨ atticSlot k.val + 0x1000000 ≤ s.home a) → t.byte a = s.byte a)) ∧
    (s.dump.run = some (k, y) → Memory.wf s.mem = true → s.dumpState k.val = 2 → (s.isl[(0 : Fin 2)]).resetDue = false →
      ∃ t : State, exec .dumpSealed s = .next t ∧ t.dumpState k.val = 3 ∧ t.dump.run = none ∧ t.isl = s.isl)

/-! ### Debugger, counters, samples -/

/-- R533, R558, R649 to R655, R665 to R674: debug halt, resume and step of a cell, by its registers and through Hatch; a debug access reads and writes a register of a halted engine and is refused otherwise, as each request of Hatch for a cell that is a checker or out of reach is; counters clear, are written while disabled, are latched whole
and go to the snapshots once a window's end is reached; a tagged issue leaves its record in the ring.
Where the spec leaves a point open, the clause is the model's own choice: log entries 64, 95, 124, 130. -/
def Obligations.CellDebugAndCounters : Prop :=
  ∀ (l : List (BitVec 8)) (c : CellId) (x : Fin 64) (i : Fin 8) (hi : Bool) (wr : Option (BitVec 32)) (v : W32) (idx : BitVec 15) (eng : BitVec 7) (pc : BitVec 16) (b : Fin 4) (code : Byte) (conf t0 : Nat) (tlb loft : Bool) (w : W32) (g : Tag) (s : State),
    let m := s.mainOf c
    let k := s.cell m
    let p := k.perf
    let blk := Blk.perf m.num
    let ring := s.fld (.perf c.num) 0x108 3 0
    let all := fun (t : State) (y : CellId) (r : Dbg) => (t.cell y).seq.dbg = r ∧ ∀ q ∈ (t.cell y).slv.toList, q.dbg = r
    let others := fun (t : State) (y : CellId) => (∀ z : CellId, z ≠ y → t.cell z = s.cell z) ∧ t.mem = s.mem ∧ t.hub = s.hub ∧ t.isl = s.isl
    let refused := s.dbgHalted m = false ∨ k.pairStopped = true
    let e : Engine := if eng = 0x40#7 then .seq c else .slv ⟨c, Fin.ofNat 64 eng.toNat⟩
    let u := s.modUart .hd (fun q => { q with tag := (lineTag l).getD 0 })
    let turn := fun (b : Nat) => s.listens .hd = true ∧ s.monBusy .hd = false ∧ lineFields l ≠ none ∧ s.served .hd = true ∧ s.anyGrant .hd = true ∧ s.granted 0 b = true
    let open_ := fun (b : Nat) => turn b ∧ s.hostCut (lsBase c) = false ∧ s.isChecker c = false
    let file := s.fld blk 0x408 17 15
    let ix := s.fld blk 0x408 14 0
    let marked := fun (e : Engine) => file = 5 ∧ ((s.cell (cellOf e)).tiles[Fin.ofNat 4 (ix / 4096)]).par.contains (ix % 4096) = true
    (s.dbgHalted m = true → exec (.dbgHalt c) s = .next s) ∧
    (s.dbgHalted m = false → ∃ t : State, exec (.dbgHalt c) s = .next t ∧ all t m .halted ∧ others t m ∧ (Canonical s → t.dbgHalted m = true)) ∧
    (refused → exec (.dbgResume c) s = .next (s.selErr m) ∧ exec (.dbgStep c) s = .next (s.selErr m)) ∧
    (¬ refused → ∃ t : State, exec (.dbgResume c) s = .next t ∧ all t m .run ∧ others t m ∧ (Canonical s → t.dbgHalted m = false)) ∧
    (¬ refused → s.dbgEngine m = some (.seq m) → exec (.dbgStep c) s = .next (s.modSeq m (fun q => { q with dbg := .step }))) ∧
    (¬ refused → s.dbgEngine m = some (.slv ⟨m, x⟩) → exec (.dbgStep c) s = .next (s.modSlv ⟨m, x⟩ (fun q => { q with dbg := .step }))) ∧
    (s.dbgEngine m = none → exec (.dbgDataAccess c wr) s = .next (s.selErr m)) ∧
    (∀ e, s.dbgEngine m = some e →
      (s.engineHalted e = false → exec (.dbgDataAccess c wr) s = .next (s.selErr m)) ∧
      (s.engineHalted e = true → s.dbgRead e file ix = none → exec (.dbgDataAccess c wr) s = .next (s.selErr m)) ∧
      (s.engineHalted e = true → s.dbgRead e file ix ≠ none → (¬ marked e → exec (.dbgDataAccess c none) s = .next s) ∧ (marked e → exec (.dbgDataAccess c none) s = .next (s.parity (cellOf e) true true))) ∧
      (s.engineHalted e = true → s.dbgRead e file ix ≠ none → exec (.dbgDataAccess c (some w)) s = .next (s.dbgPut e file ix w)) ∧
      (s.engineHalted e = true → file = 0 → 1 ≤ ix → ix < 32 → ∃ t : State, exec (.dbgDataAccess c (some w)) s = .next t ∧
        t.dbgRead e 0 ix = some w ∧ (∀ j, j ≠ ix → t.dbgRead e 0 j = s.dbgRead e 0 j) ∧ t.regs = s.regs ∧ others t m)) ∧
    (exec (.perfClear c) s = .next (s.setCell m { k with perf := { p with cnt := Vector.replicate 8 0, snap := Vector.replicate 8 0, ev := { p.ev with cleared := true } } })) ∧
    ((s.reg blk 0).getLsbD 0 = true → exec (.perfCounterWrite c i hi v) s = .next (s.orReg blk 0 8#32)) ∧
    ((s.reg blk 0).getLsbD 0 = false → ∃ t : State, exec (.perfCounterWrite c i hi v) s = .next t ∧ others t m ∧ t.regs = s.regs ∧ (∀ j : Fin 8, j ≠ i → (t.cell m).perf.cnt[j] = p.cnt[j]) ∧
      ((t.cell m).perf.cnt[i]).toNat = if hi then v.toNat % 65536 * 2 ^ 32 + (p.cnt[i]).toNat % 2 ^ 32 else (p.cnt[i]).toNat / 2 ^ 32 * 2 ^ 32 + v.toNat) ∧
    (exec (.latchedRead c .cycleLo) s = .next (s.setCell m { k with perf := { p with hiCycle := BitVec.ofNat 32 (k.cycle / 2 ^ 32) } })) ∧
    (∃ t : State, exec (.latchedRead c (.cntLo i)) s = .next t ∧ (t.cell m).perf.hiCnt[i].toNat = (p.cnt[i]).toNat / 2 ^ 32 ∧ (t.cell m).perf.cnt = p.cnt ∧ others t m) ∧
    (∃ t : State, exec (.latchedRead c (.snapLo i)) s = .next t ∧ (t.cell m).perf.hiSnap[i].toNat = (p.snap[i]).toNat / 2 ^ 32 ∧ (t.cell m).perf.seqLatch = p.winSeq ∧ others t m) ∧
    (s.clkStopped c.die = true → exec (.perfWindowClose c) s = .next s ∧ exec (.sampleRecord c code conf tlb loft) s = .next s) ∧
    (s.windowEnd c = none → exec (.perfWindowClose c) s = .next s) ∧
    (s.windowEnd c = some t0 → (s.cell c).cycle < t0 → exec (.perfWindowClose c) s = .next s) ∧
    (s.fld (.perf c.num) 0x10 23 0 = 0 → s.windowEnd c = none) ∧
    (s.windowEnd c = some t0 → ∃ a j : Nat, (s.cell c).perf.enAt = some a ∧ 1 ≤ j ∧ t0 = a + j * (s.fld (.perf c.num) 0x10 23 0 * 1024) ∧ (s.cell c).perf.closed < t0) ∧
    (s.clkStopped c.die = false → s.windowEnd c = some t0 → t0 ≤ (s.cell c).cycle → ∃ t : State, exec (.perfWindowClose c) s = .next t ∧ (t.cell c).perf.snap = (s.cell c).perf.cnt ∧ (t.cell c).perf.winSeq = (s.cell c).perf.winSeq + 1 ∧
      (t.cell c).perf.cnt = (s.cell c).perf.cnt ∧ (t.cell c).perf.closed = t0 ∧ others t c) ∧
    ((s.cell c).perf.tagged = none → exec (.sampleRecord c code conf tlb loft) s = .next s) ∧
    (s.clkStopped c.die = false → (s.cell c).perf.tagged = some g → Canonical s → ∃ t : State, exec (.sampleRecord c code conf tlb loft) s = .next t ∧ (t.cell c).perf.tagged = none ∧
      t.reg (.perf c.num) (0x200 + 16 * ring) = g.word ||| BitVec.ofNat 32 (code.toNat * 2 ^ 24) ∧ t.reg (.perf c.num) (0x204 + 16 * ring) = BitVec.ofNat 32 g.issue ∧
      bits (t.reg (.perf c.num) (0x208 + 16 * ring)) 31 16 = min ((s.cell c).cycle - g.issue) 65535 ∧ bits (t.reg (.perf c.num) (0x208 + 16 * ring)) 15 0 = min g.held 65535 ∧ bits (t.reg (.perf c.num) (0x20C + 16 * ring)) 7 0 = min conf 255 ∧
      (t.reg (.perf c.num) (0x20C + 16 * ring)).getLsbD 8 = tlb ∧ (t.reg (.perf c.num) (0x20C + 16 * ring)).getLsbD 9 = loft ∧ t.fld (.perf c.num) 0x108 3 0 = (ring + 1) % 16) ∧
    (∃ t : State, exec (.sampleSeedWrite c v) s = .next t ∧ (t.cell m).perf.lfsr = (if v = 0 then 1#32 else v) ∧ others t m ∧ (Canonical s → t.reg blk 0x104 = v)) ∧
    (turn 1 → s.isChecker c = true → ∀ r ∈ ([.hatchCellHalt l c, .hatchCellResume l c, .hatchCellStep l c eng, .cellRegWrite l c eng 0 idx v, .cellBkpt l c b eng pc, .cellBkptOff l c b] : List Instr), exec r s = .next (u.reply .hd [] (some .checker))) ∧
    (turn 1 → s.isChecker c = false → s.hostCut (lsBase c) = true → ∀ r ∈ ([.hatchCellHalt l c, .hatchCellResume l c, .hatchCellStep l c eng, .cellRegWrite l c eng 0 idx v, .cellBkpt l c b eng pc, .cellBkptOff l c b] : List Instr), exec r s = .next (u.reply .hd [] (some .fault))) ∧
    (open_ 0 → exec (.cellState l c) s = .next (u.reply .hd [(s.cell c).runWord, s.reg (.perf c.num) 0x404, (s.cell c).slvExc.setWidth 32, ((s.cell c).slvExc >>> 32).setWidth 32] none)) ∧
    (open_ 1 →
      (s.dbgHalted c = false → ∃ t : State, exec (.hatchCellHalt l c) s = .next (t.reply .hd [t.reg (.perf c.num) 0x404] none) ∧ all t c .halted ∧ t.out = s.out) ∧
      (s.dbgHalted c = true → exec (.hatchCellHalt l c) s = .next (u.reply .hd [s.reg (.perf c.num) 0x404] none)) ∧
      (refused → ∃ t : State, exec (.hatchCellResume l c) s = .next (t.reply .hd [] (some .state)) ∧ t.cells = s.cells) ∧
      (¬ refused → ∃ t : State, exec (.hatchCellResume l c) s = .next (t.reply .hd [t.reg (.perf c.num) 0x404] none) ∧ all t c .run) ∧
      (0x40 < eng.toNat → exec (.hatchCellStep l c eng) s = .next (u.reply .hd [] (some .arg)) ∧ exec (.cellBkpt l c b eng pc) s = .next (u.reply .hd [] (some .arg))) ∧
      (¬ refused → Canonical s → ∃ t : State, exec (.hatchCellStep l c 0x40#7) s = .next (t.reply .hd [t.reg (.perf c.num) 0x404] none) ∧ (t.cell c).seq.dbg = .step) ∧
      (Canonical s → (eng.toNat ≤ 0x40 → ∃ t : State, exec (.cellBkpt l c b eng pc) s = .next (t.reply .hd [] none) ∧ t.reg (.perf c.num) (0x410 + 4 * b.val) &&& 0x807FFFFF#32 = BitVec.ofNat 32 (2 ^ 31 + eng.toNat * 2 ^ 16 + pc.toNat)) ∧
        (∃ t : State, exec (.cellBkptOff l c b) s = .next (t.reply .hd [] none) ∧ t.reg (.perf c.num) (0x410 + 4 * b.val) &&& 0x807FFFFF#32 = 0))) ∧
    (Canonical s → eng.toNat ≤ 0x40 →
      (open_ 0 → s.engineHalted e = false → ∃ t : State, exec (.cellRegRead l c eng 0 idx) s = .next (t.reply .hd [] (some .state)) ∧ t.cells = s.cells) ∧
      (open_ 0 → s.engineHalted e = true → idx.toNat < 32 → ∃ t : State, exec (.cellRegRead l c eng 0 idx) s = .next (t.reply .hd [s.xw e (Fin.ofNat 32 idx.toNat)] none) ∧ t.cells = s.cells) ∧
      (open_ 0 → s.engineHalted e = true → 32 ≤ idx.toNat → ∃ t : State, exec (.cellRegRead l c eng 0 idx) s = .next (t.reply .hd [] (some .arg)) ∧ t.cells = s.cells) ∧
      (open_ 1 → s.engineHalted e = true → 1 ≤ idx.toNat → idx.toNat < 32 → ∃ t : State, exec (.cellRegWrite l c eng 0 idx v) s = .next (t.reply .hd [v] none) ∧ t.xw e (Fin.ofNat 32 idx.toNat) = v))

/-! ### Boot, identity, JTAG -/

/-- R412, R611, R612, R619 to R639, R644, R647, R648, R692: OTP commands program one thing, never unprogram and are refused as told; measurements go into a slot once; a report is begun and written; a challenge expires; limits that run out; a boot image passes the checks of R620 in their
order or fails the first; hub firmware that passes starts with its job key list of 1 to 4 keys and its measurement, and microcode that fails fences the compute dies; ready bits are written, and with IMAGES the images that verify under a job key become eligible; unlock grants a scope to a good response and counts bad ones; service commands run in OPEN only; the JTAG chain.
Where the spec leaves a point open, the clause is the model's own choice: log entries 33, 37, 56, 58, 59, 84, 85, 86. -/
def Obligations.BootUnlockJtag : Prop :=
  ∀ (line : List (BitVec 8)) (m : MonId) (slot typ lc : Fin 16) (f : Fin 4) (g : Fin 2) (ix : Isl) (d : Fin 4) (v : W32) (scope : BitVec 3) (key sig hash ch nonce data : List (BitVec 8)) (got : List (Nat × Byte)) (ty : Fin 5) (im : BootImage) (l : Lifecycle) (len off n at_ pa : Nat) (tms tdi : Bool) (i : Fin 7) (s : State), Canonical s →
    let o := monNum m
    let b := s.boot o
    let p := b.otp
    let h := s.boot 0
    let cmd := s.reg (.boot o) 0x10
    let overrun := s.orReg (.boot o) 0x10 0x20000000#32
    let refuse := s.orReg (.boot o) 0x10 0x40000000#32
    let blown := fun (c : Instr) (q : Otp) => ∃ t : State, exec c s = .next t ∧ (t.boot o).otp = q ∧ t.reg (.boot o) 0x10 = cmd ||| 0x80000000#32 ∧ t.mem = s.mem ∧ ∀ y : Fin 3, y ≠ o → t.boot y = s.boot y
    let otps : List Instr := [.otpRevoke m slot, .otpRevokeDebug m slot, .otpAdvanceSvn m typ, .otpSetLifecycle m lc]
    let meas := s.reg (.boot 0) 0x80
    let rep := (s.reg (.boot 0) 0x84).getLsbD 31
    let fails := s.fld (.boot o) 0xA0 23 20
    let tells := fun (t : State) (e : Option LineErr) => Host.Outcome.next (t.reply m [] e)
    let known := ∃ k : Fin 2, p.dprog.getLsbD k.val = true ∧ p.drev.getLsbD k.val = false ∧ p.dbg[k] = sha512 key
    let good := known ∧ ed25519Verify key (sha512 ch) sig = true
    let turn := fun (m : MonId) => s.listens m = true ∧ s.monBusy m = false ∧ lineFields line ≠ none
    let u := s.modUart m (fun q => { q with tag := (lineTag line).getD 0 })
    let uh := s.modUart .hd (fun q => { q with tag := (lineTag line).getD 0 })
    let respOk := key.length = 32 ∧ sig.length = 64 ∧ b.chal = some (ch, scope) ∧ turn m
    let num := fun (o n : Nat) => leNat ((data.drop o).take n)
    let header := 256 ≤ data.length ∧ num 0 4 = 0x544F4F42 ∧ num 4 1 = ty.val ∧ num 7 1 = 0 ∧ num 6 1 ≤ 32 ∧ num 8 4 % 256 = 0 ∧ (data.drop 256).length = num 8 4 ∧ num 0x70 16 = 0 ∧ num 0xC0 64 = 0
    let pub := (data.drop 0x10).take 32
    let slotOk := ∃ k ∈ p.live, k.val = num 5 1 ∧ p.keys[k] = sha512 pub
    let signed := ed25519Verify pub (sha512 (data.take 0x80)) ((data.drop 0x80).take 64) = true
    let whole := sha512 (data.drop 256) = (data.drop 0x30).take 64
    let serving := (s.isl[ix.num]).up = true ∧ s.hubLink ix.num = true ∧ h.stopped = false ∧ h.otp.blank = false
    let entry := fun (ty : Nat) => (dirImages (Config.flashDir ix.num s.free) ty).head?
    let stage := fun (t : State) => t.fld (.boot 0) 0 7 0
    let err := fun (t : State) => t.fld (.boot 0) 0 15 8
    let runs := fun (t : State) (src : Nat) (im : BootImage) => t.ready 2 = true ∧ t.ready 3 = true ∧ (t.boot 0).slot = some im.slot ∧ (t.boot 0).svn[(3 : Fin 5)] = im.svn ∧ (t.boot 0).entry = im.entry ∧
      t.job.keys = jobKeys im.body ∧ t.measSlot 1 = some im.hash ∧ t.fld (.boot 0) 0 17 16 = src ∧ 3 ≤ stage t
    let old := s.reg (.boot 0) 4
    let v' := if s.dramDiffer = true ∨ h.ucode = false then v &&& ~~~(0x1E00#32 &&& ~~~old) else v
    let put := (old &&& ~~~0x2FDE00#32) ||| (v' &&& 0x2FDE00#32)
    let set := s.setReg (.boot 0) 4 put
    let admitted := (Config.loadedImages s.free).foldl State.admitImage (State.modJob { set with free := s.free + 1 } (fun j => { j with eligible := [] }))
    let j := s.jtag
    (cmd.getLsbD 31 = true → ∀ c ∈ otps, exec c s = .next overrun) ∧
    (cmd.getLsbD 31 = false →
      (slot.val < 4 → b.slot ≠ some (Fin.ofNat 4 slot.val) → (∃ k ∈ p.live, k ≠ Fin.ofNat 4 slot.val) → blown (.otpRevoke m slot) { p with rev := p.rev ||| BitVec.ofNat 4 (2 ^ slot.val) }) ∧
      (4 ≤ slot.val ∨ b.slot = some (Fin.ofNat 4 slot.val) ∨ (∀ k ∈ p.live, k = Fin.ofNat 4 slot.val) → exec (.otpRevoke m slot) s = .next refuse) ∧
      (slot.val < 2 → blown (.otpRevokeDebug m slot) { p with drev := p.drev ||| BitVec.ofNat 2 (2 ^ slot.val) }) ∧
      (2 ≤ slot.val → exec (.otpRevokeDebug m slot) s = .next refuse) ∧
      (∀ y : Fin 5, y.val = typ.val → typ.val ∈ bootTypes o → blown (.otpAdvanceSvn m typ) { p with svn := p.svn.set y (max p.svn[y] b.svn[y]) }) ∧
      (typ.val ∉ bootTypes o → exec (.otpAdvanceSvn m typ) s = .next refuse) ∧
      (lc.val = lcCode l → lifecycleOk p.lc l = true → blown (.otpSetLifecycle m lc) { p with lc := l }) ∧
      (lc.val = lcCode l → lifecycleOk p.lc l = false → exec (.otpSetLifecycle m lc) s = .next refuse) ∧ (3 ≤ lc.val → exec (.otpSetLifecycle m lc) s = .next refuse)) ∧
    (∃ t : State, exec (.otpProgramDone m) s = .next t ∧ t.reg (.boot o) 0x10 = cmd &&& 0x7FFFFFFF#32 ∧ t.boots = s.boots) ∧
    (slot = 0 ∨ slot = 3 ∨ slot = 4 ∨ meas.getLsbD slot.val = true → ∃ t : State, exec (.measGo slot) s = .next t ∧ (t.reg (.boot 0) 0x80).getLsbD 31 = true ∧ t.measSlot slot.val = s.measSlot slot.val) ∧
    (slot ≠ 0 → slot ≠ 3 → slot ≠ 4 → meas.getLsbD slot.val = false → ∃ t : State, exec (.measGo slot) s = .next t ∧ (t.reg (.boot 0) 0x80).getLsbD slot.val = true ∧
      (∀ k, k < 16 → t.reg (.boot 0) (0x200 + 0x40 * slot.val + 4 * k) = s.reg (.boot 0) (0x100 + 4 * k))) ∧
    (rep = true → exec .attestGo s = .next (s.orReg (.boot 0) 0x84 0x40000000#32)) ∧
    (rep = false → ∃ t : State, exec .attestGo s = .next t ∧ (t.reg (.boot 0) 0x84).getLsbD 31 = true ∧
      (t.boot 0).report = some ((List.range 8).flatMap (fun i => toLe 4 (s.reg (.boot 0) (0x100 + 4 * i)).toNat), (s.reg (.boot 0) 0x88).toNat + s.fld (.boot 0) 0x8C 7 0 * 2 ^ 32)) ∧
    (h.report = none → exec .attestDone s = .next s) ∧
    (h.report = some (nonce, at_) → nonce.length = 32 → ∃ t : State, exec .attestDone s = .next t ∧ (t.boot 0).report = none ∧ (t.reg (.boot 0) 0x84).getLsbD 31 = false ∧
      (dramWin at_ = some 4 → dramOk at_ = true → dramOk (at_ + 1215) = true → t.bytes at_ 4 = [0x41#8, 0x41#8, 0x54#8, 0x54#8] ∧ t.bytes (at_ + 16) 32 = nonce ∧ (∃ body : List Byte, body.length = 1152 ∧ t.bytes at_ 1216 = body ++ ed25519Sign (identSeed 0) (sha512 body)) ∧ (∀ a, s.home a < at_ → t.byte a = s.byte a)) ∧
      (dramWin at_ ≠ some 4 → t.mem = s.mem)) ∧
    (b.chal ≠ none → ∃ t : State, exec (.challengeExpiry m) s = .next t ∧ (t.boot o).chal = none ∧ (t.reg (.boot o) 0xA0).getLsbD 19 = false) ∧ (b.chal = none → exec (.challengeExpiry m) s = .next s) ∧
    (s.ready 3 = true → exec (.readyLimit .hubFw) s = .next s ∧ exec .hubFwTimeout s = .next s ∧ exec (.flashReadRequest ix 3) s = .next s) ∧
    (s.ready 3 = false → (∃ t : State, exec (.readyLimit .hubFw) s = .next t ∧ err t = 7 ∧ 2 ≤ stage t) ∧ exec .hubFwTimeout s = .next (s.modBoot 0 (fun b => { b with asksSib := true }))) ∧
    (s.ready 4 = true → exec (.readyLimit .hubDram) s = .next s) ∧
    (s.ready 4 = false → ∃ t : State, exec (.readyLimit .hubDram) s = .next t ∧ err t = 6 ∧ (t.boot 0).stopped = true) ∧
    (s.ready (9 + d.val) = false → s.dramDiffer = false → ∃ t : State, exec (.readyLimit (.cdReady d)) s = .next t ∧ t.fenced (Fin.ofNat 7 d.val) = true) ∧
    (s.ready (9 + d.val) = true ∨ s.dramDiffer = true → exec (.readyLimit (.cdReady d)) s = .next s) ∧
    (s.funcReady.getLsbD 13 = true → exec (.readyLimit .ring) s = .next s) ∧
    (s.jobState = 2 ∨ s.abandoned = true → exec (.readyLimit .job) s = .next s) ∧
    (s.jobState ≠ 2 → s.abandoned = false → h.retried = false → exec (.readyLimit .job) s = exec .jobStart (s.modBoot 0 (fun b => { b with retried := true }))) ∧
    (s.jobState ≠ 2 → s.abandoned = false → h.retried = true → ∃ t : State, exec (.readyLimit .job) s = .next t ∧ ∀ k : Fin 2, (t.isl[k]).active 0x1A 0 = true ∧ (t.isl[k]).sl4 = true) ∧
    (¬ header → verifyImage p ty.val data = .error 1) ∧ (header → ¬ slotOk → verifyImage p ty.val data = .error 2) ∧ (header → slotOk → num 6 1 < p.svn[ty] → verifyImage p ty.val data = .error 3) ∧
    (header → slotOk → p.svn[ty] ≤ num 6 1 → ¬ signed → verifyImage p ty.val data = .error 4) ∧ (header → slotOk → p.svn[ty] ≤ num 6 1 → signed → ¬ whole → verifyImage p ty.val data = .error 5) ∧
    (header → slotOk → p.svn[ty] ≤ num 6 1 → signed → whole → verifyImage p ty.val data = .ok ⟨Fin.ofNat 4 (num 5 1), num 6 1, num 0xC 4, sha512 data, data.drop 256⟩) ∧
    (serving → s.ready 3 = false → (ix.num = 0 ∨ h.asksSib = true) →
      (entry 3 = none → exec (.flashReadRequest ix 3) s = .next { s with free := s.free + 1 }) ∧
      (∀ l, entry 3 = some l → verifyImage h.otp 3 l = .ok im → ∃ t : State, exec (.flashReadRequest ix 3) s = .next t ∧ runs t ix.num.val im) ∧
      (∀ l n, entry 3 = some l → verifyImage h.otp 3 l = .error n → ∃ t : State, exec (.flashReadRequest ix 3) s = .next t ∧ t.ready 3 = false ∧ err t = n ∧ (t.boot 0).slot = h.slot ∧
        (ix.num = 0 → (t.boot 0).asksSib = true) ∧ (ix.num = 1 → 2 ≤ stage t))) ∧
    (serving → s.ready 3 = true → s.ready 21 = false → h.ucode = false →
      (entry 4 = none → exec (.flashReadRequest ix 4) s = .next { s with free := s.free + 1 }) ∧
      (∀ l, entry 4 = some l → verifyImage h.otp 4 l = .ok im → ∃ t : State, exec (.flashReadRequest ix 4) s = .next t ∧ (t.boot 0).ucode = true ∧ (t.boot 0).svn[(4 : Fin 5)] = im.svn ∧ 4 ≤ stage t) ∧
      (∀ l n, entry 4 = some l → verifyImage h.otp 4 l = .error n → exec (.flashReadRequest ix 4) s = .next ((State.bootErr { s with free := s.free + 1 } n).fenceSet 15#4))) ∧
    (¬ serving ∨ (n ≠ 3 ∧ n ≠ 4) ∨ (n = 3 ∧ (s.ready 3 = true ∨ (ix.num = 1 ∧ h.asksSib = false))) ∨ (n = 4 ∧ (s.ready 3 = false ∨ s.ready 21 = true ∨ h.ucode = true)) → exec (.flashReadRequest ix n) s = .next s) ∧
    (h.stopped = true ∨ s.abandoned = true → exec (.funcReadyWrite v) s = .next s) ∧
    (h.stopped = false → s.abandoned = false →
      (v.getLsbD 21 = false ∨ s.ready 21 = true → ∃ t : State, exec (.funcReadyWrite v) s = .next t ∧ t.reg (.boot 0) 4 = put ∧ t.job = s.job ∧ t.mem = s.mem) ∧
      (v.getLsbD 21 = true → s.ready 21 = false →
        (admitted.imagesReady = true → ∃ t : State, exec (.funcReadyWrite v) s = .next t ∧ t.ready 21 = true ∧ 5 ≤ stage t ∧ t.job = admitted.job) ∧
        (admitted.imagesReady = false → ∃ t : State, exec (.funcReadyWrite v) s = .next t ∧ t.ready 21 = false ∧ t.job = admitted.job))) ∧
    (s.imageVerified s.job.keys pa = false → s.admitImage pa = s) ∧
    (s.imageVerified s.job.keys pa = true → (s.admitImage pa).job.eligible = s.job.eligible ++ [pa] ∧ (∃ k ∈ s.job.keys, ed25519Verify k (sha512 (s.bytes pa 0x180)) (s.bytes (pa + 0x180) 64) = true) ∧
      sha512 (s.bytes (pa + s.img pa 0x60) (32 * (s.img pa 0x64 % 2 ^ 16)) ++ (s.sections pa).flatMap (fun e => s.bytes (s.sectionAt pa e).src (s.sectionAt pa e).len)) = s.bytes (pa + 0x80) 64 ∧
      ∀ c ∈ cellsOf (s.diesOf pa), ∀ k, k < 2 → shelfCfgOk (Config.shelfCfg pa c.num k) = true) ∧
    ((1 ≤ leNat (data.take 4) ∧ leNat (data.take 4) ≤ 4) → (jobKeys data).length = leNat (data.take 4) ∧ ∀ k, k < leNat (data.take 4) → (jobKeys data)[k]? = some ((data.drop (4 + 32 * k)).take 32)) ∧
    (¬ (1 ≤ leNat (data.take 4) ∧ leNat (data.take 4) ≤ 4) → jobKeys data = []) ∧
    (s.listens m = false → ∀ c ∈ ([.hatchChal line m scope, .hatchResp line m key sig, .programKey line m f hash, .programDebugKey line m g hash, .setLifecycle line m l] : List Instr), exec c s = .next s) ∧
    (s.listens .hd = false → ∀ c ∈ ([.loadImage line len, .loadImageData line off data, .loadImageEnd line] : List Instr), exec c s = .next s) ∧
    (turn m →
      exec (.hatchChal line m 0) s = tells u (some .arg) ∧ (scope ≠ 0 → 8 ≤ fails → exec (.hatchChal line m scope) s = tells u (some .locked)) ∧
      (scope ≠ 0 → fails < 8 → ∃ (t : State) (c : List Byte), exec (.hatchChal line m scope) s = .next (t.replyBytes m c) ∧ c.length = 96 ∧ (t.boot o).chal = some (c, scope) ∧ (t.reg (.boot o) 0xA0).getLsbD 19 = true ∧ t.out = s.out) ∧
      (key.length ≠ 32 ∨ sig.length ≠ 64 → exec (.hatchResp line m key sig) s = tells u (some .arg)) ∧
      (key.length = 32 → sig.length = 64 → b.chal = none → exec (.hatchResp line m key sig) s = tells u (some .expired))) ∧
    (respOk → ¬ good → ∃ t : State, exec (.hatchResp line m key sig) s = tells t (some .refused) ∧ (t.boot o).chal = none ∧ t.fld (.boot o) 0xA0 23 20 = min 8 (fails + 1)) ∧
    (respOk → good → s.scopeRefused o scope = false → ∃ t : State, exec (.hatchResp line m key sig) s = tells t none ∧ (t.boot o).chal = none ∧ (t.boot o).grants = b.grants + 1 ∧
      t.fld (.boot o) 0xA0 2 0 = (BitVec.ofNat 3 (s.fld (.boot o) 0xA0 2 0) ||| scope).toNat) ∧
    (respOk → good → s.scopeRefused o scope = true → ∃ t : State, exec (.hatchResp line m key sig) s = tells t (some .locked) ∧ (t.boot o).chal = none ∧ t.fld (.boot o) 0xA0 2 0 = s.fld (.boot o) 0xA0 2 0) ∧
    (turn m → p.lc ≠ Lifecycle.open → ∀ c ∈ ([.programKey line m f hash, .programDebugKey line m g hash, .setLifecycle line m l, .readId line m] : List Instr), exec c s = tells u (some .refused)) ∧
    (turn m → p.lc = Lifecycle.open →
      (hash.length ≠ 64 → exec (.programKey line m f hash) s = tells u (some .arg) ∧ exec (.programDebugKey line m g hash) s = tells u (some .arg)) ∧
      (hash.length = 64 → (∃ t : State, exec (.programKey line m f hash) s = tells t none ∧ (t.boot o).otp = { p with keys := p.keys.set f (orBytes p.keys[f] hash), prog := p.prog ||| BitVec.ofNat 4 (2 ^ f.val) }) ∧
        (∃ t : State, exec (.programDebugKey line m g hash) s = tells t none ∧ (t.boot o).otp = { p with dbg := p.dbg.set g (orBytes p.dbg[g] hash), dprog := p.dprog ||| BitVec.ofNat 2 (2 ^ g.val) })) ∧
      (l = Lifecycle.open → exec (.setLifecycle line m l) s = tells u (some .refused)) ∧ (l ≠ Lifecycle.open → ∃ t : State, exec (.setLifecycle line m l) s = tells t none ∧ (t.boot o).otp = { p with lc := l }) ∧
      exec (.readId line m) s = .next (u.replyBytes m ((identPub o).take 32))) ∧
    (turn .hd → h.otp.lc ≠ Lifecycle.open → ∀ c ∈ ([.loadImage line len, .loadImageData line off data, .loadImageEnd line] : List Instr), exec c s = .next (uh.reply .hd [] (some .refused))) ∧
    (turn .hd → h.otp.lc = Lifecycle.open →
      (s.recovering = false → exec (.loadImage line len) s = .next (uh.reply .hd [] (some .state))) ∧
      (s.recovering = true → ∃ t : State, exec (.loadImage line len) s = .next (t.reply .hd [] none) ∧ (t.boot 0).load = some (len, [])) ∧
      (h.load = none → exec (.loadImageData line off data) s = .next (uh.reply .hd [] (some .state)) ∧ exec (.loadImageEnd line) s = .next (uh.reply .hd [] (some .state))) ∧
      (h.load = some (len, []) → 1 ≤ data.length → data.length ≤ 96 → off + data.length ≤ len → ∃ (t : State) (q : List (Nat × Byte)), exec (.loadImageData line off data) s = .next (t.reply .hd [] none) ∧
        (t.boot 0).load = some (len, q) ∧ (off = 0 → data.length = len → loaded len q = some data)) ∧
      (h.load = some (len, got) → (96 < data.length ∨ data = [] ∨ len < off + data.length) → exec (.loadImageData line off data) s = .next (uh.reply .hd [] (some .arg))) ∧
      (h.load = some (len, got) → loaded len got = none → ∃ t : State, exec (.loadImageEnd line) s = .next (t.reply .hd [] (some .refused)) ∧ (t.boot 0).load = none ∧ err t = 1 ∧ t.ready 3 = s.ready 3) ∧
      (h.load = some (len, got) → loaded len got = some data → verifyImage h.otp 3 data = .error n → ∃ t : State, exec (.loadImageEnd line) s = .next (t.reply .hd [] (some .refused)) ∧ (t.boot 0).load = none ∧ err t = n ∧ t.ready 3 = s.ready 3) ∧
      (h.load = some (len, got) → loaded len got = some data → verifyImage h.otp 3 data = .ok im → ∃ t : State, exec (.loadImageEnd line) s = .next (t.reply .hd [] none) ∧ (t.boot 0).load = none ∧ runs t 2 im)) ∧
    (exec .jtagTrst s = .next { s with jtag := { j with st := .reset, ir := Vector.replicate 7 Config.idcodeOp, tdo := none } }) ∧
    (∃ t : State, exec (.tckEdge tms tdi) s = .next t ∧ t.jtag.st = j.st.next tms ∧ (j.st = .exit1Ir → tms = true → t.jtag.ir = j.irSh) ∧
      (j.st = .shiftIr → t.jtag.irSh[(0 : Fin 7)] = (j.irSh[(0 : Fin 7)] >>> 1) ||| BitVec.ofNat 6 (tdi.toNat * 32) ∧
        (∀ k : Fin 6, t.jtag.irSh[k.val + 1] = (j.irSh[k.val + 1] >>> 1) ||| BitVec.ofNat 6 ((j.irSh[k.val]).toNat % 2 * 32)) ∧ (tms = false → t.jtag.tdo = some ((t.jtag.irSh[(6 : Fin 7)]).getLsbD 0))) ∧
      (j.st = .shiftDr → (∀ k : Fin 7, s.tapReg k = .bypass ∧ (j.dr[k]).toNat < 2) → t.jtag.dr[(0 : Fin 7)] = BitVec.ofNat 32 tdi.toNat ∧ ∀ k : Fin 6, t.jtag.dr[k.val + 1] = j.dr[k.val]) ∧
      (t.boots = s.boots ∧ t.cells = s.cells ∧ t.regs = s.regs)) ∧
    (s.tapOpen i = false → j.ir[i] ≠ Config.idcodeOp → s.tapReg i = .bypass)

/-! ### The whole part -/

/-- R12, R83, R85, R137, R138, R412, R432, R437, R456, R521, R554: what the reset of the part leaves. That a byte of memory and an element of a tile read 0 is the model's own choice (log entries 1 and 5).
Where the spec leaves a point open, the clause is the model's own choice: log entries 2, 37. -/
def Obligations.StateAfterReset : Prop :=
  let s := State.reset
  Canonical s ∧ s.pending = [] ∧ s.out = [] ∧ s.crates = [] ∧ s.stores = [] ∧ s.jobState = 0 ∧ s.job.eligible = [] ∧ (∀ a, s.byte a = 0) ∧
    (∀ c : CellId, (s.cell c).level = .supervisor ∧ (s.cell c).seq.run = .idle ∧ (s.cell c).seq.stop = 0 ∧ (∀ v ∈ (s.cell c).slv.toList, v.run ≠ .running) ∧
      (∀ (t : Fin 4) (i : Nat), ((s.cell c).tiles[t]).at i = 0) ∧ (∀ j : Fin 64, (s.cell c).lfsr[j] = (let q := 1#32 ^^^ BitVec.ofNat 32 (j.val * 0x9E3779B9); if q = 0 then 1#32 else q)) ∧
      s.reg (cellBlk c) 0 = BitVec.ofNat 32 (c.die.val * 256 + c.idx.val) ∧ s.reg (cellBlk c) 8 = 1#32) ∧
    (∀ (d : Fin 7) (m : Fin 10), s.modState d m.val = 0 ∧ s.fenced d = false) ∧
    (∀ i : Fin 2, (s.isl[i]).trigs = [] ∧ (s.isl[i]).valid = false ∧ (s.isl[i]).sl4 = false ∧ s.armed i = false) ∧ s.faultLow = false ∧
    (∀ k : Fin 4, s.warnAt k.val ≤ s.limitAt k.val ∧ s.reg .hlth (0x50 + 4 * k.val) = 0)

/-- R94 to R101: decoding what the encoder gives for a well-formed instruction gives that instruction, with every operand at every value that it may take; a second word belongs to the extended forms of major 0x3F, and to no other (R95). -/
def Obligations.DecodeOfEncode : Prop :=
  ∀ (i : Instr) (w : W32) (w2 : Option W32), i.wellFormed = true → encode i = some (w, w2) → (∃ e, decodeWord e w (w2.getD 0) = .ok i) ∧ (w2.isSome = true ↔ wMaj w = 0x3F)

/-- Every step keeps memory and the registers in canonical form: addresses strictly rising, and no entry that equals what its unlisted address reads as. So equal contents are equal data, in every state that a run can reach and beyond. -/
def Obligations.CanonicalKept : Prop :=
  ∀ (s t : State), Canonical s → step s = .next t → Canonical t
end

