-- ==== Sys2Proof/Laws/State.lean ====
section
/-! SUPPORT. What each primitive update of the state leaves in each field, by computation. -/

namespace Sys2Proof.Machine

variable (s : State)

/-! ### setCell -/

@[simp] theorem State.setCell_pending (c : CellId) (x : Cell) : (s.setCell c x).pending = s.pending := rfl
@[simp] theorem State.setCell_free (c : CellId) (x : Cell) : (s.setCell c x).free = s.free := rfl
@[simp] theorem State.setCell_mem (c : CellId) (x : Cell) : (s.setCell c x).mem = s.mem := rfl
@[simp] theorem State.setCell_ecc (c : CellId) (x : Cell) : (s.setCell c x).ecc = s.ecc := rfl
@[simp] theorem State.setCell_stores (c : CellId) (x : Cell) : (s.setCell c x).stores = s.stores := rfl
@[simp] theorem State.setCell_regs (c : CellId) (x : Cell) : (s.setCell c x).regs = s.regs := rfl
@[simp] theorem State.setCell_cells (c : CellId) (x : Cell) : (s.setCell c x).cells = s.cells.set c.num x := rfl
@[simp] theorem State.setCell_hosts (c : CellId) (x : Cell) : (s.setCell c x).hosts = s.hosts := rfl
@[simp] theorem State.setCell_lofts (c : CellId) (x : Cell) : (s.setCell c x).lofts = s.lofts := rfl
@[simp] theorem State.setCell_tlbs (c : CellId) (x : Cell) : (s.setCell c x).tlbs = s.tlbs := rfl
@[simp] theorem State.setCell_paths (c : CellId) (x : Cell) : (s.setCell c x).paths = s.paths := rfl
@[simp] theorem State.setCell_crates (c : CellId) (x : Cell) : (s.setCell c x).crates = s.crates := rfl
@[simp] theorem State.setCell_crateNext (c : CellId) (x : Cell) : (s.setCell c x).crateNext = s.crateNext := rfl
@[simp] theorem State.setCell_jobFaults (c : CellId) (x : Cell) : (s.setCell c x).jobFaults = s.jobFaults := rfl
@[simp] theorem State.setCell_inbox (c : CellId) (x : Cell) : (s.setCell c x).inbox = s.inbox := rfl
@[simp] theorem State.setCell_isl (c : CellId) (x : Cell) : (s.setCell c x).isl = s.isl := rfl
@[simp] theorem State.setCell_faultExt (c : CellId) (x : Cell) : (s.setCell c x).faultExt = s.faultExt := rfl
@[simp] theorem State.setCell_pwrok (c : CellId) (x : Cell) : (s.setCell c x).pwrok = s.pwrok := rfl
@[simp] theorem State.setCell_links (c : CellId) (x : Cell) : (s.setCell c x).links = s.links := rfl
@[simp] theorem State.setCell_crossings (c : CellId) (x : Cell) : (s.setCell c x).crossings = s.crossings := rfl
@[simp] theorem State.setCell_hub (c : CellId) (x : Cell) : (s.setCell c x).hub = s.hub := rfl
@[simp] theorem State.setCell_regPorts (c : CellId) (x : Cell) : (s.setCell c x).regPorts = s.regPorts := rfl
@[simp] theorem State.setCell_regHold (c : CellId) (x : Cell) : (s.setCell c x).regHold = s.regHold := rfl
@[simp] theorem State.setCell_therm (c : CellId) (x : Cell) : (s.setCell c x).therm = s.therm := rfl
@[simp] theorem State.setCell_hlth (c : CellId) (x : Cell) : (s.setCell c x).hlth = s.hlth := rfl
@[simp] theorem State.setCell_tests (c : CellId) (x : Cell) : (s.setCell c x).tests = s.tests := rfl
@[simp] theorem State.setCell_dramGib (c : CellId) (x : Cell) : (s.setCell c x).dramGib = s.dramGib := rfl
@[simp] theorem State.setCell_job (c : CellId) (x : Cell) : (s.setCell c x).job = s.job := rfl
@[simp] theorem State.setCell_aco (c : CellId) (x : Cell) : (s.setCell c x).aco = s.aco := rfl
@[simp] theorem State.setCell_boots (c : CellId) (x : Cell) : (s.setCell c x).boots = s.boots := rfl
@[simp] theorem State.setCell_uart (c : CellId) (x : Cell) : (s.setCell c x).uart = s.uart := rfl
@[simp] theorem State.setCell_dump (c : CellId) (x : Cell) : (s.setCell c x).dump = s.dump := rfl
@[simp] theorem State.setCell_jtag (c : CellId) (x : Cell) : (s.setCell c x).jtag = s.jtag := rfl
@[simp] theorem State.setCell_out (c : CellId) (x : Cell) : (s.setCell c x).out = s.out := rfl

/-! ### modCell -/

@[simp] theorem State.modCell_pending (c : CellId) (f : Cell → Cell) : (s.modCell c f).pending = s.pending := rfl
@[simp] theorem State.modCell_free (c : CellId) (f : Cell → Cell) : (s.modCell c f).free = s.free := rfl
@[simp] theorem State.modCell_mem (c : CellId) (f : Cell → Cell) : (s.modCell c f).mem = s.mem := rfl
@[simp] theorem State.modCell_ecc (c : CellId) (f : Cell → Cell) : (s.modCell c f).ecc = s.ecc := rfl
@[simp] theorem State.modCell_stores (c : CellId) (f : Cell → Cell) : (s.modCell c f).stores = s.stores := rfl
@[simp] theorem State.modCell_regs (c : CellId) (f : Cell → Cell) : (s.modCell c f).regs = s.regs := rfl
@[simp] theorem State.modCell_cells (c : CellId) (f : Cell → Cell) : (s.modCell c f).cells = s.cells.set c.num (f (s.cell c)) := rfl
@[simp] theorem State.modCell_hosts (c : CellId) (f : Cell → Cell) : (s.modCell c f).hosts = s.hosts := rfl
@[simp] theorem State.modCell_lofts (c : CellId) (f : Cell → Cell) : (s.modCell c f).lofts = s.lofts := rfl
@[simp] theorem State.modCell_tlbs (c : CellId) (f : Cell → Cell) : (s.modCell c f).tlbs = s.tlbs := rfl
@[simp] theorem State.modCell_paths (c : CellId) (f : Cell → Cell) : (s.modCell c f).paths = s.paths := rfl
@[simp] theorem State.modCell_crates (c : CellId) (f : Cell → Cell) : (s.modCell c f).crates = s.crates := rfl
@[simp] theorem State.modCell_crateNext (c : CellId) (f : Cell → Cell) : (s.modCell c f).crateNext = s.crateNext := rfl
@[simp] theorem State.modCell_jobFaults (c : CellId) (f : Cell → Cell) : (s.modCell c f).jobFaults = s.jobFaults := rfl
@[simp] theorem State.modCell_inbox (c : CellId) (f : Cell → Cell) : (s.modCell c f).inbox = s.inbox := rfl
@[simp] theorem State.modCell_isl (c : CellId) (f : Cell → Cell) : (s.modCell c f).isl = s.isl := rfl
@[simp] theorem State.modCell_faultExt (c : CellId) (f : Cell → Cell) : (s.modCell c f).faultExt = s.faultExt := rfl
@[simp] theorem State.modCell_pwrok (c : CellId) (f : Cell → Cell) : (s.modCell c f).pwrok = s.pwrok := rfl
@[simp] theorem State.modCell_links (c : CellId) (f : Cell → Cell) : (s.modCell c f).links = s.links := rfl
@[simp] theorem State.modCell_crossings (c : CellId) (f : Cell → Cell) : (s.modCell c f).crossings = s.crossings := rfl
@[simp] theorem State.modCell_hub (c : CellId) (f : Cell → Cell) : (s.modCell c f).hub = s.hub := rfl
@[simp] theorem State.modCell_regPorts (c : CellId) (f : Cell → Cell) : (s.modCell c f).regPorts = s.regPorts := rfl
@[simp] theorem State.modCell_regHold (c : CellId) (f : Cell → Cell) : (s.modCell c f).regHold = s.regHold := rfl
@[simp] theorem State.modCell_therm (c : CellId) (f : Cell → Cell) : (s.modCell c f).therm = s.therm := rfl
@[simp] theorem State.modCell_hlth (c : CellId) (f : Cell → Cell) : (s.modCell c f).hlth = s.hlth := rfl
@[simp] theorem State.modCell_tests (c : CellId) (f : Cell → Cell) : (s.modCell c f).tests = s.tests := rfl
@[simp] theorem State.modCell_dramGib (c : CellId) (f : Cell → Cell) : (s.modCell c f).dramGib = s.dramGib := rfl
@[simp] theorem State.modCell_job (c : CellId) (f : Cell → Cell) : (s.modCell c f).job = s.job := rfl
@[simp] theorem State.modCell_aco (c : CellId) (f : Cell → Cell) : (s.modCell c f).aco = s.aco := rfl
@[simp] theorem State.modCell_boots (c : CellId) (f : Cell → Cell) : (s.modCell c f).boots = s.boots := rfl
@[simp] theorem State.modCell_uart (c : CellId) (f : Cell → Cell) : (s.modCell c f).uart = s.uart := rfl
@[simp] theorem State.modCell_dump (c : CellId) (f : Cell → Cell) : (s.modCell c f).dump = s.dump := rfl
@[simp] theorem State.modCell_jtag (c : CellId) (f : Cell → Cell) : (s.modCell c f).jtag = s.jtag := rfl
@[simp] theorem State.modCell_out (c : CellId) (f : Cell → Cell) : (s.modCell c f).out = s.out := rfl

/-! ### modSeq -/

@[simp] theorem State.modSeq_pending (c : CellId) (f : Seq → Seq) : (s.modSeq c f).pending = s.pending := rfl
@[simp] theorem State.modSeq_free (c : CellId) (f : Seq → Seq) : (s.modSeq c f).free = s.free := rfl
@[simp] theorem State.modSeq_mem (c : CellId) (f : Seq → Seq) : (s.modSeq c f).mem = s.mem := rfl
@[simp] theorem State.modSeq_ecc (c : CellId) (f : Seq → Seq) : (s.modSeq c f).ecc = s.ecc := rfl
@[simp] theorem State.modSeq_stores (c : CellId) (f : Seq → Seq) : (s.modSeq c f).stores = s.stores := rfl
@[simp] theorem State.modSeq_regs (c : CellId) (f : Seq → Seq) : (s.modSeq c f).regs = s.regs := rfl
@[simp] theorem State.modSeq_cells (c : CellId) (f : Seq → Seq) : (s.modSeq c f).cells = s.cells.set c.num { s.cell c with seq := f (s.cell c).seq } := rfl
@[simp] theorem State.modSeq_hosts (c : CellId) (f : Seq → Seq) : (s.modSeq c f).hosts = s.hosts := rfl
@[simp] theorem State.modSeq_lofts (c : CellId) (f : Seq → Seq) : (s.modSeq c f).lofts = s.lofts := rfl
@[simp] theorem State.modSeq_tlbs (c : CellId) (f : Seq → Seq) : (s.modSeq c f).tlbs = s.tlbs := rfl
@[simp] theorem State.modSeq_paths (c : CellId) (f : Seq → Seq) : (s.modSeq c f).paths = s.paths := rfl
@[simp] theorem State.modSeq_crates (c : CellId) (f : Seq → Seq) : (s.modSeq c f).crates = s.crates := rfl
@[simp] theorem State.modSeq_crateNext (c : CellId) (f : Seq → Seq) : (s.modSeq c f).crateNext = s.crateNext := rfl
@[simp] theorem State.modSeq_jobFaults (c : CellId) (f : Seq → Seq) : (s.modSeq c f).jobFaults = s.jobFaults := rfl
@[simp] theorem State.modSeq_inbox (c : CellId) (f : Seq → Seq) : (s.modSeq c f).inbox = s.inbox := rfl
@[simp] theorem State.modSeq_isl (c : CellId) (f : Seq → Seq) : (s.modSeq c f).isl = s.isl := rfl
@[simp] theorem State.modSeq_faultExt (c : CellId) (f : Seq → Seq) : (s.modSeq c f).faultExt = s.faultExt := rfl
@[simp] theorem State.modSeq_pwrok (c : CellId) (f : Seq → Seq) : (s.modSeq c f).pwrok = s.pwrok := rfl
@[simp] theorem State.modSeq_links (c : CellId) (f : Seq → Seq) : (s.modSeq c f).links = s.links := rfl
@[simp] theorem State.modSeq_crossings (c : CellId) (f : Seq → Seq) : (s.modSeq c f).crossings = s.crossings := rfl
@[simp] theorem State.modSeq_hub (c : CellId) (f : Seq → Seq) : (s.modSeq c f).hub = s.hub := rfl
@[simp] theorem State.modSeq_regPorts (c : CellId) (f : Seq → Seq) : (s.modSeq c f).regPorts = s.regPorts := rfl
@[simp] theorem State.modSeq_regHold (c : CellId) (f : Seq → Seq) : (s.modSeq c f).regHold = s.regHold := rfl
@[simp] theorem State.modSeq_therm (c : CellId) (f : Seq → Seq) : (s.modSeq c f).therm = s.therm := rfl
@[simp] theorem State.modSeq_hlth (c : CellId) (f : Seq → Seq) : (s.modSeq c f).hlth = s.hlth := rfl
@[simp] theorem State.modSeq_tests (c : CellId) (f : Seq → Seq) : (s.modSeq c f).tests = s.tests := rfl
@[simp] theorem State.modSeq_dramGib (c : CellId) (f : Seq → Seq) : (s.modSeq c f).dramGib = s.dramGib := rfl
@[simp] theorem State.modSeq_job (c : CellId) (f : Seq → Seq) : (s.modSeq c f).job = s.job := rfl
@[simp] theorem State.modSeq_aco (c : CellId) (f : Seq → Seq) : (s.modSeq c f).aco = s.aco := rfl
@[simp] theorem State.modSeq_boots (c : CellId) (f : Seq → Seq) : (s.modSeq c f).boots = s.boots := rfl
@[simp] theorem State.modSeq_uart (c : CellId) (f : Seq → Seq) : (s.modSeq c f).uart = s.uart := rfl
@[simp] theorem State.modSeq_dump (c : CellId) (f : Seq → Seq) : (s.modSeq c f).dump = s.dump := rfl
@[simp] theorem State.modSeq_jtag (c : CellId) (f : Seq → Seq) : (s.modSeq c f).jtag = s.jtag := rfl
@[simp] theorem State.modSeq_out (c : CellId) (f : Seq → Seq) : (s.modSeq c f).out = s.out := rfl

/-! ### setSlv -/

@[simp] theorem State.setSlv_pending (x : SlvId) (v : Sliver) : (s.setSlv x v).pending = s.pending := rfl
@[simp] theorem State.setSlv_free (x : SlvId) (v : Sliver) : (s.setSlv x v).free = s.free := rfl
@[simp] theorem State.setSlv_mem (x : SlvId) (v : Sliver) : (s.setSlv x v).mem = s.mem := rfl
@[simp] theorem State.setSlv_ecc (x : SlvId) (v : Sliver) : (s.setSlv x v).ecc = s.ecc := rfl
@[simp] theorem State.setSlv_stores (x : SlvId) (v : Sliver) : (s.setSlv x v).stores = s.stores := rfl
@[simp] theorem State.setSlv_regs (x : SlvId) (v : Sliver) : (s.setSlv x v).regs = s.regs := rfl
@[simp] theorem State.setSlv_cells (x : SlvId) (v : Sliver) : (s.setSlv x v).cells = s.cells.set x.cell.num { s.cell x.cell with slv := (s.cell x.cell).slv.set x.core v } := rfl
@[simp] theorem State.setSlv_hosts (x : SlvId) (v : Sliver) : (s.setSlv x v).hosts = s.hosts := rfl
@[simp] theorem State.setSlv_lofts (x : SlvId) (v : Sliver) : (s.setSlv x v).lofts = s.lofts := rfl
@[simp] theorem State.setSlv_tlbs (x : SlvId) (v : Sliver) : (s.setSlv x v).tlbs = s.tlbs := rfl
@[simp] theorem State.setSlv_paths (x : SlvId) (v : Sliver) : (s.setSlv x v).paths = s.paths := rfl
@[simp] theorem State.setSlv_crates (x : SlvId) (v : Sliver) : (s.setSlv x v).crates = s.crates := rfl
@[simp] theorem State.setSlv_crateNext (x : SlvId) (v : Sliver) : (s.setSlv x v).crateNext = s.crateNext := rfl
@[simp] theorem State.setSlv_jobFaults (x : SlvId) (v : Sliver) : (s.setSlv x v).jobFaults = s.jobFaults := rfl
@[simp] theorem State.setSlv_inbox (x : SlvId) (v : Sliver) : (s.setSlv x v).inbox = s.inbox := rfl
@[simp] theorem State.setSlv_isl (x : SlvId) (v : Sliver) : (s.setSlv x v).isl = s.isl := rfl
@[simp] theorem State.setSlv_faultExt (x : SlvId) (v : Sliver) : (s.setSlv x v).faultExt = s.faultExt := rfl
@[simp] theorem State.setSlv_pwrok (x : SlvId) (v : Sliver) : (s.setSlv x v).pwrok = s.pwrok := rfl
@[simp] theorem State.setSlv_links (x : SlvId) (v : Sliver) : (s.setSlv x v).links = s.links := rfl
@[simp] theorem State.setSlv_crossings (x : SlvId) (v : Sliver) : (s.setSlv x v).crossings = s.crossings := rfl
@[simp] theorem State.setSlv_hub (x : SlvId) (v : Sliver) : (s.setSlv x v).hub = s.hub := rfl
@[simp] theorem State.setSlv_regPorts (x : SlvId) (v : Sliver) : (s.setSlv x v).regPorts = s.regPorts := rfl
@[simp] theorem State.setSlv_regHold (x : SlvId) (v : Sliver) : (s.setSlv x v).regHold = s.regHold := rfl
@[simp] theorem State.setSlv_therm (x : SlvId) (v : Sliver) : (s.setSlv x v).therm = s.therm := rfl
@[simp] theorem State.setSlv_hlth (x : SlvId) (v : Sliver) : (s.setSlv x v).hlth = s.hlth := rfl
@[simp] theorem State.setSlv_tests (x : SlvId) (v : Sliver) : (s.setSlv x v).tests = s.tests := rfl
@[simp] theorem State.setSlv_dramGib (x : SlvId) (v : Sliver) : (s.setSlv x v).dramGib = s.dramGib := rfl
@[simp] theorem State.setSlv_job (x : SlvId) (v : Sliver) : (s.setSlv x v).job = s.job := rfl
@[simp] theorem State.setSlv_aco (x : SlvId) (v : Sliver) : (s.setSlv x v).aco = s.aco := rfl
@[simp] theorem State.setSlv_boots (x : SlvId) (v : Sliver) : (s.setSlv x v).boots = s.boots := rfl
@[simp] theorem State.setSlv_uart (x : SlvId) (v : Sliver) : (s.setSlv x v).uart = s.uart := rfl
@[simp] theorem State.setSlv_dump (x : SlvId) (v : Sliver) : (s.setSlv x v).dump = s.dump := rfl
@[simp] theorem State.setSlv_jtag (x : SlvId) (v : Sliver) : (s.setSlv x v).jtag = s.jtag := rfl
@[simp] theorem State.setSlv_out (x : SlvId) (v : Sliver) : (s.setSlv x v).out = s.out := rfl

/-! ### modSlv -/

@[simp] theorem State.modSlv_pending (x : SlvId) (f : Sliver → Sliver) : (s.modSlv x f).pending = s.pending := rfl
@[simp] theorem State.modSlv_free (x : SlvId) (f : Sliver → Sliver) : (s.modSlv x f).free = s.free := rfl
@[simp] theorem State.modSlv_mem (x : SlvId) (f : Sliver → Sliver) : (s.modSlv x f).mem = s.mem := rfl
@[simp] theorem State.modSlv_ecc (x : SlvId) (f : Sliver → Sliver) : (s.modSlv x f).ecc = s.ecc := rfl
@[simp] theorem State.modSlv_stores (x : SlvId) (f : Sliver → Sliver) : (s.modSlv x f).stores = s.stores := rfl
@[simp] theorem State.modSlv_regs (x : SlvId) (f : Sliver → Sliver) : (s.modSlv x f).regs = s.regs := rfl
@[simp] theorem State.modSlv_cells (x : SlvId) (f : Sliver → Sliver) : (s.modSlv x f).cells = s.cells.set x.cell.num { s.cell x.cell with slv := (s.cell x.cell).slv.set x.core (f (s.slvAt x)) } := rfl
@[simp] theorem State.modSlv_hosts (x : SlvId) (f : Sliver → Sliver) : (s.modSlv x f).hosts = s.hosts := rfl
@[simp] theorem State.modSlv_lofts (x : SlvId) (f : Sliver → Sliver) : (s.modSlv x f).lofts = s.lofts := rfl
@[simp] theorem State.modSlv_tlbs (x : SlvId) (f : Sliver → Sliver) : (s.modSlv x f).tlbs = s.tlbs := rfl
@[simp] theorem State.modSlv_paths (x : SlvId) (f : Sliver → Sliver) : (s.modSlv x f).paths = s.paths := rfl
@[simp] theorem State.modSlv_crates (x : SlvId) (f : Sliver → Sliver) : (s.modSlv x f).crates = s.crates := rfl
@[simp] theorem State.modSlv_crateNext (x : SlvId) (f : Sliver → Sliver) : (s.modSlv x f).crateNext = s.crateNext := rfl
@[simp] theorem State.modSlv_jobFaults (x : SlvId) (f : Sliver → Sliver) : (s.modSlv x f).jobFaults = s.jobFaults := rfl
@[simp] theorem State.modSlv_inbox (x : SlvId) (f : Sliver → Sliver) : (s.modSlv x f).inbox = s.inbox := rfl
@[simp] theorem State.modSlv_isl (x : SlvId) (f : Sliver → Sliver) : (s.modSlv x f).isl = s.isl := rfl
@[simp] theorem State.modSlv_faultExt (x : SlvId) (f : Sliver → Sliver) : (s.modSlv x f).faultExt = s.faultExt := rfl
@[simp] theorem State.modSlv_pwrok (x : SlvId) (f : Sliver → Sliver) : (s.modSlv x f).pwrok = s.pwrok := rfl
@[simp] theorem State.modSlv_links (x : SlvId) (f : Sliver → Sliver) : (s.modSlv x f).links = s.links := rfl
@[simp] theorem State.modSlv_crossings (x : SlvId) (f : Sliver → Sliver) : (s.modSlv x f).crossings = s.crossings := rfl
@[simp] theorem State.modSlv_hub (x : SlvId) (f : Sliver → Sliver) : (s.modSlv x f).hub = s.hub := rfl
@[simp] theorem State.modSlv_regPorts (x : SlvId) (f : Sliver → Sliver) : (s.modSlv x f).regPorts = s.regPorts := rfl
@[simp] theorem State.modSlv_regHold (x : SlvId) (f : Sliver → Sliver) : (s.modSlv x f).regHold = s.regHold := rfl
@[simp] theorem State.modSlv_therm (x : SlvId) (f : Sliver → Sliver) : (s.modSlv x f).therm = s.therm := rfl
@[simp] theorem State.modSlv_hlth (x : SlvId) (f : Sliver → Sliver) : (s.modSlv x f).hlth = s.hlth := rfl
@[simp] theorem State.modSlv_tests (x : SlvId) (f : Sliver → Sliver) : (s.modSlv x f).tests = s.tests := rfl
@[simp] theorem State.modSlv_dramGib (x : SlvId) (f : Sliver → Sliver) : (s.modSlv x f).dramGib = s.dramGib := rfl
@[simp] theorem State.modSlv_job (x : SlvId) (f : Sliver → Sliver) : (s.modSlv x f).job = s.job := rfl
@[simp] theorem State.modSlv_aco (x : SlvId) (f : Sliver → Sliver) : (s.modSlv x f).aco = s.aco := rfl
@[simp] theorem State.modSlv_boots (x : SlvId) (f : Sliver → Sliver) : (s.modSlv x f).boots = s.boots := rfl
@[simp] theorem State.modSlv_uart (x : SlvId) (f : Sliver → Sliver) : (s.modSlv x f).uart = s.uart := rfl
@[simp] theorem State.modSlv_dump (x : SlvId) (f : Sliver → Sliver) : (s.modSlv x f).dump = s.dump := rfl
@[simp] theorem State.modSlv_jtag (x : SlvId) (f : Sliver → Sliver) : (s.modSlv x f).jtag = s.jtag := rfl
@[simp] theorem State.modSlv_out (x : SlvId) (f : Sliver → Sliver) : (s.modSlv x f).out = s.out := rfl

/-! ### modHost -/

@[simp] theorem State.modHost_pending (h : Fin 8) (f : HostCore → HostCore) : (s.modHost h f).pending = s.pending := rfl
@[simp] theorem State.modHost_free (h : Fin 8) (f : HostCore → HostCore) : (s.modHost h f).free = s.free := rfl
@[simp] theorem State.modHost_mem (h : Fin 8) (f : HostCore → HostCore) : (s.modHost h f).mem = s.mem := rfl
@[simp] theorem State.modHost_ecc (h : Fin 8) (f : HostCore → HostCore) : (s.modHost h f).ecc = s.ecc := rfl
@[simp] theorem State.modHost_stores (h : Fin 8) (f : HostCore → HostCore) : (s.modHost h f).stores = s.stores := rfl
@[simp] theorem State.modHost_regs (h : Fin 8) (f : HostCore → HostCore) : (s.modHost h f).regs = s.regs := rfl
@[simp] theorem State.modHost_cells (h : Fin 8) (f : HostCore → HostCore) : (s.modHost h f).cells = s.cells := rfl
@[simp] theorem State.modHost_hosts (h : Fin 8) (f : HostCore → HostCore) : (s.modHost h f).hosts = s.hosts.set h (f s.hosts[h]) := rfl
@[simp] theorem State.modHost_lofts (h : Fin 8) (f : HostCore → HostCore) : (s.modHost h f).lofts = s.lofts := rfl
@[simp] theorem State.modHost_tlbs (h : Fin 8) (f : HostCore → HostCore) : (s.modHost h f).tlbs = s.tlbs := rfl
@[simp] theorem State.modHost_paths (h : Fin 8) (f : HostCore → HostCore) : (s.modHost h f).paths = s.paths := rfl
@[simp] theorem State.modHost_crates (h : Fin 8) (f : HostCore → HostCore) : (s.modHost h f).crates = s.crates := rfl
@[simp] theorem State.modHost_crateNext (h : Fin 8) (f : HostCore → HostCore) : (s.modHost h f).crateNext = s.crateNext := rfl
@[simp] theorem State.modHost_jobFaults (h : Fin 8) (f : HostCore → HostCore) : (s.modHost h f).jobFaults = s.jobFaults := rfl
@[simp] theorem State.modHost_inbox (h : Fin 8) (f : HostCore → HostCore) : (s.modHost h f).inbox = s.inbox := rfl
@[simp] theorem State.modHost_isl (h : Fin 8) (f : HostCore → HostCore) : (s.modHost h f).isl = s.isl := rfl
@[simp] theorem State.modHost_faultExt (h : Fin 8) (f : HostCore → HostCore) : (s.modHost h f).faultExt = s.faultExt := rfl
@[simp] theorem State.modHost_pwrok (h : Fin 8) (f : HostCore → HostCore) : (s.modHost h f).pwrok = s.pwrok := rfl
@[simp] theorem State.modHost_links (h : Fin 8) (f : HostCore → HostCore) : (s.modHost h f).links = s.links := rfl
@[simp] theorem State.modHost_crossings (h : Fin 8) (f : HostCore → HostCore) : (s.modHost h f).crossings = s.crossings := rfl
@[simp] theorem State.modHost_hub (h : Fin 8) (f : HostCore → HostCore) : (s.modHost h f).hub = s.hub := rfl
@[simp] theorem State.modHost_regPorts (h : Fin 8) (f : HostCore → HostCore) : (s.modHost h f).regPorts = s.regPorts := rfl
@[simp] theorem State.modHost_regHold (h : Fin 8) (f : HostCore → HostCore) : (s.modHost h f).regHold = s.regHold := rfl
@[simp] theorem State.modHost_therm (h : Fin 8) (f : HostCore → HostCore) : (s.modHost h f).therm = s.therm := rfl
@[simp] theorem State.modHost_hlth (h : Fin 8) (f : HostCore → HostCore) : (s.modHost h f).hlth = s.hlth := rfl
@[simp] theorem State.modHost_tests (h : Fin 8) (f : HostCore → HostCore) : (s.modHost h f).tests = s.tests := rfl
@[simp] theorem State.modHost_dramGib (h : Fin 8) (f : HostCore → HostCore) : (s.modHost h f).dramGib = s.dramGib := rfl
@[simp] theorem State.modHost_job (h : Fin 8) (f : HostCore → HostCore) : (s.modHost h f).job = s.job := rfl
@[simp] theorem State.modHost_aco (h : Fin 8) (f : HostCore → HostCore) : (s.modHost h f).aco = s.aco := rfl
@[simp] theorem State.modHost_boots (h : Fin 8) (f : HostCore → HostCore) : (s.modHost h f).boots = s.boots := rfl
@[simp] theorem State.modHost_uart (h : Fin 8) (f : HostCore → HostCore) : (s.modHost h f).uart = s.uart := rfl
@[simp] theorem State.modHost_dump (h : Fin 8) (f : HostCore → HostCore) : (s.modHost h f).dump = s.dump := rfl
@[simp] theorem State.modHost_jtag (h : Fin 8) (f : HostCore → HostCore) : (s.modHost h f).jtag = s.jtag := rfl
@[simp] theorem State.modHost_out (h : Fin 8) (f : HostCore → HostCore) : (s.modHost h f).out = s.out := rfl

/-! ### wr -/

@[simp] theorem State.wr_pending (pa : Nat) (v : W32) : (s.wr pa v).pending = s.pending := rfl
@[simp] theorem State.wr_free (pa : Nat) (v : W32) : (s.wr pa v).free = s.free := rfl
@[simp] theorem State.wr_mem (pa : Nat) (v : W32) : (s.wr pa v).mem = s.mem := rfl
@[simp] theorem State.wr_ecc (pa : Nat) (v : W32) : (s.wr pa v).ecc = s.ecc := rfl
@[simp] theorem State.wr_stores (pa : Nat) (v : W32) : (s.wr pa v).stores = s.stores := rfl
@[simp] theorem State.wr_regs (pa : Nat) (v : W32) : (s.wr pa v).regs = sparseSet regReset pa v s.regs := rfl
@[simp] theorem State.wr_cells (pa : Nat) (v : W32) : (s.wr pa v).cells = s.cells := rfl
@[simp] theorem State.wr_hosts (pa : Nat) (v : W32) : (s.wr pa v).hosts = s.hosts := rfl
@[simp] theorem State.wr_lofts (pa : Nat) (v : W32) : (s.wr pa v).lofts = s.lofts := rfl
@[simp] theorem State.wr_tlbs (pa : Nat) (v : W32) : (s.wr pa v).tlbs = s.tlbs := rfl
@[simp] theorem State.wr_paths (pa : Nat) (v : W32) : (s.wr pa v).paths = s.paths := rfl
@[simp] theorem State.wr_crates (pa : Nat) (v : W32) : (s.wr pa v).crates = s.crates := rfl
@[simp] theorem State.wr_crateNext (pa : Nat) (v : W32) : (s.wr pa v).crateNext = s.crateNext := rfl
@[simp] theorem State.wr_jobFaults (pa : Nat) (v : W32) : (s.wr pa v).jobFaults = s.jobFaults := rfl
@[simp] theorem State.wr_inbox (pa : Nat) (v : W32) : (s.wr pa v).inbox = s.inbox := rfl
@[simp] theorem State.wr_isl (pa : Nat) (v : W32) : (s.wr pa v).isl = s.isl := rfl
@[simp] theorem State.wr_faultExt (pa : Nat) (v : W32) : (s.wr pa v).faultExt = s.faultExt := rfl
@[simp] theorem State.wr_pwrok (pa : Nat) (v : W32) : (s.wr pa v).pwrok = s.pwrok := rfl
@[simp] theorem State.wr_links (pa : Nat) (v : W32) : (s.wr pa v).links = s.links := rfl
@[simp] theorem State.wr_crossings (pa : Nat) (v : W32) : (s.wr pa v).crossings = s.crossings := rfl
@[simp] theorem State.wr_hub (pa : Nat) (v : W32) : (s.wr pa v).hub = s.hub := rfl
@[simp] theorem State.wr_regPorts (pa : Nat) (v : W32) : (s.wr pa v).regPorts = s.regPorts := rfl
@[simp] theorem State.wr_regHold (pa : Nat) (v : W32) : (s.wr pa v).regHold = s.regHold := rfl
@[simp] theorem State.wr_therm (pa : Nat) (v : W32) : (s.wr pa v).therm = s.therm := rfl
@[simp] theorem State.wr_hlth (pa : Nat) (v : W32) : (s.wr pa v).hlth = s.hlth := rfl
@[simp] theorem State.wr_tests (pa : Nat) (v : W32) : (s.wr pa v).tests = s.tests := rfl
@[simp] theorem State.wr_dramGib (pa : Nat) (v : W32) : (s.wr pa v).dramGib = s.dramGib := rfl
@[simp] theorem State.wr_job (pa : Nat) (v : W32) : (s.wr pa v).job = s.job := rfl
@[simp] theorem State.wr_aco (pa : Nat) (v : W32) : (s.wr pa v).aco = s.aco := rfl
@[simp] theorem State.wr_boots (pa : Nat) (v : W32) : (s.wr pa v).boots = s.boots := rfl
@[simp] theorem State.wr_uart (pa : Nat) (v : W32) : (s.wr pa v).uart = s.uart := rfl
@[simp] theorem State.wr_dump (pa : Nat) (v : W32) : (s.wr pa v).dump = s.dump := rfl
@[simp] theorem State.wr_jtag (pa : Nat) (v : W32) : (s.wr pa v).jtag = s.jtag := rfl
@[simp] theorem State.wr_out (pa : Nat) (v : W32) : (s.wr pa v).out = s.out := rfl

/-! ### setReg -/

@[simp] theorem State.setReg_pending (b : Blk) (o : Nat) (v : W32) : (s.setReg b o v).pending = s.pending := rfl
@[simp] theorem State.setReg_free (b : Blk) (o : Nat) (v : W32) : (s.setReg b o v).free = s.free := rfl
@[simp] theorem State.setReg_mem (b : Blk) (o : Nat) (v : W32) : (s.setReg b o v).mem = s.mem := rfl
@[simp] theorem State.setReg_ecc (b : Blk) (o : Nat) (v : W32) : (s.setReg b o v).ecc = s.ecc := rfl
@[simp] theorem State.setReg_stores (b : Blk) (o : Nat) (v : W32) : (s.setReg b o v).stores = s.stores := rfl
@[simp] theorem State.setReg_regs (b : Blk) (o : Nat) (v : W32) : (s.setReg b o v).regs = sparseSet regReset (b.at o) v s.regs := rfl
@[simp] theorem State.setReg_cells (b : Blk) (o : Nat) (v : W32) : (s.setReg b o v).cells = s.cells := rfl
@[simp] theorem State.setReg_hosts (b : Blk) (o : Nat) (v : W32) : (s.setReg b o v).hosts = s.hosts := rfl
@[simp] theorem State.setReg_lofts (b : Blk) (o : Nat) (v : W32) : (s.setReg b o v).lofts = s.lofts := rfl
@[simp] theorem State.setReg_tlbs (b : Blk) (o : Nat) (v : W32) : (s.setReg b o v).tlbs = s.tlbs := rfl
@[simp] theorem State.setReg_paths (b : Blk) (o : Nat) (v : W32) : (s.setReg b o v).paths = s.paths := rfl
@[simp] theorem State.setReg_crates (b : Blk) (o : Nat) (v : W32) : (s.setReg b o v).crates = s.crates := rfl
@[simp] theorem State.setReg_crateNext (b : Blk) (o : Nat) (v : W32) : (s.setReg b o v).crateNext = s.crateNext := rfl
@[simp] theorem State.setReg_jobFaults (b : Blk) (o : Nat) (v : W32) : (s.setReg b o v).jobFaults = s.jobFaults := rfl
@[simp] theorem State.setReg_inbox (b : Blk) (o : Nat) (v : W32) : (s.setReg b o v).inbox = s.inbox := rfl
@[simp] theorem State.setReg_isl (b : Blk) (o : Nat) (v : W32) : (s.setReg b o v).isl = s.isl := rfl
@[simp] theorem State.setReg_faultExt (b : Blk) (o : Nat) (v : W32) : (s.setReg b o v).faultExt = s.faultExt := rfl
@[simp] theorem State.setReg_pwrok (b : Blk) (o : Nat) (v : W32) : (s.setReg b o v).pwrok = s.pwrok := rfl
@[simp] theorem State.setReg_links (b : Blk) (o : Nat) (v : W32) : (s.setReg b o v).links = s.links := rfl
@[simp] theorem State.setReg_crossings (b : Blk) (o : Nat) (v : W32) : (s.setReg b o v).crossings = s.crossings := rfl
@[simp] theorem State.setReg_hub (b : Blk) (o : Nat) (v : W32) : (s.setReg b o v).hub = s.hub := rfl
@[simp] theorem State.setReg_regPorts (b : Blk) (o : Nat) (v : W32) : (s.setReg b o v).regPorts = s.regPorts := rfl
@[simp] theorem State.setReg_regHold (b : Blk) (o : Nat) (v : W32) : (s.setReg b o v).regHold = s.regHold := rfl
@[simp] theorem State.setReg_therm (b : Blk) (o : Nat) (v : W32) : (s.setReg b o v).therm = s.therm := rfl
@[simp] theorem State.setReg_hlth (b : Blk) (o : Nat) (v : W32) : (s.setReg b o v).hlth = s.hlth := rfl
@[simp] theorem State.setReg_tests (b : Blk) (o : Nat) (v : W32) : (s.setReg b o v).tests = s.tests := rfl
@[simp] theorem State.setReg_dramGib (b : Blk) (o : Nat) (v : W32) : (s.setReg b o v).dramGib = s.dramGib := rfl
@[simp] theorem State.setReg_job (b : Blk) (o : Nat) (v : W32) : (s.setReg b o v).job = s.job := rfl
@[simp] theorem State.setReg_aco (b : Blk) (o : Nat) (v : W32) : (s.setReg b o v).aco = s.aco := rfl
@[simp] theorem State.setReg_boots (b : Blk) (o : Nat) (v : W32) : (s.setReg b o v).boots = s.boots := rfl
@[simp] theorem State.setReg_uart (b : Blk) (o : Nat) (v : W32) : (s.setReg b o v).uart = s.uart := rfl
@[simp] theorem State.setReg_dump (b : Blk) (o : Nat) (v : W32) : (s.setReg b o v).dump = s.dump := rfl
@[simp] theorem State.setReg_jtag (b : Blk) (o : Nat) (v : W32) : (s.setReg b o v).jtag = s.jtag := rfl
@[simp] theorem State.setReg_out (b : Blk) (o : Nat) (v : W32) : (s.setReg b o v).out = s.out := rfl

/-! ### setFld -/

@[simp] theorem State.setFld_pending (b : Blk) (o hi lo x : Nat) : (s.setFld b o hi lo x).pending = s.pending := rfl
@[simp] theorem State.setFld_free (b : Blk) (o hi lo x : Nat) : (s.setFld b o hi lo x).free = s.free := rfl
@[simp] theorem State.setFld_mem (b : Blk) (o hi lo x : Nat) : (s.setFld b o hi lo x).mem = s.mem := rfl
@[simp] theorem State.setFld_ecc (b : Blk) (o hi lo x : Nat) : (s.setFld b o hi lo x).ecc = s.ecc := rfl
@[simp] theorem State.setFld_stores (b : Blk) (o hi lo x : Nat) : (s.setFld b o hi lo x).stores = s.stores := rfl
@[simp] theorem State.setFld_regs (b : Blk) (o hi lo x : Nat) : (s.setFld b o hi lo x).regs = sparseSet regReset (b.at o) (setBits (s.reg b o) hi lo x) s.regs := rfl
@[simp] theorem State.setFld_cells (b : Blk) (o hi lo x : Nat) : (s.setFld b o hi lo x).cells = s.cells := rfl
@[simp] theorem State.setFld_hosts (b : Blk) (o hi lo x : Nat) : (s.setFld b o hi lo x).hosts = s.hosts := rfl
@[simp] theorem State.setFld_lofts (b : Blk) (o hi lo x : Nat) : (s.setFld b o hi lo x).lofts = s.lofts := rfl
@[simp] theorem State.setFld_tlbs (b : Blk) (o hi lo x : Nat) : (s.setFld b o hi lo x).tlbs = s.tlbs := rfl
@[simp] theorem State.setFld_paths (b : Blk) (o hi lo x : Nat) : (s.setFld b o hi lo x).paths = s.paths := rfl
@[simp] theorem State.setFld_crates (b : Blk) (o hi lo x : Nat) : (s.setFld b o hi lo x).crates = s.crates := rfl
@[simp] theorem State.setFld_crateNext (b : Blk) (o hi lo x : Nat) : (s.setFld b o hi lo x).crateNext = s.crateNext := rfl
@[simp] theorem State.setFld_jobFaults (b : Blk) (o hi lo x : Nat) : (s.setFld b o hi lo x).jobFaults = s.jobFaults := rfl
@[simp] theorem State.setFld_inbox (b : Blk) (o hi lo x : Nat) : (s.setFld b o hi lo x).inbox = s.inbox := rfl
@[simp] theorem State.setFld_isl (b : Blk) (o hi lo x : Nat) : (s.setFld b o hi lo x).isl = s.isl := rfl
@[simp] theorem State.setFld_faultExt (b : Blk) (o hi lo x : Nat) : (s.setFld b o hi lo x).faultExt = s.faultExt := rfl
@[simp] theorem State.setFld_pwrok (b : Blk) (o hi lo x : Nat) : (s.setFld b o hi lo x).pwrok = s.pwrok := rfl
@[simp] theorem State.setFld_links (b : Blk) (o hi lo x : Nat) : (s.setFld b o hi lo x).links = s.links := rfl
@[simp] theorem State.setFld_crossings (b : Blk) (o hi lo x : Nat) : (s.setFld b o hi lo x).crossings = s.crossings := rfl
@[simp] theorem State.setFld_hub (b : Blk) (o hi lo x : Nat) : (s.setFld b o hi lo x).hub = s.hub := rfl
@[simp] theorem State.setFld_regPorts (b : Blk) (o hi lo x : Nat) : (s.setFld b o hi lo x).regPorts = s.regPorts := rfl
@[simp] theorem State.setFld_regHold (b : Blk) (o hi lo x : Nat) : (s.setFld b o hi lo x).regHold = s.regHold := rfl
@[simp] theorem State.setFld_therm (b : Blk) (o hi lo x : Nat) : (s.setFld b o hi lo x).therm = s.therm := rfl
@[simp] theorem State.setFld_hlth (b : Blk) (o hi lo x : Nat) : (s.setFld b o hi lo x).hlth = s.hlth := rfl
@[simp] theorem State.setFld_tests (b : Blk) (o hi lo x : Nat) : (s.setFld b o hi lo x).tests = s.tests := rfl
@[simp] theorem State.setFld_dramGib (b : Blk) (o hi lo x : Nat) : (s.setFld b o hi lo x).dramGib = s.dramGib := rfl
@[simp] theorem State.setFld_job (b : Blk) (o hi lo x : Nat) : (s.setFld b o hi lo x).job = s.job := rfl
@[simp] theorem State.setFld_aco (b : Blk) (o hi lo x : Nat) : (s.setFld b o hi lo x).aco = s.aco := rfl
@[simp] theorem State.setFld_boots (b : Blk) (o hi lo x : Nat) : (s.setFld b o hi lo x).boots = s.boots := rfl
@[simp] theorem State.setFld_uart (b : Blk) (o hi lo x : Nat) : (s.setFld b o hi lo x).uart = s.uart := rfl
@[simp] theorem State.setFld_dump (b : Blk) (o hi lo x : Nat) : (s.setFld b o hi lo x).dump = s.dump := rfl
@[simp] theorem State.setFld_jtag (b : Blk) (o hi lo x : Nat) : (s.setFld b o hi lo x).jtag = s.jtag := rfl
@[simp] theorem State.setFld_out (b : Blk) (o hi lo x : Nat) : (s.setFld b o hi lo x).out = s.out := rfl

/-! ### orReg -/

@[simp] theorem State.orReg_pending (b : Blk) (o : Nat) (m : W32) : (s.orReg b o m).pending = s.pending := rfl
@[simp] theorem State.orReg_free (b : Blk) (o : Nat) (m : W32) : (s.orReg b o m).free = s.free := rfl
@[simp] theorem State.orReg_mem (b : Blk) (o : Nat) (m : W32) : (s.orReg b o m).mem = s.mem := rfl
@[simp] theorem State.orReg_ecc (b : Blk) (o : Nat) (m : W32) : (s.orReg b o m).ecc = s.ecc := rfl
@[simp] theorem State.orReg_stores (b : Blk) (o : Nat) (m : W32) : (s.orReg b o m).stores = s.stores := rfl
@[simp] theorem State.orReg_regs (b : Blk) (o : Nat) (m : W32) : (s.orReg b o m).regs = sparseSet regReset (b.at o) (s.reg b o ||| m) s.regs := rfl
@[simp] theorem State.orReg_cells (b : Blk) (o : Nat) (m : W32) : (s.orReg b o m).cells = s.cells := rfl
@[simp] theorem State.orReg_hosts (b : Blk) (o : Nat) (m : W32) : (s.orReg b o m).hosts = s.hosts := rfl
@[simp] theorem State.orReg_lofts (b : Blk) (o : Nat) (m : W32) : (s.orReg b o m).lofts = s.lofts := rfl
@[simp] theorem State.orReg_tlbs (b : Blk) (o : Nat) (m : W32) : (s.orReg b o m).tlbs = s.tlbs := rfl
@[simp] theorem State.orReg_paths (b : Blk) (o : Nat) (m : W32) : (s.orReg b o m).paths = s.paths := rfl
@[simp] theorem State.orReg_crates (b : Blk) (o : Nat) (m : W32) : (s.orReg b o m).crates = s.crates := rfl
@[simp] theorem State.orReg_crateNext (b : Blk) (o : Nat) (m : W32) : (s.orReg b o m).crateNext = s.crateNext := rfl
@[simp] theorem State.orReg_jobFaults (b : Blk) (o : Nat) (m : W32) : (s.orReg b o m).jobFaults = s.jobFaults := rfl
@[simp] theorem State.orReg_inbox (b : Blk) (o : Nat) (m : W32) : (s.orReg b o m).inbox = s.inbox := rfl
@[simp] theorem State.orReg_isl (b : Blk) (o : Nat) (m : W32) : (s.orReg b o m).isl = s.isl := rfl
@[simp] theorem State.orReg_faultExt (b : Blk) (o : Nat) (m : W32) : (s.orReg b o m).faultExt = s.faultExt := rfl
@[simp] theorem State.orReg_pwrok (b : Blk) (o : Nat) (m : W32) : (s.orReg b o m).pwrok = s.pwrok := rfl
@[simp] theorem State.orReg_links (b : Blk) (o : Nat) (m : W32) : (s.orReg b o m).links = s.links := rfl
@[simp] theorem State.orReg_crossings (b : Blk) (o : Nat) (m : W32) : (s.orReg b o m).crossings = s.crossings := rfl
@[simp] theorem State.orReg_hub (b : Blk) (o : Nat) (m : W32) : (s.orReg b o m).hub = s.hub := rfl
@[simp] theorem State.orReg_regPorts (b : Blk) (o : Nat) (m : W32) : (s.orReg b o m).regPorts = s.regPorts := rfl
@[simp] theorem State.orReg_regHold (b : Blk) (o : Nat) (m : W32) : (s.orReg b o m).regHold = s.regHold := rfl
@[simp] theorem State.orReg_therm (b : Blk) (o : Nat) (m : W32) : (s.orReg b o m).therm = s.therm := rfl
@[simp] theorem State.orReg_hlth (b : Blk) (o : Nat) (m : W32) : (s.orReg b o m).hlth = s.hlth := rfl
@[simp] theorem State.orReg_tests (b : Blk) (o : Nat) (m : W32) : (s.orReg b o m).tests = s.tests := rfl
@[simp] theorem State.orReg_dramGib (b : Blk) (o : Nat) (m : W32) : (s.orReg b o m).dramGib = s.dramGib := rfl
@[simp] theorem State.orReg_job (b : Blk) (o : Nat) (m : W32) : (s.orReg b o m).job = s.job := rfl
@[simp] theorem State.orReg_aco (b : Blk) (o : Nat) (m : W32) : (s.orReg b o m).aco = s.aco := rfl
@[simp] theorem State.orReg_boots (b : Blk) (o : Nat) (m : W32) : (s.orReg b o m).boots = s.boots := rfl
@[simp] theorem State.orReg_uart (b : Blk) (o : Nat) (m : W32) : (s.orReg b o m).uart = s.uart := rfl
@[simp] theorem State.orReg_dump (b : Blk) (o : Nat) (m : W32) : (s.orReg b o m).dump = s.dump := rfl
@[simp] theorem State.orReg_jtag (b : Blk) (o : Nat) (m : W32) : (s.orReg b o m).jtag = s.jtag := rfl
@[simp] theorem State.orReg_out (b : Blk) (o : Nat) (m : W32) : (s.orReg b o m).out = s.out := rfl

/-! ### clrReg -/

@[simp] theorem State.clrReg_pending (b : Blk) (o : Nat) (m : W32) : (s.clrReg b o m).pending = s.pending := rfl
@[simp] theorem State.clrReg_free (b : Blk) (o : Nat) (m : W32) : (s.clrReg b o m).free = s.free := rfl
@[simp] theorem State.clrReg_mem (b : Blk) (o : Nat) (m : W32) : (s.clrReg b o m).mem = s.mem := rfl
@[simp] theorem State.clrReg_ecc (b : Blk) (o : Nat) (m : W32) : (s.clrReg b o m).ecc = s.ecc := rfl
@[simp] theorem State.clrReg_stores (b : Blk) (o : Nat) (m : W32) : (s.clrReg b o m).stores = s.stores := rfl
@[simp] theorem State.clrReg_regs (b : Blk) (o : Nat) (m : W32) : (s.clrReg b o m).regs = sparseSet regReset (b.at o) (s.reg b o &&& ~~~m) s.regs := rfl
@[simp] theorem State.clrReg_cells (b : Blk) (o : Nat) (m : W32) : (s.clrReg b o m).cells = s.cells := rfl
@[simp] theorem State.clrReg_hosts (b : Blk) (o : Nat) (m : W32) : (s.clrReg b o m).hosts = s.hosts := rfl
@[simp] theorem State.clrReg_lofts (b : Blk) (o : Nat) (m : W32) : (s.clrReg b o m).lofts = s.lofts := rfl
@[simp] theorem State.clrReg_tlbs (b : Blk) (o : Nat) (m : W32) : (s.clrReg b o m).tlbs = s.tlbs := rfl
@[simp] theorem State.clrReg_paths (b : Blk) (o : Nat) (m : W32) : (s.clrReg b o m).paths = s.paths := rfl
@[simp] theorem State.clrReg_crates (b : Blk) (o : Nat) (m : W32) : (s.clrReg b o m).crates = s.crates := rfl
@[simp] theorem State.clrReg_crateNext (b : Blk) (o : Nat) (m : W32) : (s.clrReg b o m).crateNext = s.crateNext := rfl
@[simp] theorem State.clrReg_jobFaults (b : Blk) (o : Nat) (m : W32) : (s.clrReg b o m).jobFaults = s.jobFaults := rfl
@[simp] theorem State.clrReg_inbox (b : Blk) (o : Nat) (m : W32) : (s.clrReg b o m).inbox = s.inbox := rfl
@[simp] theorem State.clrReg_isl (b : Blk) (o : Nat) (m : W32) : (s.clrReg b o m).isl = s.isl := rfl
@[simp] theorem State.clrReg_faultExt (b : Blk) (o : Nat) (m : W32) : (s.clrReg b o m).faultExt = s.faultExt := rfl
@[simp] theorem State.clrReg_pwrok (b : Blk) (o : Nat) (m : W32) : (s.clrReg b o m).pwrok = s.pwrok := rfl
@[simp] theorem State.clrReg_links (b : Blk) (o : Nat) (m : W32) : (s.clrReg b o m).links = s.links := rfl
@[simp] theorem State.clrReg_crossings (b : Blk) (o : Nat) (m : W32) : (s.clrReg b o m).crossings = s.crossings := rfl
@[simp] theorem State.clrReg_hub (b : Blk) (o : Nat) (m : W32) : (s.clrReg b o m).hub = s.hub := rfl
@[simp] theorem State.clrReg_regPorts (b : Blk) (o : Nat) (m : W32) : (s.clrReg b o m).regPorts = s.regPorts := rfl
@[simp] theorem State.clrReg_regHold (b : Blk) (o : Nat) (m : W32) : (s.clrReg b o m).regHold = s.regHold := rfl
@[simp] theorem State.clrReg_therm (b : Blk) (o : Nat) (m : W32) : (s.clrReg b o m).therm = s.therm := rfl
@[simp] theorem State.clrReg_hlth (b : Blk) (o : Nat) (m : W32) : (s.clrReg b o m).hlth = s.hlth := rfl
@[simp] theorem State.clrReg_tests (b : Blk) (o : Nat) (m : W32) : (s.clrReg b o m).tests = s.tests := rfl
@[simp] theorem State.clrReg_dramGib (b : Blk) (o : Nat) (m : W32) : (s.clrReg b o m).dramGib = s.dramGib := rfl
@[simp] theorem State.clrReg_job (b : Blk) (o : Nat) (m : W32) : (s.clrReg b o m).job = s.job := rfl
@[simp] theorem State.clrReg_aco (b : Blk) (o : Nat) (m : W32) : (s.clrReg b o m).aco = s.aco := rfl
@[simp] theorem State.clrReg_boots (b : Blk) (o : Nat) (m : W32) : (s.clrReg b o m).boots = s.boots := rfl
@[simp] theorem State.clrReg_uart (b : Blk) (o : Nat) (m : W32) : (s.clrReg b o m).uart = s.uart := rfl
@[simp] theorem State.clrReg_dump (b : Blk) (o : Nat) (m : W32) : (s.clrReg b o m).dump = s.dump := rfl
@[simp] theorem State.clrReg_jtag (b : Blk) (o : Nat) (m : W32) : (s.clrReg b o m).jtag = s.jtag := rfl
@[simp] theorem State.clrReg_out (b : Blk) (o : Nat) (m : W32) : (s.clrReg b o m).out = s.out := rfl

/-! ### count -/

@[simp] theorem State.count_pending (b : Blk) (o hi lo n : Nat) : (s.count b o hi lo n).pending = s.pending := rfl
@[simp] theorem State.count_free (b : Blk) (o hi lo n : Nat) : (s.count b o hi lo n).free = s.free := rfl
@[simp] theorem State.count_mem (b : Blk) (o hi lo n : Nat) : (s.count b o hi lo n).mem = s.mem := rfl
@[simp] theorem State.count_ecc (b : Blk) (o hi lo n : Nat) : (s.count b o hi lo n).ecc = s.ecc := rfl
@[simp] theorem State.count_stores (b : Blk) (o hi lo n : Nat) : (s.count b o hi lo n).stores = s.stores := rfl
@[simp] theorem State.count_cells (b : Blk) (o hi lo n : Nat) : (s.count b o hi lo n).cells = s.cells := rfl
@[simp] theorem State.count_hosts (b : Blk) (o hi lo n : Nat) : (s.count b o hi lo n).hosts = s.hosts := rfl
@[simp] theorem State.count_lofts (b : Blk) (o hi lo n : Nat) : (s.count b o hi lo n).lofts = s.lofts := rfl
@[simp] theorem State.count_tlbs (b : Blk) (o hi lo n : Nat) : (s.count b o hi lo n).tlbs = s.tlbs := rfl
@[simp] theorem State.count_paths (b : Blk) (o hi lo n : Nat) : (s.count b o hi lo n).paths = s.paths := rfl
@[simp] theorem State.count_crates (b : Blk) (o hi lo n : Nat) : (s.count b o hi lo n).crates = s.crates := rfl
@[simp] theorem State.count_crateNext (b : Blk) (o hi lo n : Nat) : (s.count b o hi lo n).crateNext = s.crateNext := rfl
@[simp] theorem State.count_jobFaults (b : Blk) (o hi lo n : Nat) : (s.count b o hi lo n).jobFaults = s.jobFaults := rfl
@[simp] theorem State.count_inbox (b : Blk) (o hi lo n : Nat) : (s.count b o hi lo n).inbox = s.inbox := rfl
@[simp] theorem State.count_isl (b : Blk) (o hi lo n : Nat) : (s.count b o hi lo n).isl = s.isl := rfl
@[simp] theorem State.count_faultExt (b : Blk) (o hi lo n : Nat) : (s.count b o hi lo n).faultExt = s.faultExt := rfl
@[simp] theorem State.count_pwrok (b : Blk) (o hi lo n : Nat) : (s.count b o hi lo n).pwrok = s.pwrok := rfl
@[simp] theorem State.count_links (b : Blk) (o hi lo n : Nat) : (s.count b o hi lo n).links = s.links := rfl
@[simp] theorem State.count_crossings (b : Blk) (o hi lo n : Nat) : (s.count b o hi lo n).crossings = s.crossings := rfl
@[simp] theorem State.count_hub (b : Blk) (o hi lo n : Nat) : (s.count b o hi lo n).hub = s.hub := rfl
@[simp] theorem State.count_regPorts (b : Blk) (o hi lo n : Nat) : (s.count b o hi lo n).regPorts = s.regPorts := rfl
@[simp] theorem State.count_regHold (b : Blk) (o hi lo n : Nat) : (s.count b o hi lo n).regHold = s.regHold := rfl
@[simp] theorem State.count_therm (b : Blk) (o hi lo n : Nat) : (s.count b o hi lo n).therm = s.therm := rfl
@[simp] theorem State.count_hlth (b : Blk) (o hi lo n : Nat) : (s.count b o hi lo n).hlth = s.hlth := rfl
@[simp] theorem State.count_tests (b : Blk) (o hi lo n : Nat) : (s.count b o hi lo n).tests = s.tests := rfl
@[simp] theorem State.count_dramGib (b : Blk) (o hi lo n : Nat) : (s.count b o hi lo n).dramGib = s.dramGib := rfl
@[simp] theorem State.count_job (b : Blk) (o hi lo n : Nat) : (s.count b o hi lo n).job = s.job := rfl
@[simp] theorem State.count_aco (b : Blk) (o hi lo n : Nat) : (s.count b o hi lo n).aco = s.aco := rfl
@[simp] theorem State.count_boots (b : Blk) (o hi lo n : Nat) : (s.count b o hi lo n).boots = s.boots := rfl
@[simp] theorem State.count_uart (b : Blk) (o hi lo n : Nat) : (s.count b o hi lo n).uart = s.uart := rfl
@[simp] theorem State.count_dump (b : Blk) (o hi lo n : Nat) : (s.count b o hi lo n).dump = s.dump := rfl
@[simp] theorem State.count_jtag (b : Blk) (o hi lo n : Nat) : (s.count b o hi lo n).jtag = s.jtag := rfl
@[simp] theorem State.count_out (b : Blk) (o hi lo n : Nat) : (s.count b o hi lo n).out = s.out := rfl

/-! ### setEcc -/

@[simp] theorem State.setEcc_pending (g : Nat) (e : Ecc) : (s.setEcc g e).pending = s.pending := rfl
@[simp] theorem State.setEcc_free (g : Nat) (e : Ecc) : (s.setEcc g e).free = s.free := rfl
@[simp] theorem State.setEcc_mem (g : Nat) (e : Ecc) : (s.setEcc g e).mem = s.mem := rfl
@[simp] theorem State.setEcc_ecc (g : Nat) (e : Ecc) : (s.setEcc g e).ecc = sparseSet (fun _ => Ecc.clean) (s.home g) e s.ecc := rfl
@[simp] theorem State.setEcc_stores (g : Nat) (e : Ecc) : (s.setEcc g e).stores = s.stores := rfl
@[simp] theorem State.setEcc_regs (g : Nat) (e : Ecc) : (s.setEcc g e).regs = s.regs := rfl
@[simp] theorem State.setEcc_cells (g : Nat) (e : Ecc) : (s.setEcc g e).cells = s.cells := rfl
@[simp] theorem State.setEcc_hosts (g : Nat) (e : Ecc) : (s.setEcc g e).hosts = s.hosts := rfl
@[simp] theorem State.setEcc_lofts (g : Nat) (e : Ecc) : (s.setEcc g e).lofts = s.lofts := rfl
@[simp] theorem State.setEcc_tlbs (g : Nat) (e : Ecc) : (s.setEcc g e).tlbs = s.tlbs := rfl
@[simp] theorem State.setEcc_paths (g : Nat) (e : Ecc) : (s.setEcc g e).paths = s.paths := rfl
@[simp] theorem State.setEcc_crates (g : Nat) (e : Ecc) : (s.setEcc g e).crates = s.crates := rfl
@[simp] theorem State.setEcc_crateNext (g : Nat) (e : Ecc) : (s.setEcc g e).crateNext = s.crateNext := rfl
@[simp] theorem State.setEcc_jobFaults (g : Nat) (e : Ecc) : (s.setEcc g e).jobFaults = s.jobFaults := rfl
@[simp] theorem State.setEcc_inbox (g : Nat) (e : Ecc) : (s.setEcc g e).inbox = s.inbox := rfl
@[simp] theorem State.setEcc_isl (g : Nat) (e : Ecc) : (s.setEcc g e).isl = s.isl := rfl
@[simp] theorem State.setEcc_faultExt (g : Nat) (e : Ecc) : (s.setEcc g e).faultExt = s.faultExt := rfl
@[simp] theorem State.setEcc_pwrok (g : Nat) (e : Ecc) : (s.setEcc g e).pwrok = s.pwrok := rfl
@[simp] theorem State.setEcc_links (g : Nat) (e : Ecc) : (s.setEcc g e).links = s.links := rfl
@[simp] theorem State.setEcc_crossings (g : Nat) (e : Ecc) : (s.setEcc g e).crossings = s.crossings := rfl
@[simp] theorem State.setEcc_hub (g : Nat) (e : Ecc) : (s.setEcc g e).hub = s.hub := rfl
@[simp] theorem State.setEcc_regPorts (g : Nat) (e : Ecc) : (s.setEcc g e).regPorts = s.regPorts := rfl
@[simp] theorem State.setEcc_regHold (g : Nat) (e : Ecc) : (s.setEcc g e).regHold = s.regHold := rfl
@[simp] theorem State.setEcc_therm (g : Nat) (e : Ecc) : (s.setEcc g e).therm = s.therm := rfl
@[simp] theorem State.setEcc_hlth (g : Nat) (e : Ecc) : (s.setEcc g e).hlth = s.hlth := rfl
@[simp] theorem State.setEcc_tests (g : Nat) (e : Ecc) : (s.setEcc g e).tests = s.tests := rfl
@[simp] theorem State.setEcc_dramGib (g : Nat) (e : Ecc) : (s.setEcc g e).dramGib = s.dramGib := rfl
@[simp] theorem State.setEcc_job (g : Nat) (e : Ecc) : (s.setEcc g e).job = s.job := rfl
@[simp] theorem State.setEcc_aco (g : Nat) (e : Ecc) : (s.setEcc g e).aco = s.aco := rfl
@[simp] theorem State.setEcc_boots (g : Nat) (e : Ecc) : (s.setEcc g e).boots = s.boots := rfl
@[simp] theorem State.setEcc_uart (g : Nat) (e : Ecc) : (s.setEcc g e).uart = s.uart := rfl
@[simp] theorem State.setEcc_dump (g : Nat) (e : Ecc) : (s.setEcc g e).dump = s.dump := rfl
@[simp] theorem State.setEcc_jtag (g : Nat) (e : Ecc) : (s.setEcc g e).jtag = s.jtag := rfl
@[simp] theorem State.setEcc_out (g : Nat) (e : Ecc) : (s.setEcc g e).out = s.out := rfl

/-! ### report -/

@[simp] theorem State.report_pending (r : Report) : (s.report r).pending = s.pending := rfl
@[simp] theorem State.report_free (r : Report) : (s.report r).free = s.free := rfl
@[simp] theorem State.report_mem (r : Report) : (s.report r).mem = s.mem := rfl
@[simp] theorem State.report_ecc (r : Report) : (s.report r).ecc = s.ecc := rfl
@[simp] theorem State.report_stores (r : Report) : (s.report r).stores = s.stores := rfl
@[simp] theorem State.report_regs (r : Report) : (s.report r).regs = s.regs := rfl
@[simp] theorem State.report_cells (r : Report) : (s.report r).cells = s.cells := rfl
@[simp] theorem State.report_hosts (r : Report) : (s.report r).hosts = s.hosts := rfl
@[simp] theorem State.report_lofts (r : Report) : (s.report r).lofts = s.lofts := rfl
@[simp] theorem State.report_tlbs (r : Report) : (s.report r).tlbs = s.tlbs := rfl
@[simp] theorem State.report_paths (r : Report) : (s.report r).paths = s.paths := rfl
@[simp] theorem State.report_crates (r : Report) : (s.report r).crates = s.crates := rfl
@[simp] theorem State.report_crateNext (r : Report) : (s.report r).crateNext = s.crateNext := rfl
@[simp] theorem State.report_jobFaults (r : Report) : (s.report r).jobFaults = s.jobFaults := rfl
@[simp] theorem State.report_inbox (r : Report) : (s.report r).inbox = s.inbox.map (fun l => l ++ [r]) := rfl
@[simp] theorem State.report_isl (r : Report) : (s.report r).isl = s.isl := rfl
@[simp] theorem State.report_faultExt (r : Report) : (s.report r).faultExt = s.faultExt := rfl
@[simp] theorem State.report_pwrok (r : Report) : (s.report r).pwrok = s.pwrok := rfl
@[simp] theorem State.report_links (r : Report) : (s.report r).links = s.links := rfl
@[simp] theorem State.report_crossings (r : Report) : (s.report r).crossings = s.crossings := rfl
@[simp] theorem State.report_hub (r : Report) : (s.report r).hub = s.hub := rfl
@[simp] theorem State.report_regPorts (r : Report) : (s.report r).regPorts = s.regPorts := rfl
@[simp] theorem State.report_regHold (r : Report) : (s.report r).regHold = s.regHold := rfl
@[simp] theorem State.report_therm (r : Report) : (s.report r).therm = s.therm := rfl
@[simp] theorem State.report_hlth (r : Report) : (s.report r).hlth = s.hlth := rfl
@[simp] theorem State.report_tests (r : Report) : (s.report r).tests = s.tests := rfl
@[simp] theorem State.report_dramGib (r : Report) : (s.report r).dramGib = s.dramGib := rfl
@[simp] theorem State.report_job (r : Report) : (s.report r).job = s.job := rfl
@[simp] theorem State.report_aco (r : Report) : (s.report r).aco = s.aco := rfl
@[simp] theorem State.report_boots (r : Report) : (s.report r).boots = s.boots := rfl
@[simp] theorem State.report_uart (r : Report) : (s.report r).uart = s.uart := rfl
@[simp] theorem State.report_dump (r : Report) : (s.report r).dump = s.dump := rfl
@[simp] theorem State.report_jtag (r : Report) : (s.report r).jtag = s.jtag := rfl
@[simp] theorem State.report_out (r : Report) : (s.report r).out = s.out := rfl

/-! ### setRegPort -/

@[simp] theorem State.setRegPort_pending (b : Fin 5) (p : Nat) (v : RegPort) : (s.setRegPort b p v).pending = s.pending := rfl
@[simp] theorem State.setRegPort_free (b : Fin 5) (p : Nat) (v : RegPort) : (s.setRegPort b p v).free = s.free := rfl
@[simp] theorem State.setRegPort_mem (b : Fin 5) (p : Nat) (v : RegPort) : (s.setRegPort b p v).mem = s.mem := rfl
@[simp] theorem State.setRegPort_ecc (b : Fin 5) (p : Nat) (v : RegPort) : (s.setRegPort b p v).ecc = s.ecc := rfl
@[simp] theorem State.setRegPort_stores (b : Fin 5) (p : Nat) (v : RegPort) : (s.setRegPort b p v).stores = s.stores := rfl
@[simp] theorem State.setRegPort_regs (b : Fin 5) (p : Nat) (v : RegPort) : (s.setRegPort b p v).regs = s.regs := rfl
@[simp] theorem State.setRegPort_cells (b : Fin 5) (p : Nat) (v : RegPort) : (s.setRegPort b p v).cells = s.cells := rfl
@[simp] theorem State.setRegPort_hosts (b : Fin 5) (p : Nat) (v : RegPort) : (s.setRegPort b p v).hosts = s.hosts := rfl
@[simp] theorem State.setRegPort_lofts (b : Fin 5) (p : Nat) (v : RegPort) : (s.setRegPort b p v).lofts = s.lofts := rfl
@[simp] theorem State.setRegPort_tlbs (b : Fin 5) (p : Nat) (v : RegPort) : (s.setRegPort b p v).tlbs = s.tlbs := rfl
@[simp] theorem State.setRegPort_paths (b : Fin 5) (p : Nat) (v : RegPort) : (s.setRegPort b p v).paths = s.paths := rfl
@[simp] theorem State.setRegPort_crates (b : Fin 5) (p : Nat) (v : RegPort) : (s.setRegPort b p v).crates = s.crates := rfl
@[simp] theorem State.setRegPort_crateNext (b : Fin 5) (p : Nat) (v : RegPort) : (s.setRegPort b p v).crateNext = s.crateNext := rfl
@[simp] theorem State.setRegPort_jobFaults (b : Fin 5) (p : Nat) (v : RegPort) : (s.setRegPort b p v).jobFaults = s.jobFaults := rfl
@[simp] theorem State.setRegPort_inbox (b : Fin 5) (p : Nat) (v : RegPort) : (s.setRegPort b p v).inbox = s.inbox := rfl
@[simp] theorem State.setRegPort_isl (b : Fin 5) (p : Nat) (v : RegPort) : (s.setRegPort b p v).isl = s.isl := rfl
@[simp] theorem State.setRegPort_faultExt (b : Fin 5) (p : Nat) (v : RegPort) : (s.setRegPort b p v).faultExt = s.faultExt := rfl
@[simp] theorem State.setRegPort_pwrok (b : Fin 5) (p : Nat) (v : RegPort) : (s.setRegPort b p v).pwrok = s.pwrok := rfl
@[simp] theorem State.setRegPort_links (b : Fin 5) (p : Nat) (v : RegPort) : (s.setRegPort b p v).links = s.links := rfl
@[simp] theorem State.setRegPort_crossings (b : Fin 5) (p : Nat) (v : RegPort) : (s.setRegPort b p v).crossings = s.crossings := rfl
@[simp] theorem State.setRegPort_hub (b : Fin 5) (p : Nat) (v : RegPort) : (s.setRegPort b p v).hub = s.hub := rfl
@[simp] theorem State.setRegPort_regPorts (b : Fin 5) (p : Nat) (v : RegPort) : (s.setRegPort b p v).regPorts = sparseSet regPortDflt (b.val * 32 + p) v s.regPorts := rfl
@[simp] theorem State.setRegPort_regHold (b : Fin 5) (p : Nat) (v : RegPort) : (s.setRegPort b p v).regHold = s.regHold := rfl
@[simp] theorem State.setRegPort_therm (b : Fin 5) (p : Nat) (v : RegPort) : (s.setRegPort b p v).therm = s.therm := rfl
@[simp] theorem State.setRegPort_hlth (b : Fin 5) (p : Nat) (v : RegPort) : (s.setRegPort b p v).hlth = s.hlth := rfl
@[simp] theorem State.setRegPort_tests (b : Fin 5) (p : Nat) (v : RegPort) : (s.setRegPort b p v).tests = s.tests := rfl
@[simp] theorem State.setRegPort_dramGib (b : Fin 5) (p : Nat) (v : RegPort) : (s.setRegPort b p v).dramGib = s.dramGib := rfl
@[simp] theorem State.setRegPort_job (b : Fin 5) (p : Nat) (v : RegPort) : (s.setRegPort b p v).job = s.job := rfl
@[simp] theorem State.setRegPort_aco (b : Fin 5) (p : Nat) (v : RegPort) : (s.setRegPort b p v).aco = s.aco := rfl
@[simp] theorem State.setRegPort_boots (b : Fin 5) (p : Nat) (v : RegPort) : (s.setRegPort b p v).boots = s.boots := rfl
@[simp] theorem State.setRegPort_uart (b : Fin 5) (p : Nat) (v : RegPort) : (s.setRegPort b p v).uart = s.uart := rfl
@[simp] theorem State.setRegPort_dump (b : Fin 5) (p : Nat) (v : RegPort) : (s.setRegPort b p v).dump = s.dump := rfl
@[simp] theorem State.setRegPort_jtag (b : Fin 5) (p : Nat) (v : RegPort) : (s.setRegPort b p v).jtag = s.jtag := rfl
@[simp] theorem State.setRegPort_out (b : Fin 5) (p : Nat) (v : RegPort) : (s.setRegPort b p v).out = s.out := rfl

/-! ### modHub -/

@[simp] theorem State.modHub_pending (f : Hub → Hub) : (s.modHub f).pending = s.pending := rfl
@[simp] theorem State.modHub_free (f : Hub → Hub) : (s.modHub f).free = s.free := rfl
@[simp] theorem State.modHub_mem (f : Hub → Hub) : (s.modHub f).mem = s.mem := rfl
@[simp] theorem State.modHub_ecc (f : Hub → Hub) : (s.modHub f).ecc = s.ecc := rfl
@[simp] theorem State.modHub_stores (f : Hub → Hub) : (s.modHub f).stores = s.stores := rfl
@[simp] theorem State.modHub_regs (f : Hub → Hub) : (s.modHub f).regs = s.regs := rfl
@[simp] theorem State.modHub_cells (f : Hub → Hub) : (s.modHub f).cells = s.cells := rfl
@[simp] theorem State.modHub_hosts (f : Hub → Hub) : (s.modHub f).hosts = s.hosts := rfl
@[simp] theorem State.modHub_lofts (f : Hub → Hub) : (s.modHub f).lofts = s.lofts := rfl
@[simp] theorem State.modHub_tlbs (f : Hub → Hub) : (s.modHub f).tlbs = s.tlbs := rfl
@[simp] theorem State.modHub_paths (f : Hub → Hub) : (s.modHub f).paths = s.paths := rfl
@[simp] theorem State.modHub_crates (f : Hub → Hub) : (s.modHub f).crates = s.crates := rfl
@[simp] theorem State.modHub_crateNext (f : Hub → Hub) : (s.modHub f).crateNext = s.crateNext := rfl
@[simp] theorem State.modHub_jobFaults (f : Hub → Hub) : (s.modHub f).jobFaults = s.jobFaults := rfl
@[simp] theorem State.modHub_inbox (f : Hub → Hub) : (s.modHub f).inbox = s.inbox := rfl
@[simp] theorem State.modHub_isl (f : Hub → Hub) : (s.modHub f).isl = s.isl := rfl
@[simp] theorem State.modHub_faultExt (f : Hub → Hub) : (s.modHub f).faultExt = s.faultExt := rfl
@[simp] theorem State.modHub_pwrok (f : Hub → Hub) : (s.modHub f).pwrok = s.pwrok := rfl
@[simp] theorem State.modHub_links (f : Hub → Hub) : (s.modHub f).links = s.links := rfl
@[simp] theorem State.modHub_crossings (f : Hub → Hub) : (s.modHub f).crossings = s.crossings := rfl
@[simp] theorem State.modHub_hub (f : Hub → Hub) : (s.modHub f).hub = f s.hub := rfl
@[simp] theorem State.modHub_regPorts (f : Hub → Hub) : (s.modHub f).regPorts = s.regPorts := rfl
@[simp] theorem State.modHub_regHold (f : Hub → Hub) : (s.modHub f).regHold = s.regHold := rfl
@[simp] theorem State.modHub_therm (f : Hub → Hub) : (s.modHub f).therm = s.therm := rfl
@[simp] theorem State.modHub_hlth (f : Hub → Hub) : (s.modHub f).hlth = s.hlth := rfl
@[simp] theorem State.modHub_tests (f : Hub → Hub) : (s.modHub f).tests = s.tests := rfl
@[simp] theorem State.modHub_dramGib (f : Hub → Hub) : (s.modHub f).dramGib = s.dramGib := rfl
@[simp] theorem State.modHub_job (f : Hub → Hub) : (s.modHub f).job = s.job := rfl
@[simp] theorem State.modHub_aco (f : Hub → Hub) : (s.modHub f).aco = s.aco := rfl
@[simp] theorem State.modHub_boots (f : Hub → Hub) : (s.modHub f).boots = s.boots := rfl
@[simp] theorem State.modHub_uart (f : Hub → Hub) : (s.modHub f).uart = s.uart := rfl
@[simp] theorem State.modHub_dump (f : Hub → Hub) : (s.modHub f).dump = s.dump := rfl
@[simp] theorem State.modHub_jtag (f : Hub → Hub) : (s.modHub f).jtag = s.jtag := rfl
@[simp] theorem State.modHub_out (f : Hub → Hub) : (s.modHub f).out = s.out := rfl

/-! ### raiseHub -/

@[simp] theorem State.raiseHub_pending (q : Irq) : (s.raiseHub q).pending = s.pending := rfl
@[simp] theorem State.raiseHub_free (q : Irq) : (s.raiseHub q).free = s.free + 1 := rfl
@[simp] theorem State.raiseHub_mem (q : Irq) : (s.raiseHub q).mem = s.mem := rfl
@[simp] theorem State.raiseHub_ecc (q : Irq) : (s.raiseHub q).ecc = s.ecc := rfl
@[simp] theorem State.raiseHub_stores (q : Irq) : (s.raiseHub q).stores = s.stores := rfl
@[simp] theorem State.raiseHub_regs (q : Irq) : (s.raiseHub q).regs = s.regs := rfl
@[simp] theorem State.raiseHub_cells (q : Irq) : (s.raiseHub q).cells = s.cells := rfl
@[simp] theorem State.raiseHub_lofts (q : Irq) : (s.raiseHub q).lofts = s.lofts := rfl
@[simp] theorem State.raiseHub_tlbs (q : Irq) : (s.raiseHub q).tlbs = s.tlbs := rfl
@[simp] theorem State.raiseHub_paths (q : Irq) : (s.raiseHub q).paths = s.paths := rfl
@[simp] theorem State.raiseHub_crates (q : Irq) : (s.raiseHub q).crates = s.crates := rfl
@[simp] theorem State.raiseHub_crateNext (q : Irq) : (s.raiseHub q).crateNext = s.crateNext := rfl
@[simp] theorem State.raiseHub_jobFaults (q : Irq) : (s.raiseHub q).jobFaults = s.jobFaults := rfl
@[simp] theorem State.raiseHub_inbox (q : Irq) : (s.raiseHub q).inbox = s.inbox := rfl
@[simp] theorem State.raiseHub_isl (q : Irq) : (s.raiseHub q).isl = s.isl := rfl
@[simp] theorem State.raiseHub_faultExt (q : Irq) : (s.raiseHub q).faultExt = s.faultExt := rfl
@[simp] theorem State.raiseHub_pwrok (q : Irq) : (s.raiseHub q).pwrok = s.pwrok := rfl
@[simp] theorem State.raiseHub_links (q : Irq) : (s.raiseHub q).links = s.links := rfl
@[simp] theorem State.raiseHub_crossings (q : Irq) : (s.raiseHub q).crossings = s.crossings := rfl
@[simp] theorem State.raiseHub_hub (q : Irq) : (s.raiseHub q).hub = { s.hub with irqs := if s.hub.irqs.contains q then s.hub.irqs else s.hub.irqs ++ [q] } := rfl
@[simp] theorem State.raiseHub_regPorts (q : Irq) : (s.raiseHub q).regPorts = s.regPorts := rfl
@[simp] theorem State.raiseHub_regHold (q : Irq) : (s.raiseHub q).regHold = s.regHold := rfl
@[simp] theorem State.raiseHub_therm (q : Irq) : (s.raiseHub q).therm = s.therm := rfl
@[simp] theorem State.raiseHub_hlth (q : Irq) : (s.raiseHub q).hlth = s.hlth := rfl
@[simp] theorem State.raiseHub_tests (q : Irq) : (s.raiseHub q).tests = s.tests := rfl
@[simp] theorem State.raiseHub_dramGib (q : Irq) : (s.raiseHub q).dramGib = s.dramGib := rfl
@[simp] theorem State.raiseHub_job (q : Irq) : (s.raiseHub q).job = s.job := rfl
@[simp] theorem State.raiseHub_aco (q : Irq) : (s.raiseHub q).aco = s.aco := rfl
@[simp] theorem State.raiseHub_boots (q : Irq) : (s.raiseHub q).boots = s.boots := rfl
@[simp] theorem State.raiseHub_uart (q : Irq) : (s.raiseHub q).uart = s.uart := rfl
@[simp] theorem State.raiseHub_dump (q : Irq) : (s.raiseHub q).dump = s.dump := rfl
@[simp] theorem State.raiseHub_jtag (q : Irq) : (s.raiseHub q).jtag = s.jtag := rfl
@[simp] theorem State.raiseHub_out (q : Irq) : (s.raiseHub q).out = s.out := rfl

/-! ### modDma -/

@[simp] theorem State.modDma_pending (e : Fin 2) (f : Pdma → Pdma) : (s.modDma e f).pending = s.pending := rfl
@[simp] theorem State.modDma_free (e : Fin 2) (f : Pdma → Pdma) : (s.modDma e f).free = s.free := rfl
@[simp] theorem State.modDma_mem (e : Fin 2) (f : Pdma → Pdma) : (s.modDma e f).mem = s.mem := rfl
@[simp] theorem State.modDma_ecc (e : Fin 2) (f : Pdma → Pdma) : (s.modDma e f).ecc = s.ecc := rfl
@[simp] theorem State.modDma_stores (e : Fin 2) (f : Pdma → Pdma) : (s.modDma e f).stores = s.stores := rfl
@[simp] theorem State.modDma_regs (e : Fin 2) (f : Pdma → Pdma) : (s.modDma e f).regs = s.regs := rfl
@[simp] theorem State.modDma_cells (e : Fin 2) (f : Pdma → Pdma) : (s.modDma e f).cells = s.cells := rfl
@[simp] theorem State.modDma_hosts (e : Fin 2) (f : Pdma → Pdma) : (s.modDma e f).hosts = s.hosts := rfl
@[simp] theorem State.modDma_lofts (e : Fin 2) (f : Pdma → Pdma) : (s.modDma e f).lofts = s.lofts := rfl
@[simp] theorem State.modDma_tlbs (e : Fin 2) (f : Pdma → Pdma) : (s.modDma e f).tlbs = s.tlbs := rfl
@[simp] theorem State.modDma_paths (e : Fin 2) (f : Pdma → Pdma) : (s.modDma e f).paths = s.paths := rfl
@[simp] theorem State.modDma_crates (e : Fin 2) (f : Pdma → Pdma) : (s.modDma e f).crates = s.crates := rfl
@[simp] theorem State.modDma_crateNext (e : Fin 2) (f : Pdma → Pdma) : (s.modDma e f).crateNext = s.crateNext := rfl
@[simp] theorem State.modDma_jobFaults (e : Fin 2) (f : Pdma → Pdma) : (s.modDma e f).jobFaults = s.jobFaults := rfl
@[simp] theorem State.modDma_inbox (e : Fin 2) (f : Pdma → Pdma) : (s.modDma e f).inbox = s.inbox := rfl
@[simp] theorem State.modDma_isl (e : Fin 2) (f : Pdma → Pdma) : (s.modDma e f).isl = s.isl := rfl
@[simp] theorem State.modDma_faultExt (e : Fin 2) (f : Pdma → Pdma) : (s.modDma e f).faultExt = s.faultExt := rfl
@[simp] theorem State.modDma_pwrok (e : Fin 2) (f : Pdma → Pdma) : (s.modDma e f).pwrok = s.pwrok := rfl
@[simp] theorem State.modDma_links (e : Fin 2) (f : Pdma → Pdma) : (s.modDma e f).links = s.links := rfl
@[simp] theorem State.modDma_crossings (e : Fin 2) (f : Pdma → Pdma) : (s.modDma e f).crossings = s.crossings := rfl
@[simp] theorem State.modDma_hub (e : Fin 2) (f : Pdma → Pdma) : (s.modDma e f).hub = { s.hub with dma := s.hub.dma.set e (f s.hub.dma[e]) } := rfl
@[simp] theorem State.modDma_regPorts (e : Fin 2) (f : Pdma → Pdma) : (s.modDma e f).regPorts = s.regPorts := rfl
@[simp] theorem State.modDma_regHold (e : Fin 2) (f : Pdma → Pdma) : (s.modDma e f).regHold = s.regHold := rfl
@[simp] theorem State.modDma_therm (e : Fin 2) (f : Pdma → Pdma) : (s.modDma e f).therm = s.therm := rfl
@[simp] theorem State.modDma_hlth (e : Fin 2) (f : Pdma → Pdma) : (s.modDma e f).hlth = s.hlth := rfl
@[simp] theorem State.modDma_tests (e : Fin 2) (f : Pdma → Pdma) : (s.modDma e f).tests = s.tests := rfl
@[simp] theorem State.modDma_dramGib (e : Fin 2) (f : Pdma → Pdma) : (s.modDma e f).dramGib = s.dramGib := rfl
@[simp] theorem State.modDma_job (e : Fin 2) (f : Pdma → Pdma) : (s.modDma e f).job = s.job := rfl
@[simp] theorem State.modDma_aco (e : Fin 2) (f : Pdma → Pdma) : (s.modDma e f).aco = s.aco := rfl
@[simp] theorem State.modDma_boots (e : Fin 2) (f : Pdma → Pdma) : (s.modDma e f).boots = s.boots := rfl
@[simp] theorem State.modDma_uart (e : Fin 2) (f : Pdma → Pdma) : (s.modDma e f).uart = s.uart := rfl
@[simp] theorem State.modDma_dump (e : Fin 2) (f : Pdma → Pdma) : (s.modDma e f).dump = s.dump := rfl
@[simp] theorem State.modDma_jtag (e : Fin 2) (f : Pdma → Pdma) : (s.modDma e f).jtag = s.jtag := rfl
@[simp] theorem State.modDma_out (e : Fin 2) (f : Pdma → Pdma) : (s.modDma e f).out = s.out := rfl

/-! ### modTb -/

@[simp] theorem State.modTb_pending (f : TimeBase → TimeBase) : (s.modTb f).pending = s.pending := rfl
@[simp] theorem State.modTb_free (f : TimeBase → TimeBase) : (s.modTb f).free = s.free := rfl
@[simp] theorem State.modTb_mem (f : TimeBase → TimeBase) : (s.modTb f).mem = s.mem := rfl
@[simp] theorem State.modTb_ecc (f : TimeBase → TimeBase) : (s.modTb f).ecc = s.ecc := rfl
@[simp] theorem State.modTb_stores (f : TimeBase → TimeBase) : (s.modTb f).stores = s.stores := rfl
@[simp] theorem State.modTb_regs (f : TimeBase → TimeBase) : (s.modTb f).regs = s.regs := rfl
@[simp] theorem State.modTb_cells (f : TimeBase → TimeBase) : (s.modTb f).cells = s.cells := rfl
@[simp] theorem State.modTb_hosts (f : TimeBase → TimeBase) : (s.modTb f).hosts = s.hosts := rfl
@[simp] theorem State.modTb_lofts (f : TimeBase → TimeBase) : (s.modTb f).lofts = s.lofts := rfl
@[simp] theorem State.modTb_tlbs (f : TimeBase → TimeBase) : (s.modTb f).tlbs = s.tlbs := rfl
@[simp] theorem State.modTb_paths (f : TimeBase → TimeBase) : (s.modTb f).paths = s.paths := rfl
@[simp] theorem State.modTb_crates (f : TimeBase → TimeBase) : (s.modTb f).crates = s.crates := rfl
@[simp] theorem State.modTb_crateNext (f : TimeBase → TimeBase) : (s.modTb f).crateNext = s.crateNext := rfl
@[simp] theorem State.modTb_jobFaults (f : TimeBase → TimeBase) : (s.modTb f).jobFaults = s.jobFaults := rfl
@[simp] theorem State.modTb_inbox (f : TimeBase → TimeBase) : (s.modTb f).inbox = s.inbox := rfl
@[simp] theorem State.modTb_isl (f : TimeBase → TimeBase) : (s.modTb f).isl = s.isl := rfl
@[simp] theorem State.modTb_faultExt (f : TimeBase → TimeBase) : (s.modTb f).faultExt = s.faultExt := rfl
@[simp] theorem State.modTb_pwrok (f : TimeBase → TimeBase) : (s.modTb f).pwrok = s.pwrok := rfl
@[simp] theorem State.modTb_links (f : TimeBase → TimeBase) : (s.modTb f).links = s.links := rfl
@[simp] theorem State.modTb_crossings (f : TimeBase → TimeBase) : (s.modTb f).crossings = s.crossings := rfl
@[simp] theorem State.modTb_hub (f : TimeBase → TimeBase) : (s.modTb f).hub = { s.hub with tb := f s.hub.tb } := rfl
@[simp] theorem State.modTb_regPorts (f : TimeBase → TimeBase) : (s.modTb f).regPorts = s.regPorts := rfl
@[simp] theorem State.modTb_regHold (f : TimeBase → TimeBase) : (s.modTb f).regHold = s.regHold := rfl
@[simp] theorem State.modTb_therm (f : TimeBase → TimeBase) : (s.modTb f).therm = s.therm := rfl
@[simp] theorem State.modTb_hlth (f : TimeBase → TimeBase) : (s.modTb f).hlth = s.hlth := rfl
@[simp] theorem State.modTb_tests (f : TimeBase → TimeBase) : (s.modTb f).tests = s.tests := rfl
@[simp] theorem State.modTb_dramGib (f : TimeBase → TimeBase) : (s.modTb f).dramGib = s.dramGib := rfl
@[simp] theorem State.modTb_job (f : TimeBase → TimeBase) : (s.modTb f).job = s.job := rfl
@[simp] theorem State.modTb_aco (f : TimeBase → TimeBase) : (s.modTb f).aco = s.aco := rfl
@[simp] theorem State.modTb_boots (f : TimeBase → TimeBase) : (s.modTb f).boots = s.boots := rfl
@[simp] theorem State.modTb_uart (f : TimeBase → TimeBase) : (s.modTb f).uart = s.uart := rfl
@[simp] theorem State.modTb_dump (f : TimeBase → TimeBase) : (s.modTb f).dump = s.dump := rfl
@[simp] theorem State.modTb_jtag (f : TimeBase → TimeBase) : (s.modTb f).jtag = s.jtag := rfl
@[simp] theorem State.modTb_out (f : TimeBase → TimeBase) : (s.modTb f).out = s.out := rfl

/-! ### modIng -/

@[simp] theorem State.modIng_pending (f : Ingest → Ingest) : (s.modIng f).pending = s.pending := rfl
@[simp] theorem State.modIng_free (f : Ingest → Ingest) : (s.modIng f).free = s.free := rfl
@[simp] theorem State.modIng_mem (f : Ingest → Ingest) : (s.modIng f).mem = s.mem := rfl
@[simp] theorem State.modIng_ecc (f : Ingest → Ingest) : (s.modIng f).ecc = s.ecc := rfl
@[simp] theorem State.modIng_stores (f : Ingest → Ingest) : (s.modIng f).stores = s.stores := rfl
@[simp] theorem State.modIng_regs (f : Ingest → Ingest) : (s.modIng f).regs = s.regs := rfl
@[simp] theorem State.modIng_cells (f : Ingest → Ingest) : (s.modIng f).cells = s.cells := rfl
@[simp] theorem State.modIng_hosts (f : Ingest → Ingest) : (s.modIng f).hosts = s.hosts := rfl
@[simp] theorem State.modIng_lofts (f : Ingest → Ingest) : (s.modIng f).lofts = s.lofts := rfl
@[simp] theorem State.modIng_tlbs (f : Ingest → Ingest) : (s.modIng f).tlbs = s.tlbs := rfl
@[simp] theorem State.modIng_paths (f : Ingest → Ingest) : (s.modIng f).paths = s.paths := rfl
@[simp] theorem State.modIng_crates (f : Ingest → Ingest) : (s.modIng f).crates = s.crates := rfl
@[simp] theorem State.modIng_crateNext (f : Ingest → Ingest) : (s.modIng f).crateNext = s.crateNext := rfl
@[simp] theorem State.modIng_jobFaults (f : Ingest → Ingest) : (s.modIng f).jobFaults = s.jobFaults := rfl
@[simp] theorem State.modIng_inbox (f : Ingest → Ingest) : (s.modIng f).inbox = s.inbox := rfl
@[simp] theorem State.modIng_isl (f : Ingest → Ingest) : (s.modIng f).isl = s.isl := rfl
@[simp] theorem State.modIng_faultExt (f : Ingest → Ingest) : (s.modIng f).faultExt = s.faultExt := rfl
@[simp] theorem State.modIng_pwrok (f : Ingest → Ingest) : (s.modIng f).pwrok = s.pwrok := rfl
@[simp] theorem State.modIng_links (f : Ingest → Ingest) : (s.modIng f).links = s.links := rfl
@[simp] theorem State.modIng_crossings (f : Ingest → Ingest) : (s.modIng f).crossings = s.crossings := rfl
@[simp] theorem State.modIng_hub (f : Ingest → Ingest) : (s.modIng f).hub = { s.hub with ing := f s.hub.ing } := rfl
@[simp] theorem State.modIng_regPorts (f : Ingest → Ingest) : (s.modIng f).regPorts = s.regPorts := rfl
@[simp] theorem State.modIng_regHold (f : Ingest → Ingest) : (s.modIng f).regHold = s.regHold := rfl
@[simp] theorem State.modIng_therm (f : Ingest → Ingest) : (s.modIng f).therm = s.therm := rfl
@[simp] theorem State.modIng_hlth (f : Ingest → Ingest) : (s.modIng f).hlth = s.hlth := rfl
@[simp] theorem State.modIng_tests (f : Ingest → Ingest) : (s.modIng f).tests = s.tests := rfl
@[simp] theorem State.modIng_dramGib (f : Ingest → Ingest) : (s.modIng f).dramGib = s.dramGib := rfl
@[simp] theorem State.modIng_job (f : Ingest → Ingest) : (s.modIng f).job = s.job := rfl
@[simp] theorem State.modIng_aco (f : Ingest → Ingest) : (s.modIng f).aco = s.aco := rfl
@[simp] theorem State.modIng_boots (f : Ingest → Ingest) : (s.modIng f).boots = s.boots := rfl
@[simp] theorem State.modIng_uart (f : Ingest → Ingest) : (s.modIng f).uart = s.uart := rfl
@[simp] theorem State.modIng_dump (f : Ingest → Ingest) : (s.modIng f).dump = s.dump := rfl
@[simp] theorem State.modIng_jtag (f : Ingest → Ingest) : (s.modIng f).jtag = s.jtag := rfl
@[simp] theorem State.modIng_out (f : Ingest → Ingest) : (s.modIng f).out = s.out := rfl

/-! ### emit -/

@[simp] theorem State.emit_pending (m : OutMsg) : (s.emit m).pending = s.pending := rfl
@[simp] theorem State.emit_free (m : OutMsg) : (s.emit m).free = s.free := rfl
@[simp] theorem State.emit_mem (m : OutMsg) : (s.emit m).mem = s.mem := rfl
@[simp] theorem State.emit_ecc (m : OutMsg) : (s.emit m).ecc = s.ecc := rfl
@[simp] theorem State.emit_stores (m : OutMsg) : (s.emit m).stores = s.stores := rfl
@[simp] theorem State.emit_regs (m : OutMsg) : (s.emit m).regs = s.regs := rfl
@[simp] theorem State.emit_cells (m : OutMsg) : (s.emit m).cells = s.cells := rfl
@[simp] theorem State.emit_hosts (m : OutMsg) : (s.emit m).hosts = s.hosts := rfl
@[simp] theorem State.emit_lofts (m : OutMsg) : (s.emit m).lofts = s.lofts := rfl
@[simp] theorem State.emit_tlbs (m : OutMsg) : (s.emit m).tlbs = s.tlbs := rfl
@[simp] theorem State.emit_paths (m : OutMsg) : (s.emit m).paths = s.paths := rfl
@[simp] theorem State.emit_crates (m : OutMsg) : (s.emit m).crates = s.crates := rfl
@[simp] theorem State.emit_crateNext (m : OutMsg) : (s.emit m).crateNext = s.crateNext := rfl
@[simp] theorem State.emit_jobFaults (m : OutMsg) : (s.emit m).jobFaults = s.jobFaults := rfl
@[simp] theorem State.emit_inbox (m : OutMsg) : (s.emit m).inbox = s.inbox := rfl
@[simp] theorem State.emit_isl (m : OutMsg) : (s.emit m).isl = s.isl := rfl
@[simp] theorem State.emit_faultExt (m : OutMsg) : (s.emit m).faultExt = s.faultExt := rfl
@[simp] theorem State.emit_pwrok (m : OutMsg) : (s.emit m).pwrok = s.pwrok := rfl
@[simp] theorem State.emit_links (m : OutMsg) : (s.emit m).links = s.links := rfl
@[simp] theorem State.emit_crossings (m : OutMsg) : (s.emit m).crossings = s.crossings := rfl
@[simp] theorem State.emit_hub (m : OutMsg) : (s.emit m).hub = s.hub := rfl
@[simp] theorem State.emit_regPorts (m : OutMsg) : (s.emit m).regPorts = s.regPorts := rfl
@[simp] theorem State.emit_regHold (m : OutMsg) : (s.emit m).regHold = s.regHold := rfl
@[simp] theorem State.emit_therm (m : OutMsg) : (s.emit m).therm = s.therm := rfl
@[simp] theorem State.emit_hlth (m : OutMsg) : (s.emit m).hlth = s.hlth := rfl
@[simp] theorem State.emit_tests (m : OutMsg) : (s.emit m).tests = s.tests := rfl
@[simp] theorem State.emit_dramGib (m : OutMsg) : (s.emit m).dramGib = s.dramGib := rfl
@[simp] theorem State.emit_job (m : OutMsg) : (s.emit m).job = s.job := rfl
@[simp] theorem State.emit_aco (m : OutMsg) : (s.emit m).aco = s.aco := rfl
@[simp] theorem State.emit_boots (m : OutMsg) : (s.emit m).boots = s.boots := rfl
@[simp] theorem State.emit_uart (m : OutMsg) : (s.emit m).uart = s.uart := rfl
@[simp] theorem State.emit_dump (m : OutMsg) : (s.emit m).dump = s.dump := rfl
@[simp] theorem State.emit_jtag (m : OutMsg) : (s.emit m).jtag = s.jtag := rfl
@[simp] theorem State.emit_out (m : OutMsg) : (s.emit m).out = s.out ++ [m] := rfl

/-! ### modIsl -/

@[simp] theorem State.modIsl_pending (i : Fin 2) (f : Island → Island) : (s.modIsl i f).pending = s.pending := rfl
@[simp] theorem State.modIsl_free (i : Fin 2) (f : Island → Island) : (s.modIsl i f).free = s.free := rfl
@[simp] theorem State.modIsl_mem (i : Fin 2) (f : Island → Island) : (s.modIsl i f).mem = s.mem := rfl
@[simp] theorem State.modIsl_ecc (i : Fin 2) (f : Island → Island) : (s.modIsl i f).ecc = s.ecc := rfl
@[simp] theorem State.modIsl_stores (i : Fin 2) (f : Island → Island) : (s.modIsl i f).stores = s.stores := rfl
@[simp] theorem State.modIsl_regs (i : Fin 2) (f : Island → Island) : (s.modIsl i f).regs = s.regs := rfl
@[simp] theorem State.modIsl_cells (i : Fin 2) (f : Island → Island) : (s.modIsl i f).cells = s.cells := rfl
@[simp] theorem State.modIsl_hosts (i : Fin 2) (f : Island → Island) : (s.modIsl i f).hosts = s.hosts := rfl
@[simp] theorem State.modIsl_lofts (i : Fin 2) (f : Island → Island) : (s.modIsl i f).lofts = s.lofts := rfl
@[simp] theorem State.modIsl_tlbs (i : Fin 2) (f : Island → Island) : (s.modIsl i f).tlbs = s.tlbs := rfl
@[simp] theorem State.modIsl_paths (i : Fin 2) (f : Island → Island) : (s.modIsl i f).paths = s.paths := rfl
@[simp] theorem State.modIsl_crates (i : Fin 2) (f : Island → Island) : (s.modIsl i f).crates = s.crates := rfl
@[simp] theorem State.modIsl_crateNext (i : Fin 2) (f : Island → Island) : (s.modIsl i f).crateNext = s.crateNext := rfl
@[simp] theorem State.modIsl_jobFaults (i : Fin 2) (f : Island → Island) : (s.modIsl i f).jobFaults = s.jobFaults := rfl
@[simp] theorem State.modIsl_inbox (i : Fin 2) (f : Island → Island) : (s.modIsl i f).inbox = s.inbox := rfl
@[simp] theorem State.modIsl_isl (i : Fin 2) (f : Island → Island) : (s.modIsl i f).isl = s.isl.set i (f s.isl[i]) := rfl
@[simp] theorem State.modIsl_faultExt (i : Fin 2) (f : Island → Island) : (s.modIsl i f).faultExt = s.faultExt := rfl
@[simp] theorem State.modIsl_pwrok (i : Fin 2) (f : Island → Island) : (s.modIsl i f).pwrok = s.pwrok := rfl
@[simp] theorem State.modIsl_links (i : Fin 2) (f : Island → Island) : (s.modIsl i f).links = s.links := rfl
@[simp] theorem State.modIsl_crossings (i : Fin 2) (f : Island → Island) : (s.modIsl i f).crossings = s.crossings := rfl
@[simp] theorem State.modIsl_hub (i : Fin 2) (f : Island → Island) : (s.modIsl i f).hub = s.hub := rfl
@[simp] theorem State.modIsl_regPorts (i : Fin 2) (f : Island → Island) : (s.modIsl i f).regPorts = s.regPorts := rfl
@[simp] theorem State.modIsl_regHold (i : Fin 2) (f : Island → Island) : (s.modIsl i f).regHold = s.regHold := rfl
@[simp] theorem State.modIsl_therm (i : Fin 2) (f : Island → Island) : (s.modIsl i f).therm = s.therm := rfl
@[simp] theorem State.modIsl_hlth (i : Fin 2) (f : Island → Island) : (s.modIsl i f).hlth = s.hlth := rfl
@[simp] theorem State.modIsl_tests (i : Fin 2) (f : Island → Island) : (s.modIsl i f).tests = s.tests := rfl
@[simp] theorem State.modIsl_dramGib (i : Fin 2) (f : Island → Island) : (s.modIsl i f).dramGib = s.dramGib := rfl
@[simp] theorem State.modIsl_job (i : Fin 2) (f : Island → Island) : (s.modIsl i f).job = s.job := rfl
@[simp] theorem State.modIsl_aco (i : Fin 2) (f : Island → Island) : (s.modIsl i f).aco = s.aco := rfl
@[simp] theorem State.modIsl_boots (i : Fin 2) (f : Island → Island) : (s.modIsl i f).boots = s.boots := rfl
@[simp] theorem State.modIsl_uart (i : Fin 2) (f : Island → Island) : (s.modIsl i f).uart = s.uart := rfl
@[simp] theorem State.modIsl_dump (i : Fin 2) (f : Island → Island) : (s.modIsl i f).dump = s.dump := rfl
@[simp] theorem State.modIsl_jtag (i : Fin 2) (f : Island → Island) : (s.modIsl i f).jtag = s.jtag := rfl
@[simp] theorem State.modIsl_out (i : Fin 2) (f : Island → Island) : (s.modIsl i f).out = s.out := rfl

/-! ### modTherm -/

@[simp] theorem State.modTherm_pending (f : Therm → Therm) : (s.modTherm f).pending = s.pending := rfl
@[simp] theorem State.modTherm_free (f : Therm → Therm) : (s.modTherm f).free = s.free := rfl
@[simp] theorem State.modTherm_mem (f : Therm → Therm) : (s.modTherm f).mem = s.mem := rfl
@[simp] theorem State.modTherm_ecc (f : Therm → Therm) : (s.modTherm f).ecc = s.ecc := rfl
@[simp] theorem State.modTherm_stores (f : Therm → Therm) : (s.modTherm f).stores = s.stores := rfl
@[simp] theorem State.modTherm_regs (f : Therm → Therm) : (s.modTherm f).regs = s.regs := rfl
@[simp] theorem State.modTherm_cells (f : Therm → Therm) : (s.modTherm f).cells = s.cells := rfl
@[simp] theorem State.modTherm_hosts (f : Therm → Therm) : (s.modTherm f).hosts = s.hosts := rfl
@[simp] theorem State.modTherm_lofts (f : Therm → Therm) : (s.modTherm f).lofts = s.lofts := rfl
@[simp] theorem State.modTherm_tlbs (f : Therm → Therm) : (s.modTherm f).tlbs = s.tlbs := rfl
@[simp] theorem State.modTherm_paths (f : Therm → Therm) : (s.modTherm f).paths = s.paths := rfl
@[simp] theorem State.modTherm_crates (f : Therm → Therm) : (s.modTherm f).crates = s.crates := rfl
@[simp] theorem State.modTherm_crateNext (f : Therm → Therm) : (s.modTherm f).crateNext = s.crateNext := rfl
@[simp] theorem State.modTherm_jobFaults (f : Therm → Therm) : (s.modTherm f).jobFaults = s.jobFaults := rfl
@[simp] theorem State.modTherm_inbox (f : Therm → Therm) : (s.modTherm f).inbox = s.inbox := rfl
@[simp] theorem State.modTherm_isl (f : Therm → Therm) : (s.modTherm f).isl = s.isl := rfl
@[simp] theorem State.modTherm_faultExt (f : Therm → Therm) : (s.modTherm f).faultExt = s.faultExt := rfl
@[simp] theorem State.modTherm_pwrok (f : Therm → Therm) : (s.modTherm f).pwrok = s.pwrok := rfl
@[simp] theorem State.modTherm_links (f : Therm → Therm) : (s.modTherm f).links = s.links := rfl
@[simp] theorem State.modTherm_crossings (f : Therm → Therm) : (s.modTherm f).crossings = s.crossings := rfl
@[simp] theorem State.modTherm_hub (f : Therm → Therm) : (s.modTherm f).hub = s.hub := rfl
@[simp] theorem State.modTherm_regPorts (f : Therm → Therm) : (s.modTherm f).regPorts = s.regPorts := rfl
@[simp] theorem State.modTherm_regHold (f : Therm → Therm) : (s.modTherm f).regHold = s.regHold := rfl
@[simp] theorem State.modTherm_therm (f : Therm → Therm) : (s.modTherm f).therm = f s.therm := rfl
@[simp] theorem State.modTherm_hlth (f : Therm → Therm) : (s.modTherm f).hlth = s.hlth := rfl
@[simp] theorem State.modTherm_tests (f : Therm → Therm) : (s.modTherm f).tests = s.tests := rfl
@[simp] theorem State.modTherm_dramGib (f : Therm → Therm) : (s.modTherm f).dramGib = s.dramGib := rfl
@[simp] theorem State.modTherm_job (f : Therm → Therm) : (s.modTherm f).job = s.job := rfl
@[simp] theorem State.modTherm_aco (f : Therm → Therm) : (s.modTherm f).aco = s.aco := rfl
@[simp] theorem State.modTherm_boots (f : Therm → Therm) : (s.modTherm f).boots = s.boots := rfl
@[simp] theorem State.modTherm_uart (f : Therm → Therm) : (s.modTherm f).uart = s.uart := rfl
@[simp] theorem State.modTherm_dump (f : Therm → Therm) : (s.modTherm f).dump = s.dump := rfl
@[simp] theorem State.modTherm_jtag (f : Therm → Therm) : (s.modTherm f).jtag = s.jtag := rfl
@[simp] theorem State.modTherm_out (f : Therm → Therm) : (s.modTherm f).out = s.out := rfl

/-! ### modHlth -/

@[simp] theorem State.modHlth_pending (f : Health → Health) : (s.modHlth f).pending = s.pending := rfl
@[simp] theorem State.modHlth_free (f : Health → Health) : (s.modHlth f).free = s.free := rfl
@[simp] theorem State.modHlth_mem (f : Health → Health) : (s.modHlth f).mem = s.mem := rfl
@[simp] theorem State.modHlth_ecc (f : Health → Health) : (s.modHlth f).ecc = s.ecc := rfl
@[simp] theorem State.modHlth_stores (f : Health → Health) : (s.modHlth f).stores = s.stores := rfl
@[simp] theorem State.modHlth_regs (f : Health → Health) : (s.modHlth f).regs = s.regs := rfl
@[simp] theorem State.modHlth_cells (f : Health → Health) : (s.modHlth f).cells = s.cells := rfl
@[simp] theorem State.modHlth_hosts (f : Health → Health) : (s.modHlth f).hosts = s.hosts := rfl
@[simp] theorem State.modHlth_lofts (f : Health → Health) : (s.modHlth f).lofts = s.lofts := rfl
@[simp] theorem State.modHlth_tlbs (f : Health → Health) : (s.modHlth f).tlbs = s.tlbs := rfl
@[simp] theorem State.modHlth_paths (f : Health → Health) : (s.modHlth f).paths = s.paths := rfl
@[simp] theorem State.modHlth_crates (f : Health → Health) : (s.modHlth f).crates = s.crates := rfl
@[simp] theorem State.modHlth_crateNext (f : Health → Health) : (s.modHlth f).crateNext = s.crateNext := rfl
@[simp] theorem State.modHlth_jobFaults (f : Health → Health) : (s.modHlth f).jobFaults = s.jobFaults := rfl
@[simp] theorem State.modHlth_inbox (f : Health → Health) : (s.modHlth f).inbox = s.inbox := rfl
@[simp] theorem State.modHlth_isl (f : Health → Health) : (s.modHlth f).isl = s.isl := rfl
@[simp] theorem State.modHlth_faultExt (f : Health → Health) : (s.modHlth f).faultExt = s.faultExt := rfl
@[simp] theorem State.modHlth_pwrok (f : Health → Health) : (s.modHlth f).pwrok = s.pwrok := rfl
@[simp] theorem State.modHlth_links (f : Health → Health) : (s.modHlth f).links = s.links := rfl
@[simp] theorem State.modHlth_crossings (f : Health → Health) : (s.modHlth f).crossings = s.crossings := rfl
@[simp] theorem State.modHlth_hub (f : Health → Health) : (s.modHlth f).hub = s.hub := rfl
@[simp] theorem State.modHlth_regPorts (f : Health → Health) : (s.modHlth f).regPorts = s.regPorts := rfl
@[simp] theorem State.modHlth_regHold (f : Health → Health) : (s.modHlth f).regHold = s.regHold := rfl
@[simp] theorem State.modHlth_therm (f : Health → Health) : (s.modHlth f).therm = s.therm := rfl
@[simp] theorem State.modHlth_hlth (f : Health → Health) : (s.modHlth f).hlth = f s.hlth := rfl
@[simp] theorem State.modHlth_tests (f : Health → Health) : (s.modHlth f).tests = s.tests := rfl
@[simp] theorem State.modHlth_dramGib (f : Health → Health) : (s.modHlth f).dramGib = s.dramGib := rfl
@[simp] theorem State.modHlth_job (f : Health → Health) : (s.modHlth f).job = s.job := rfl
@[simp] theorem State.modHlth_aco (f : Health → Health) : (s.modHlth f).aco = s.aco := rfl
@[simp] theorem State.modHlth_boots (f : Health → Health) : (s.modHlth f).boots = s.boots := rfl
@[simp] theorem State.modHlth_uart (f : Health → Health) : (s.modHlth f).uart = s.uart := rfl
@[simp] theorem State.modHlth_dump (f : Health → Health) : (s.modHlth f).dump = s.dump := rfl
@[simp] theorem State.modHlth_jtag (f : Health → Health) : (s.modHlth f).jtag = s.jtag := rfl
@[simp] theorem State.modHlth_out (f : Health → Health) : (s.modHlth f).out = s.out := rfl

/-! ### modJob -/

@[simp] theorem State.modJob_pending (f : JobSt → JobSt) : (s.modJob f).pending = s.pending := rfl
@[simp] theorem State.modJob_free (f : JobSt → JobSt) : (s.modJob f).free = s.free := rfl
@[simp] theorem State.modJob_mem (f : JobSt → JobSt) : (s.modJob f).mem = s.mem := rfl
@[simp] theorem State.modJob_ecc (f : JobSt → JobSt) : (s.modJob f).ecc = s.ecc := rfl
@[simp] theorem State.modJob_stores (f : JobSt → JobSt) : (s.modJob f).stores = s.stores := rfl
@[simp] theorem State.modJob_regs (f : JobSt → JobSt) : (s.modJob f).regs = s.regs := rfl
@[simp] theorem State.modJob_cells (f : JobSt → JobSt) : (s.modJob f).cells = s.cells := rfl
@[simp] theorem State.modJob_hosts (f : JobSt → JobSt) : (s.modJob f).hosts = s.hosts := rfl
@[simp] theorem State.modJob_lofts (f : JobSt → JobSt) : (s.modJob f).lofts = s.lofts := rfl
@[simp] theorem State.modJob_tlbs (f : JobSt → JobSt) : (s.modJob f).tlbs = s.tlbs := rfl
@[simp] theorem State.modJob_paths (f : JobSt → JobSt) : (s.modJob f).paths = s.paths := rfl
@[simp] theorem State.modJob_crates (f : JobSt → JobSt) : (s.modJob f).crates = s.crates := rfl
@[simp] theorem State.modJob_crateNext (f : JobSt → JobSt) : (s.modJob f).crateNext = s.crateNext := rfl
@[simp] theorem State.modJob_jobFaults (f : JobSt → JobSt) : (s.modJob f).jobFaults = s.jobFaults := rfl
@[simp] theorem State.modJob_inbox (f : JobSt → JobSt) : (s.modJob f).inbox = s.inbox := rfl
@[simp] theorem State.modJob_isl (f : JobSt → JobSt) : (s.modJob f).isl = s.isl := rfl
@[simp] theorem State.modJob_faultExt (f : JobSt → JobSt) : (s.modJob f).faultExt = s.faultExt := rfl
@[simp] theorem State.modJob_pwrok (f : JobSt → JobSt) : (s.modJob f).pwrok = s.pwrok := rfl
@[simp] theorem State.modJob_links (f : JobSt → JobSt) : (s.modJob f).links = s.links := rfl
@[simp] theorem State.modJob_crossings (f : JobSt → JobSt) : (s.modJob f).crossings = s.crossings := rfl
@[simp] theorem State.modJob_hub (f : JobSt → JobSt) : (s.modJob f).hub = s.hub := rfl
@[simp] theorem State.modJob_regPorts (f : JobSt → JobSt) : (s.modJob f).regPorts = s.regPorts := rfl
@[simp] theorem State.modJob_regHold (f : JobSt → JobSt) : (s.modJob f).regHold = s.regHold := rfl
@[simp] theorem State.modJob_therm (f : JobSt → JobSt) : (s.modJob f).therm = s.therm := rfl
@[simp] theorem State.modJob_hlth (f : JobSt → JobSt) : (s.modJob f).hlth = s.hlth := rfl
@[simp] theorem State.modJob_tests (f : JobSt → JobSt) : (s.modJob f).tests = s.tests := rfl
@[simp] theorem State.modJob_dramGib (f : JobSt → JobSt) : (s.modJob f).dramGib = s.dramGib := rfl
@[simp] theorem State.modJob_job (f : JobSt → JobSt) : (s.modJob f).job = f s.job := rfl
@[simp] theorem State.modJob_aco (f : JobSt → JobSt) : (s.modJob f).aco = s.aco := rfl
@[simp] theorem State.modJob_boots (f : JobSt → JobSt) : (s.modJob f).boots = s.boots := rfl
@[simp] theorem State.modJob_uart (f : JobSt → JobSt) : (s.modJob f).uart = s.uart := rfl
@[simp] theorem State.modJob_dump (f : JobSt → JobSt) : (s.modJob f).dump = s.dump := rfl
@[simp] theorem State.modJob_jtag (f : JobSt → JobSt) : (s.modJob f).jtag = s.jtag := rfl
@[simp] theorem State.modJob_out (f : JobSt → JobSt) : (s.modJob f).out = s.out := rfl

/-! ### modAco -/

@[simp] theorem State.modAco_pending (f : Aco → Aco) : (s.modAco f).pending = s.pending := rfl
@[simp] theorem State.modAco_free (f : Aco → Aco) : (s.modAco f).free = s.free := rfl
@[simp] theorem State.modAco_mem (f : Aco → Aco) : (s.modAco f).mem = s.mem := rfl
@[simp] theorem State.modAco_ecc (f : Aco → Aco) : (s.modAco f).ecc = s.ecc := rfl
@[simp] theorem State.modAco_stores (f : Aco → Aco) : (s.modAco f).stores = s.stores := rfl
@[simp] theorem State.modAco_regs (f : Aco → Aco) : (s.modAco f).regs = s.regs := rfl
@[simp] theorem State.modAco_cells (f : Aco → Aco) : (s.modAco f).cells = s.cells := rfl
@[simp] theorem State.modAco_hosts (f : Aco → Aco) : (s.modAco f).hosts = s.hosts := rfl
@[simp] theorem State.modAco_lofts (f : Aco → Aco) : (s.modAco f).lofts = s.lofts := rfl
@[simp] theorem State.modAco_tlbs (f : Aco → Aco) : (s.modAco f).tlbs = s.tlbs := rfl
@[simp] theorem State.modAco_paths (f : Aco → Aco) : (s.modAco f).paths = s.paths := rfl
@[simp] theorem State.modAco_crates (f : Aco → Aco) : (s.modAco f).crates = s.crates := rfl
@[simp] theorem State.modAco_crateNext (f : Aco → Aco) : (s.modAco f).crateNext = s.crateNext := rfl
@[simp] theorem State.modAco_jobFaults (f : Aco → Aco) : (s.modAco f).jobFaults = s.jobFaults := rfl
@[simp] theorem State.modAco_inbox (f : Aco → Aco) : (s.modAco f).inbox = s.inbox := rfl
@[simp] theorem State.modAco_isl (f : Aco → Aco) : (s.modAco f).isl = s.isl := rfl
@[simp] theorem State.modAco_faultExt (f : Aco → Aco) : (s.modAco f).faultExt = s.faultExt := rfl
@[simp] theorem State.modAco_pwrok (f : Aco → Aco) : (s.modAco f).pwrok = s.pwrok := rfl
@[simp] theorem State.modAco_links (f : Aco → Aco) : (s.modAco f).links = s.links := rfl
@[simp] theorem State.modAco_crossings (f : Aco → Aco) : (s.modAco f).crossings = s.crossings := rfl
@[simp] theorem State.modAco_hub (f : Aco → Aco) : (s.modAco f).hub = s.hub := rfl
@[simp] theorem State.modAco_regPorts (f : Aco → Aco) : (s.modAco f).regPorts = s.regPorts := rfl
@[simp] theorem State.modAco_regHold (f : Aco → Aco) : (s.modAco f).regHold = s.regHold := rfl
@[simp] theorem State.modAco_therm (f : Aco → Aco) : (s.modAco f).therm = s.therm := rfl
@[simp] theorem State.modAco_hlth (f : Aco → Aco) : (s.modAco f).hlth = s.hlth := rfl
@[simp] theorem State.modAco_tests (f : Aco → Aco) : (s.modAco f).tests = s.tests := rfl
@[simp] theorem State.modAco_dramGib (f : Aco → Aco) : (s.modAco f).dramGib = s.dramGib := rfl
@[simp] theorem State.modAco_job (f : Aco → Aco) : (s.modAco f).job = s.job := rfl
@[simp] theorem State.modAco_aco (f : Aco → Aco) : (s.modAco f).aco = f s.aco := rfl
@[simp] theorem State.modAco_boots (f : Aco → Aco) : (s.modAco f).boots = s.boots := rfl
@[simp] theorem State.modAco_uart (f : Aco → Aco) : (s.modAco f).uart = s.uart := rfl
@[simp] theorem State.modAco_dump (f : Aco → Aco) : (s.modAco f).dump = s.dump := rfl
@[simp] theorem State.modAco_jtag (f : Aco → Aco) : (s.modAco f).jtag = s.jtag := rfl
@[simp] theorem State.modAco_out (f : Aco → Aco) : (s.modAco f).out = s.out := rfl

/-! ### modBoot -/

@[simp] theorem State.modBoot_pending (o : Fin 3) (f : BootSt → BootSt) : (s.modBoot o f).pending = s.pending := rfl
@[simp] theorem State.modBoot_free (o : Fin 3) (f : BootSt → BootSt) : (s.modBoot o f).free = s.free := rfl
@[simp] theorem State.modBoot_mem (o : Fin 3) (f : BootSt → BootSt) : (s.modBoot o f).mem = s.mem := rfl
@[simp] theorem State.modBoot_ecc (o : Fin 3) (f : BootSt → BootSt) : (s.modBoot o f).ecc = s.ecc := rfl
@[simp] theorem State.modBoot_stores (o : Fin 3) (f : BootSt → BootSt) : (s.modBoot o f).stores = s.stores := rfl
@[simp] theorem State.modBoot_regs (o : Fin 3) (f : BootSt → BootSt) : (s.modBoot o f).regs = s.regs := rfl
@[simp] theorem State.modBoot_cells (o : Fin 3) (f : BootSt → BootSt) : (s.modBoot o f).cells = s.cells := rfl
@[simp] theorem State.modBoot_hosts (o : Fin 3) (f : BootSt → BootSt) : (s.modBoot o f).hosts = s.hosts := rfl
@[simp] theorem State.modBoot_lofts (o : Fin 3) (f : BootSt → BootSt) : (s.modBoot o f).lofts = s.lofts := rfl
@[simp] theorem State.modBoot_tlbs (o : Fin 3) (f : BootSt → BootSt) : (s.modBoot o f).tlbs = s.tlbs := rfl
@[simp] theorem State.modBoot_paths (o : Fin 3) (f : BootSt → BootSt) : (s.modBoot o f).paths = s.paths := rfl
@[simp] theorem State.modBoot_crates (o : Fin 3) (f : BootSt → BootSt) : (s.modBoot o f).crates = s.crates := rfl
@[simp] theorem State.modBoot_crateNext (o : Fin 3) (f : BootSt → BootSt) : (s.modBoot o f).crateNext = s.crateNext := rfl
@[simp] theorem State.modBoot_jobFaults (o : Fin 3) (f : BootSt → BootSt) : (s.modBoot o f).jobFaults = s.jobFaults := rfl
@[simp] theorem State.modBoot_inbox (o : Fin 3) (f : BootSt → BootSt) : (s.modBoot o f).inbox = s.inbox := rfl
@[simp] theorem State.modBoot_isl (o : Fin 3) (f : BootSt → BootSt) : (s.modBoot o f).isl = s.isl := rfl
@[simp] theorem State.modBoot_faultExt (o : Fin 3) (f : BootSt → BootSt) : (s.modBoot o f).faultExt = s.faultExt := rfl
@[simp] theorem State.modBoot_pwrok (o : Fin 3) (f : BootSt → BootSt) : (s.modBoot o f).pwrok = s.pwrok := rfl
@[simp] theorem State.modBoot_links (o : Fin 3) (f : BootSt → BootSt) : (s.modBoot o f).links = s.links := rfl
@[simp] theorem State.modBoot_crossings (o : Fin 3) (f : BootSt → BootSt) : (s.modBoot o f).crossings = s.crossings := rfl
@[simp] theorem State.modBoot_hub (o : Fin 3) (f : BootSt → BootSt) : (s.modBoot o f).hub = s.hub := rfl
@[simp] theorem State.modBoot_regPorts (o : Fin 3) (f : BootSt → BootSt) : (s.modBoot o f).regPorts = s.regPorts := rfl
@[simp] theorem State.modBoot_regHold (o : Fin 3) (f : BootSt → BootSt) : (s.modBoot o f).regHold = s.regHold := rfl
@[simp] theorem State.modBoot_therm (o : Fin 3) (f : BootSt → BootSt) : (s.modBoot o f).therm = s.therm := rfl
@[simp] theorem State.modBoot_hlth (o : Fin 3) (f : BootSt → BootSt) : (s.modBoot o f).hlth = s.hlth := rfl
@[simp] theorem State.modBoot_tests (o : Fin 3) (f : BootSt → BootSt) : (s.modBoot o f).tests = s.tests := rfl
@[simp] theorem State.modBoot_dramGib (o : Fin 3) (f : BootSt → BootSt) : (s.modBoot o f).dramGib = s.dramGib := rfl
@[simp] theorem State.modBoot_job (o : Fin 3) (f : BootSt → BootSt) : (s.modBoot o f).job = s.job := rfl
@[simp] theorem State.modBoot_aco (o : Fin 3) (f : BootSt → BootSt) : (s.modBoot o f).aco = s.aco := rfl
@[simp] theorem State.modBoot_boots (o : Fin 3) (f : BootSt → BootSt) : (s.modBoot o f).boots = s.boots.set o (f s.boots[o]) := rfl
@[simp] theorem State.modBoot_uart (o : Fin 3) (f : BootSt → BootSt) : (s.modBoot o f).uart = s.uart := rfl
@[simp] theorem State.modBoot_dump (o : Fin 3) (f : BootSt → BootSt) : (s.modBoot o f).dump = s.dump := rfl
@[simp] theorem State.modBoot_jtag (o : Fin 3) (f : BootSt → BootSt) : (s.modBoot o f).jtag = s.jtag := rfl
@[simp] theorem State.modBoot_out (o : Fin 3) (f : BootSt → BootSt) : (s.modBoot o f).out = s.out := rfl

/-! ### modUart -/

@[simp] theorem State.modUart_pending (m : MonId) (f : Uart → Uart) : (s.modUart m f).pending = s.pending := rfl
@[simp] theorem State.modUart_free (m : MonId) (f : Uart → Uart) : (s.modUart m f).free = s.free := rfl
@[simp] theorem State.modUart_mem (m : MonId) (f : Uart → Uart) : (s.modUart m f).mem = s.mem := rfl
@[simp] theorem State.modUart_ecc (m : MonId) (f : Uart → Uart) : (s.modUart m f).ecc = s.ecc := rfl
@[simp] theorem State.modUart_stores (m : MonId) (f : Uart → Uart) : (s.modUart m f).stores = s.stores := rfl
@[simp] theorem State.modUart_regs (m : MonId) (f : Uart → Uart) : (s.modUart m f).regs = s.regs := rfl
@[simp] theorem State.modUart_cells (m : MonId) (f : Uart → Uart) : (s.modUart m f).cells = s.cells := rfl
@[simp] theorem State.modUart_hosts (m : MonId) (f : Uart → Uart) : (s.modUart m f).hosts = s.hosts := rfl
@[simp] theorem State.modUart_lofts (m : MonId) (f : Uart → Uart) : (s.modUart m f).lofts = s.lofts := rfl
@[simp] theorem State.modUart_tlbs (m : MonId) (f : Uart → Uart) : (s.modUart m f).tlbs = s.tlbs := rfl
@[simp] theorem State.modUart_paths (m : MonId) (f : Uart → Uart) : (s.modUart m f).paths = s.paths := rfl
@[simp] theorem State.modUart_crates (m : MonId) (f : Uart → Uart) : (s.modUart m f).crates = s.crates := rfl
@[simp] theorem State.modUart_crateNext (m : MonId) (f : Uart → Uart) : (s.modUart m f).crateNext = s.crateNext := rfl
@[simp] theorem State.modUart_jobFaults (m : MonId) (f : Uart → Uart) : (s.modUart m f).jobFaults = s.jobFaults := rfl
@[simp] theorem State.modUart_inbox (m : MonId) (f : Uart → Uart) : (s.modUart m f).inbox = s.inbox := rfl
@[simp] theorem State.modUart_isl (m : MonId) (f : Uart → Uart) : (s.modUart m f).isl = s.isl := rfl
@[simp] theorem State.modUart_faultExt (m : MonId) (f : Uart → Uart) : (s.modUart m f).faultExt = s.faultExt := rfl
@[simp] theorem State.modUart_pwrok (m : MonId) (f : Uart → Uart) : (s.modUart m f).pwrok = s.pwrok := rfl
@[simp] theorem State.modUart_links (m : MonId) (f : Uart → Uart) : (s.modUart m f).links = s.links := rfl
@[simp] theorem State.modUart_crossings (m : MonId) (f : Uart → Uart) : (s.modUart m f).crossings = s.crossings := rfl
@[simp] theorem State.modUart_hub (m : MonId) (f : Uart → Uart) : (s.modUart m f).hub = s.hub := rfl
@[simp] theorem State.modUart_regPorts (m : MonId) (f : Uart → Uart) : (s.modUart m f).regPorts = s.regPorts := rfl
@[simp] theorem State.modUart_regHold (m : MonId) (f : Uart → Uart) : (s.modUart m f).regHold = s.regHold := rfl
@[simp] theorem State.modUart_therm (m : MonId) (f : Uart → Uart) : (s.modUart m f).therm = s.therm := rfl
@[simp] theorem State.modUart_hlth (m : MonId) (f : Uart → Uart) : (s.modUart m f).hlth = s.hlth := rfl
@[simp] theorem State.modUart_tests (m : MonId) (f : Uart → Uart) : (s.modUart m f).tests = s.tests := rfl
@[simp] theorem State.modUart_dramGib (m : MonId) (f : Uart → Uart) : (s.modUart m f).dramGib = s.dramGib := rfl
@[simp] theorem State.modUart_job (m : MonId) (f : Uart → Uart) : (s.modUart m f).job = s.job := rfl
@[simp] theorem State.modUart_aco (m : MonId) (f : Uart → Uart) : (s.modUart m f).aco = s.aco := rfl
@[simp] theorem State.modUart_boots (m : MonId) (f : Uart → Uart) : (s.modUart m f).boots = s.boots := rfl
@[simp] theorem State.modUart_uart (m : MonId) (f : Uart → Uart) : (s.modUart m f).uart = s.uart.set (monNum m) (f s.uart[monNum m]) := rfl
@[simp] theorem State.modUart_dump (m : MonId) (f : Uart → Uart) : (s.modUart m f).dump = s.dump := rfl
@[simp] theorem State.modUart_jtag (m : MonId) (f : Uart → Uart) : (s.modUart m f).jtag = s.jtag := rfl
@[simp] theorem State.modUart_out (m : MonId) (f : Uart → Uart) : (s.modUart m f).out = s.out := rfl

/-! ### modPath -/

@[simp] theorem State.modPath_pending (d : Fin 4) (f : PathUnit → PathUnit) : (s.modPath d f).pending = s.pending := rfl
@[simp] theorem State.modPath_free (d : Fin 4) (f : PathUnit → PathUnit) : (s.modPath d f).free = s.free := rfl
@[simp] theorem State.modPath_mem (d : Fin 4) (f : PathUnit → PathUnit) : (s.modPath d f).mem = s.mem := rfl
@[simp] theorem State.modPath_ecc (d : Fin 4) (f : PathUnit → PathUnit) : (s.modPath d f).ecc = s.ecc := rfl
@[simp] theorem State.modPath_stores (d : Fin 4) (f : PathUnit → PathUnit) : (s.modPath d f).stores = s.stores := rfl
@[simp] theorem State.modPath_regs (d : Fin 4) (f : PathUnit → PathUnit) : (s.modPath d f).regs = s.regs := rfl
@[simp] theorem State.modPath_cells (d : Fin 4) (f : PathUnit → PathUnit) : (s.modPath d f).cells = s.cells := rfl
@[simp] theorem State.modPath_hosts (d : Fin 4) (f : PathUnit → PathUnit) : (s.modPath d f).hosts = s.hosts := rfl
@[simp] theorem State.modPath_lofts (d : Fin 4) (f : PathUnit → PathUnit) : (s.modPath d f).lofts = s.lofts := rfl
@[simp] theorem State.modPath_tlbs (d : Fin 4) (f : PathUnit → PathUnit) : (s.modPath d f).tlbs = s.tlbs := rfl
@[simp] theorem State.modPath_paths (d : Fin 4) (f : PathUnit → PathUnit) : (s.modPath d f).paths = s.paths.set d (f s.paths[d]) := rfl
@[simp] theorem State.modPath_crates (d : Fin 4) (f : PathUnit → PathUnit) : (s.modPath d f).crates = s.crates := rfl
@[simp] theorem State.modPath_crateNext (d : Fin 4) (f : PathUnit → PathUnit) : (s.modPath d f).crateNext = s.crateNext := rfl
@[simp] theorem State.modPath_jobFaults (d : Fin 4) (f : PathUnit → PathUnit) : (s.modPath d f).jobFaults = s.jobFaults := rfl
@[simp] theorem State.modPath_inbox (d : Fin 4) (f : PathUnit → PathUnit) : (s.modPath d f).inbox = s.inbox := rfl
@[simp] theorem State.modPath_isl (d : Fin 4) (f : PathUnit → PathUnit) : (s.modPath d f).isl = s.isl := rfl
@[simp] theorem State.modPath_faultExt (d : Fin 4) (f : PathUnit → PathUnit) : (s.modPath d f).faultExt = s.faultExt := rfl
@[simp] theorem State.modPath_pwrok (d : Fin 4) (f : PathUnit → PathUnit) : (s.modPath d f).pwrok = s.pwrok := rfl
@[simp] theorem State.modPath_links (d : Fin 4) (f : PathUnit → PathUnit) : (s.modPath d f).links = s.links := rfl
@[simp] theorem State.modPath_crossings (d : Fin 4) (f : PathUnit → PathUnit) : (s.modPath d f).crossings = s.crossings := rfl
@[simp] theorem State.modPath_hub (d : Fin 4) (f : PathUnit → PathUnit) : (s.modPath d f).hub = s.hub := rfl
@[simp] theorem State.modPath_regPorts (d : Fin 4) (f : PathUnit → PathUnit) : (s.modPath d f).regPorts = s.regPorts := rfl
@[simp] theorem State.modPath_regHold (d : Fin 4) (f : PathUnit → PathUnit) : (s.modPath d f).regHold = s.regHold := rfl
@[simp] theorem State.modPath_therm (d : Fin 4) (f : PathUnit → PathUnit) : (s.modPath d f).therm = s.therm := rfl
@[simp] theorem State.modPath_hlth (d : Fin 4) (f : PathUnit → PathUnit) : (s.modPath d f).hlth = s.hlth := rfl
@[simp] theorem State.modPath_tests (d : Fin 4) (f : PathUnit → PathUnit) : (s.modPath d f).tests = s.tests := rfl
@[simp] theorem State.modPath_dramGib (d : Fin 4) (f : PathUnit → PathUnit) : (s.modPath d f).dramGib = s.dramGib := rfl
@[simp] theorem State.modPath_job (d : Fin 4) (f : PathUnit → PathUnit) : (s.modPath d f).job = s.job := rfl
@[simp] theorem State.modPath_aco (d : Fin 4) (f : PathUnit → PathUnit) : (s.modPath d f).aco = s.aco := rfl
@[simp] theorem State.modPath_boots (d : Fin 4) (f : PathUnit → PathUnit) : (s.modPath d f).boots = s.boots := rfl
@[simp] theorem State.modPath_uart (d : Fin 4) (f : PathUnit → PathUnit) : (s.modPath d f).uart = s.uart := rfl
@[simp] theorem State.modPath_dump (d : Fin 4) (f : PathUnit → PathUnit) : (s.modPath d f).dump = s.dump := rfl
@[simp] theorem State.modPath_jtag (d : Fin 4) (f : PathUnit → PathUnit) : (s.modPath d f).jtag = s.jtag := rfl
@[simp] theorem State.modPath_out (d : Fin 4) (f : PathUnit → PathUnit) : (s.modPath d f).out = s.out := rfl

/-! ### setLink -/

@[simp] theorem State.setLink_pending (d : Fin 7) (m : Fin 10) (k : Link) : (s.setLink d m k).pending = s.pending := rfl
@[simp] theorem State.setLink_free (d : Fin 7) (m : Fin 10) (k : Link) : (s.setLink d m k).free = s.free := rfl
@[simp] theorem State.setLink_mem (d : Fin 7) (m : Fin 10) (k : Link) : (s.setLink d m k).mem = s.mem := rfl
@[simp] theorem State.setLink_ecc (d : Fin 7) (m : Fin 10) (k : Link) : (s.setLink d m k).ecc = s.ecc := rfl
@[simp] theorem State.setLink_stores (d : Fin 7) (m : Fin 10) (k : Link) : (s.setLink d m k).stores = s.stores := rfl
@[simp] theorem State.setLink_regs (d : Fin 7) (m : Fin 10) (k : Link) : (s.setLink d m k).regs = s.regs := rfl
@[simp] theorem State.setLink_cells (d : Fin 7) (m : Fin 10) (k : Link) : (s.setLink d m k).cells = s.cells := rfl
@[simp] theorem State.setLink_hosts (d : Fin 7) (m : Fin 10) (k : Link) : (s.setLink d m k).hosts = s.hosts := rfl
@[simp] theorem State.setLink_lofts (d : Fin 7) (m : Fin 10) (k : Link) : (s.setLink d m k).lofts = s.lofts := rfl
@[simp] theorem State.setLink_tlbs (d : Fin 7) (m : Fin 10) (k : Link) : (s.setLink d m k).tlbs = s.tlbs := rfl
@[simp] theorem State.setLink_paths (d : Fin 7) (m : Fin 10) (k : Link) : (s.setLink d m k).paths = s.paths := rfl
@[simp] theorem State.setLink_crates (d : Fin 7) (m : Fin 10) (k : Link) : (s.setLink d m k).crates = s.crates := rfl
@[simp] theorem State.setLink_crateNext (d : Fin 7) (m : Fin 10) (k : Link) : (s.setLink d m k).crateNext = s.crateNext := rfl
@[simp] theorem State.setLink_jobFaults (d : Fin 7) (m : Fin 10) (k : Link) : (s.setLink d m k).jobFaults = s.jobFaults := rfl
@[simp] theorem State.setLink_inbox (d : Fin 7) (m : Fin 10) (k : Link) : (s.setLink d m k).inbox = s.inbox := rfl
@[simp] theorem State.setLink_isl (d : Fin 7) (m : Fin 10) (k : Link) : (s.setLink d m k).isl = s.isl := rfl
@[simp] theorem State.setLink_faultExt (d : Fin 7) (m : Fin 10) (k : Link) : (s.setLink d m k).faultExt = s.faultExt := rfl
@[simp] theorem State.setLink_pwrok (d : Fin 7) (m : Fin 10) (k : Link) : (s.setLink d m k).pwrok = s.pwrok := rfl
@[simp] theorem State.setLink_links (d : Fin 7) (m : Fin 10) (k : Link) : (s.setLink d m k).links = s.links.set d ((s.links[d]).set m k) := rfl
@[simp] theorem State.setLink_crossings (d : Fin 7) (m : Fin 10) (k : Link) : (s.setLink d m k).crossings = s.crossings := rfl
@[simp] theorem State.setLink_hub (d : Fin 7) (m : Fin 10) (k : Link) : (s.setLink d m k).hub = s.hub := rfl
@[simp] theorem State.setLink_regPorts (d : Fin 7) (m : Fin 10) (k : Link) : (s.setLink d m k).regPorts = s.regPorts := rfl
@[simp] theorem State.setLink_regHold (d : Fin 7) (m : Fin 10) (k : Link) : (s.setLink d m k).regHold = s.regHold := rfl
@[simp] theorem State.setLink_therm (d : Fin 7) (m : Fin 10) (k : Link) : (s.setLink d m k).therm = s.therm := rfl
@[simp] theorem State.setLink_hlth (d : Fin 7) (m : Fin 10) (k : Link) : (s.setLink d m k).hlth = s.hlth := rfl
@[simp] theorem State.setLink_tests (d : Fin 7) (m : Fin 10) (k : Link) : (s.setLink d m k).tests = s.tests := rfl
@[simp] theorem State.setLink_dramGib (d : Fin 7) (m : Fin 10) (k : Link) : (s.setLink d m k).dramGib = s.dramGib := rfl
@[simp] theorem State.setLink_job (d : Fin 7) (m : Fin 10) (k : Link) : (s.setLink d m k).job = s.job := rfl
@[simp] theorem State.setLink_aco (d : Fin 7) (m : Fin 10) (k : Link) : (s.setLink d m k).aco = s.aco := rfl
@[simp] theorem State.setLink_boots (d : Fin 7) (m : Fin 10) (k : Link) : (s.setLink d m k).boots = s.boots := rfl
@[simp] theorem State.setLink_uart (d : Fin 7) (m : Fin 10) (k : Link) : (s.setLink d m k).uart = s.uart := rfl
@[simp] theorem State.setLink_dump (d : Fin 7) (m : Fin 10) (k : Link) : (s.setLink d m k).dump = s.dump := rfl
@[simp] theorem State.setLink_jtag (d : Fin 7) (m : Fin 10) (k : Link) : (s.setLink d m k).jtag = s.jtag := rfl
@[simp] theorem State.setLink_out (d : Fin 7) (m : Fin 10) (k : Link) : (s.setLink d m k).out = s.out := rfl

/-! ### setCrate -/

@[simp] theorem State.setCrate_pending (k : Crate) : (s.setCrate k).pending = s.pending := rfl
@[simp] theorem State.setCrate_free (k : Crate) : (s.setCrate k).free = s.free := rfl
@[simp] theorem State.setCrate_mem (k : Crate) : (s.setCrate k).mem = s.mem := rfl
@[simp] theorem State.setCrate_ecc (k : Crate) : (s.setCrate k).ecc = s.ecc := rfl
@[simp] theorem State.setCrate_stores (k : Crate) : (s.setCrate k).stores = s.stores := rfl
@[simp] theorem State.setCrate_regs (k : Crate) : (s.setCrate k).regs = s.regs := rfl
@[simp] theorem State.setCrate_cells (k : Crate) : (s.setCrate k).cells = s.cells := rfl
@[simp] theorem State.setCrate_hosts (k : Crate) : (s.setCrate k).hosts = s.hosts := rfl
@[simp] theorem State.setCrate_lofts (k : Crate) : (s.setCrate k).lofts = s.lofts := rfl
@[simp] theorem State.setCrate_tlbs (k : Crate) : (s.setCrate k).tlbs = s.tlbs := rfl
@[simp] theorem State.setCrate_paths (k : Crate) : (s.setCrate k).paths = s.paths := rfl
@[simp] theorem State.setCrate_crates (k : Crate) : (s.setCrate k).crates = s.crates.map (fun x => if x.num = k.num then k else x) := rfl
@[simp] theorem State.setCrate_crateNext (k : Crate) : (s.setCrate k).crateNext = s.crateNext := rfl
@[simp] theorem State.setCrate_jobFaults (k : Crate) : (s.setCrate k).jobFaults = s.jobFaults := rfl
@[simp] theorem State.setCrate_inbox (k : Crate) : (s.setCrate k).inbox = s.inbox := rfl
@[simp] theorem State.setCrate_isl (k : Crate) : (s.setCrate k).isl = s.isl := rfl
@[simp] theorem State.setCrate_faultExt (k : Crate) : (s.setCrate k).faultExt = s.faultExt := rfl
@[simp] theorem State.setCrate_pwrok (k : Crate) : (s.setCrate k).pwrok = s.pwrok := rfl
@[simp] theorem State.setCrate_links (k : Crate) : (s.setCrate k).links = s.links := rfl
@[simp] theorem State.setCrate_crossings (k : Crate) : (s.setCrate k).crossings = s.crossings := rfl
@[simp] theorem State.setCrate_hub (k : Crate) : (s.setCrate k).hub = s.hub := rfl
@[simp] theorem State.setCrate_regPorts (k : Crate) : (s.setCrate k).regPorts = s.regPorts := rfl
@[simp] theorem State.setCrate_regHold (k : Crate) : (s.setCrate k).regHold = s.regHold := rfl
@[simp] theorem State.setCrate_therm (k : Crate) : (s.setCrate k).therm = s.therm := rfl
@[simp] theorem State.setCrate_hlth (k : Crate) : (s.setCrate k).hlth = s.hlth := rfl
@[simp] theorem State.setCrate_tests (k : Crate) : (s.setCrate k).tests = s.tests := rfl
@[simp] theorem State.setCrate_dramGib (k : Crate) : (s.setCrate k).dramGib = s.dramGib := rfl
@[simp] theorem State.setCrate_job (k : Crate) : (s.setCrate k).job = s.job := rfl
@[simp] theorem State.setCrate_aco (k : Crate) : (s.setCrate k).aco = s.aco := rfl
@[simp] theorem State.setCrate_boots (k : Crate) : (s.setCrate k).boots = s.boots := rfl
@[simp] theorem State.setCrate_uart (k : Crate) : (s.setCrate k).uart = s.uart := rfl
@[simp] theorem State.setCrate_dump (k : Crate) : (s.setCrate k).dump = s.dump := rfl
@[simp] theorem State.setCrate_jtag (k : Crate) : (s.setCrate k).jtag = s.jtag := rfl
@[simp] theorem State.setCrate_out (k : Crate) : (s.setCrate k).out = s.out := rfl

/-! ### dropCrate -/

@[simp] theorem State.dropCrate_pending (n : Nat) : (s.dropCrate n).pending = s.pending := rfl
@[simp] theorem State.dropCrate_free (n : Nat) : (s.dropCrate n).free = s.free := rfl
@[simp] theorem State.dropCrate_mem (n : Nat) : (s.dropCrate n).mem = s.mem := rfl
@[simp] theorem State.dropCrate_ecc (n : Nat) : (s.dropCrate n).ecc = s.ecc := rfl
@[simp] theorem State.dropCrate_stores (n : Nat) : (s.dropCrate n).stores = s.stores := rfl
@[simp] theorem State.dropCrate_regs (n : Nat) : (s.dropCrate n).regs = s.regs := rfl
@[simp] theorem State.dropCrate_cells (n : Nat) : (s.dropCrate n).cells = s.cells := rfl
@[simp] theorem State.dropCrate_hosts (n : Nat) : (s.dropCrate n).hosts = s.hosts := rfl
@[simp] theorem State.dropCrate_lofts (n : Nat) : (s.dropCrate n).lofts = s.lofts := rfl
@[simp] theorem State.dropCrate_tlbs (n : Nat) : (s.dropCrate n).tlbs = s.tlbs := rfl
@[simp] theorem State.dropCrate_paths (n : Nat) : (s.dropCrate n).paths = s.paths := rfl
@[simp] theorem State.dropCrate_crates (n : Nat) : (s.dropCrate n).crates = s.crates.filter (fun k => k.num ≠ n) := rfl
@[simp] theorem State.dropCrate_crateNext (n : Nat) : (s.dropCrate n).crateNext = s.crateNext := rfl
@[simp] theorem State.dropCrate_jobFaults (n : Nat) : (s.dropCrate n).jobFaults = s.jobFaults := rfl
@[simp] theorem State.dropCrate_inbox (n : Nat) : (s.dropCrate n).inbox = s.inbox := rfl
@[simp] theorem State.dropCrate_isl (n : Nat) : (s.dropCrate n).isl = s.isl := rfl
@[simp] theorem State.dropCrate_faultExt (n : Nat) : (s.dropCrate n).faultExt = s.faultExt := rfl
@[simp] theorem State.dropCrate_pwrok (n : Nat) : (s.dropCrate n).pwrok = s.pwrok := rfl
@[simp] theorem State.dropCrate_links (n : Nat) : (s.dropCrate n).links = s.links := rfl
@[simp] theorem State.dropCrate_crossings (n : Nat) : (s.dropCrate n).crossings = s.crossings := rfl
@[simp] theorem State.dropCrate_hub (n : Nat) : (s.dropCrate n).hub = s.hub := rfl
@[simp] theorem State.dropCrate_regPorts (n : Nat) : (s.dropCrate n).regPorts = s.regPorts := rfl
@[simp] theorem State.dropCrate_regHold (n : Nat) : (s.dropCrate n).regHold = s.regHold := rfl
@[simp] theorem State.dropCrate_therm (n : Nat) : (s.dropCrate n).therm = s.therm := rfl
@[simp] theorem State.dropCrate_hlth (n : Nat) : (s.dropCrate n).hlth = s.hlth := rfl
@[simp] theorem State.dropCrate_tests (n : Nat) : (s.dropCrate n).tests = s.tests := rfl
@[simp] theorem State.dropCrate_dramGib (n : Nat) : (s.dropCrate n).dramGib = s.dramGib := rfl
@[simp] theorem State.dropCrate_job (n : Nat) : (s.dropCrate n).job = s.job := rfl
@[simp] theorem State.dropCrate_aco (n : Nat) : (s.dropCrate n).aco = s.aco := rfl
@[simp] theorem State.dropCrate_boots (n : Nat) : (s.dropCrate n).boots = s.boots := rfl
@[simp] theorem State.dropCrate_uart (n : Nat) : (s.dropCrate n).uart = s.uart := rfl
@[simp] theorem State.dropCrate_dump (n : Nat) : (s.dropCrate n).dump = s.dump := rfl
@[simp] theorem State.dropCrate_jtag (n : Nat) : (s.dropCrate n).jtag = s.jtag := rfl
@[simp] theorem State.dropCrate_out (n : Nat) : (s.dropCrate n).out = s.out := rfl

end Sys2Proof.Machine
end

