-- ==== Sys2Proof/Laws/Issue.lean ====
section
/-! SUPPORT. What the issue of one instruction can do: its result, its exceptions, and what it leaves alone. -/

namespace Sys2Proof.Machine

variable {e : Engine} {word : W32} {op : Op} {s s' : State} {f : Flow}

/-- An instruction that may issue and meets no check takes effect, and the engine advances. -/
theorem runOp_next (h : CanIssue s e op.ext op.uses) (hl : op.legal = true) (hc : op.check s = none) (hh : op.holds s = false)
    (ha : op.act s = .ok (s', f)) : runOp e word op s = s'.retire e (issueBytes e op.ext) f := by
  obtain ⟨h1, h2, h3, h4, h5⟩ := h
  unfold runOp
  simp only [h1, h2, h3, h4, hl, hc, h5, hh, ha, Bool.not_true, Bool.or_false, Bool.false_eq_true, if_false]

/-- An illegal form raises ILLEGAL_INSTR. -/
theorem runOp_illegal (h : CanIssue s e op.ext op.uses) (hl : op.legal = false) :
    runOp e word op s = s.raise e op.stands (s.pc e) word excIllegal := by
  obtain ⟨h1, h2, h3, h4, h5⟩ := h
  unfold runOp
  simp [h1, h2, h3, h4, hl]

/-- A check that fails raises its exception. -/
theorem runOp_check {x : Exc} (h : CanIssue s e op.ext op.uses) (hl : op.legal = true) (hc : op.check s = some x) :
    runOp e word op s = s.fail e op.stands (s.pc e) word (issueBytes e op.ext) x := by
  obtain ⟨h1, h2, h3, h4, h5⟩ := h
  unfold runOp
  simp [h1, h2, h3, h4, hl, hc]

/-- Only a BREAKPOINT is offered to Hatch; every other exception is taken. -/
theorem State.fail_raise {slot : Fin 4} {pc bytes : Nat} {x : Exc} (h : x.cause ≠ 7) : s.fail e slot pc word bytes x = s.raise e slot pc word x := by
  unfold State.fail
  split
  · rw [if_neg (fun a => h a.1)]
  · rfl

/-- An exception met while an instruction acts follows its issue (R128). -/
theorem runOp_error {x : Exc} (h : CanIssue s e op.ext op.uses) (hl : op.legal = true) (hc : op.check s = none) (hh : op.holds s = false)
    (ha : op.act s = .error (s', x)) : runOp e word op s = (s'.noteIssue e).fail e op.stands (s.pc e) word (issueBytes e op.ext) x := by
  obtain ⟨h1, h2, h3, h4, h5⟩ := h
  unfold runOp
  simp only [h1, h2, h3, h4, hl, hc, h5, hh, ha, Bool.not_true, Bool.or_false, Bool.false_eq_true, if_false]

/-- An engine that cannot issue executes nothing. -/
theorem runOp_unable (h : s.able e = false) : runOp e word op s = s := by simp [runOp, h]

/-- A vector instruction outside broadcast mode is an instruction of the core's own stream. -/
theorem runVec_own {x : SlvId} (h : s.inBcast (.slv x) = false) : runVec x word op s = runOp (.slv x) word op s := by
  have h' : (s.slvAt x).bcast = false := h
  simp [runVec, h']

/-- A vector instruction of the core's own stream that meets no check takes effect. -/
theorem runVec_next {x : SlvId} (h : CanIssue s (.slv x) op.ext op.uses) (hl : op.legal = true) (hc : op.check s = none) (hh : op.holds s = false)
    (ha : op.act s = .ok (s', f)) : runVec x word op s = s'.retire (.slv x) (issueBytes (.slv x) op.ext) f := by
  rw [runVec_own h.2.1]; exact runOp_next h hl hc hh ha

/-- A vector instruction taken from the broadcast queue takes effect and leaves the queue; the core's own stream stands still. -/
theorem runVec_replay {x : SlvId} {r : List W32} (h : CanReplay s x word r) (hc : op.check s = none) (ha : op.act s = .ok (s', f)) :
    runVec x word op s = (s'.issued (.slv x)).modSlv x (fun k => { k with bq := r }) := by
  obtain ⟨h1, h2, h3⟩ := h
  simp [runVec, h1, h2, h3, hc, ha]

/-! ### Host cores -/

/-- A host core that is ready may issue. -/
theorem hostReady_canIssue {h : Fin 8} {ext : Bool} {uses : List Reg} (hr : hostReady s h) : CanIssue s (.host h) ext uses := by
  obtain ⟨h0, h1, h2, h3⟩ := hr
  refine ⟨?_, rfl, ?_, rfl, rfl⟩
  · show (s.pwrok && !s.stopping (.host h) && !s.dieStands (.host h) && (!(s.hosts[h]).waiting && (s.hosts[h]).hold == .none)) = true
    rw [h0, h1, h2]; rfl
  · simp [fetchOk, h3]

theorem State.issued_host (h : Fin 8) : s.issued (.host h) = s := rfl
theorem State.retire_host_fall (h : Fin 8) (n : Nat) :
    s.retire (.host h) n .fall = s.modHost h (fun q => { q with pc := BitVec.ofNat 48 (s.pc (.host h) + n) }) := rfl
theorem State.retire_host_fallIdle (h : Fin 8) (n : Nat) :
    s.retire (.host h) n .fallIdle = s.modHost h (fun q => { q with pc := BitVec.ofNat 48 (s.pc (.host h) + n) }) := rfl
theorem State.retire_host_jump (h : Fin 8) (n t : Nat) :
    s.retire (.host h) n (.jump t) = s.modHost h (fun q => { q with pc := BitVec.ofNat 48 t }) := rfl
theorem State.retire_host_stop (h : Fin 8) (n : Nat) :
    s.retire (.host h) n .stop = s.modHost h (fun q => { q with pc := BitVec.ofNat 48 (s.pc (.host h) + n), waiting := true }) := rfl

theorem State.hosts_modHost_self (h : Fin 8) (g : HostCore → HostCore) : (s.modHost h g).hosts[h] = g s.hosts[h] := by
  simp [State.modHost]
theorem State.hosts_modHost_ne {h k : Fin 8} (hk : k ≠ h) (g : HostCore → HostCore) : (s.modHost h g).hosts[k] = s.hosts[k] := by
  have : (h : Nat) ≠ k := fun a => hk (Fin.ext a.symm)
  simp [State.modHost, this]

/-- Two changes of one host core are one change. -/
theorem State.modHost_modHost (h : Fin 8) (f g : HostCore → HostCore) : (s.modHost h f).modHost h g = s.modHost h (fun k => g (f k)) := by
  simp [State.modHost]

/-! ### Cells -/

theorem CellId.num_inj {a b : CellId} (h : a.num = b.num) : a = b := by
  obtain ⟨d, i⟩ := a
  obtain ⟨d', i'⟩ := b
  simp only [CellId.num, Fin.mk.injEq] at h
  have h1 : d.val = d'.val := by omega
  have h2 : i.val = i'.val := by omega
  simp [Fin.ext h1, Fin.ext h2]

@[simp] theorem State.cell_setCell_self (c : CellId) (x : Cell) : (s.setCell c x).cell c = x := by simp [State.cell, State.setCell]
theorem State.cell_setCell_ne {c c' : CellId} (h : c' ≠ c) (x : Cell) : (s.setCell c x).cell c' = s.cell c' := by
  have : (c.num : Nat) ≠ c'.num := fun a => h (CellId.num_inj (Fin.ext a.symm))
  simp [State.cell, State.setCell, this]
@[simp] theorem State.cell_modCell_self (c : CellId) (g : Cell → Cell) : (s.modCell c g).cell c = g (s.cell c) := by simp [State.modCell]
theorem State.cell_modCell_ne {c c' : CellId} (h : c' ≠ c) (g : Cell → Cell) : (s.modCell c g).cell c' = s.cell c' := cell_setCell_ne h _
@[simp] theorem State.cell_modSeq_self (c : CellId) (g : Seq → Seq) : (s.modSeq c g).cell c = { s.cell c with seq := g (s.cell c).seq } := by
  simp [State.modSeq]
theorem State.cell_modSeq_ne {c c' : CellId} (h : c' ≠ c) (g : Seq → Seq) : (s.modSeq c g).cell c' = s.cell c' := cell_modCell_ne h _
@[simp] theorem State.slvAt_setSlv_self (x : SlvId) (v : Sliver) : (s.setSlv x v).slvAt x = v := by simp [State.slvAt, State.setSlv]
theorem State.slvAt_setSlv_ne {x y : SlvId} (h : y ≠ x) (v : Sliver) : (s.setSlv x v).slvAt y = s.slvAt y := by
  unfold State.slvAt State.setSlv
  by_cases hc : y.cell = x.cell
  · have hk : (x.core : Nat) ≠ y.core := by
      intro a; apply h; obtain ⟨c, i⟩ := x; obtain ⟨c', i'⟩ := y; simp_all [Fin.ext_iff]
    rw [hc]; simp [hk]
  · rw [State.cell_modCell_ne hc]
@[simp] theorem State.slvAt_modSlv_self (x : SlvId) (g : Sliver → Sliver) : (s.modSlv x g).slvAt x = g (s.slvAt x) := by simp [State.modSlv]
theorem State.slvAt_modSlv_ne {x y : SlvId} (h : y ≠ x) (g : Sliver → Sliver) : (s.modSlv x g).slvAt y = s.slvAt y := slvAt_setSlv_ne h _

/-! ### Registers of engines -/

/-- h0 reads 0, and a write to it is discarded (R109). -/
@[simp] theorem State.x_zero (e : Engine) : s.x e 0 = 0 := by simp [State.x]
theorem State.setX_host_zero (h : Fin 8) (sl : Fin 4) (lat : Nat) (v : W64) : s.setX (.host h) sl lat 0 v = s := by simp [State.setX]
theorem State.setX_slv_zero (x : SlvId) (sl : Fin 4) (lat : Nat) (v : W64) : s.setX (.slv x) sl lat 0 v = s := by simp [State.setX]
/-- A host register written reads back. -/
theorem State.x_setX_host (h : Fin 8) (sl : Fin 4) (lat : Nat) {d : Reg} (hd : d ≠ 0) (v : W64) : (s.setX (.host h) sl lat d v).x (.host h) d = v := by
  simp [State.setX, State.x, hd, State.modHost]
theorem State.x_setX_host_ne (h : Fin 8) (sl : Fin 4) (lat : Nat) {d r : Reg} (hr : r ≠ d) (v : W64) :
    (s.setX (.host h) sl lat d v).x (.host h) r = s.x (.host h) r := by
  have : (d : Nat) ≠ r := fun a => hr (Fin.ext a.symm)
  by_cases hd : d = 0
  · simp [State.setX, hd]
  · by_cases h0 : r = 0
    · simp [h0]
    · simp [State.setX, State.x, hd, h0, State.modHost, this]
/-- An s register of a sliver core written reads back. -/
theorem State.xw_setX_slv (x : SlvId) (sl : Fin 4) (lat : Nat) {d : Reg} (hd : d ≠ 0) (v : W64) :
    (s.setX (.slv x) sl lat d v).xw (.slv x) d = v.setWidth 32 := by
  have : (s.setX (.slv x) sl lat d v).slvAt x = { s.slvAt x with s := (s.slvAt x).s.set d (v.setWidth 32) } := by
    simp [State.setX, hd]
  simp [State.xw, State.x, hd, this]

end Sys2Proof.Machine
end

