-- ==== Sys2Proof/Laws/Memory.lean ====
section
/-! SUPPORT. Laws of canonical sparse maps and of memory: a read after a write, every other place left alone, and the canonical form kept by
every operation. -/

namespace Sys2Proof

variable {α : Type}

/-! ### Sparse maps -/

theorem sparseGet_put_self (d : Nat → α) (k : Nat) (v : α) (m : List (Nat × α)) : sparseGet d k (sparsePut k v m) = v := by
  induction m with
  | nil => simp [sparsePut, sparseGet]
  | cons p r ih =>
    obtain ⟨k', v'⟩ := p
    by_cases h1 : k < k'
    · simp [sparsePut, sparseGet, h1]
    · by_cases h2 : k = k'
      · simp [sparsePut, sparseGet, h2]
      · simp [sparsePut, sparseGet, h1, h2, ih]

theorem sparseGet_put_ne (d : Nat → α) {k j : Nat} (h : j ≠ k) (v : α) (m : List (Nat × α)) :
    sparseGet d j (sparsePut k v m) = sparseGet d j m := by
  induction m with
  | nil => simp [sparsePut, sparseGet, h]
  | cons p r ih =>
    obtain ⟨k', v'⟩ := p
    by_cases h1 : k < k'
    · simp [sparsePut, sparseGet, h1, h]
    · by_cases h2 : k = k'
      · subst h2; simp [sparsePut, sparseGet, h]
      · simp [sparsePut, sparseGet, h1, h2, ih]

theorem sparseGet_del_ne (d : Nat → α) {k j : Nat} (h : j ≠ k) (m : List (Nat × α)) :
    sparseGet d j (sparseDel k m) = sparseGet d j m := by
  induction m with
  | nil => rfl
  | cons p r ih =>
    obtain ⟨k', v'⟩ := p
    by_cases h2 : k = k'
    · subst h2; simp [sparseDel, sparseGet, h]
    · by_cases h1 : k < k'
      · simp [sparseDel, h1, h2]
      · simp [sparseDel, sparseGet, h1, h2, ih]

variable [DecidableEq α]

/-- The keys of a canonical map lie above its bound. -/
theorem sparseGet_below (d : Nat → α) {k : Nat} : ∀ {l : Nat} {m : List (Nat × α)}, sparseWf d (some l) m = true → k ≤ l →
    sparseGet d k m = d k
  | _, [], _, _ => rfl
  | l, (k', v') :: r, h, hk => by
    simp only [sparseWf, Bool.and_eq_true, decide_eq_true_eq] at h
    have : k ≠ k' := by omega
    simp only [sparseGet, this, if_false]
    exact sparseGet_below d h.2 (by omega)

theorem sparseWf_weaken (d : Nat → α) {l l' : Nat} (h : l' ≤ l) : ∀ {m : List (Nat × α)}, sparseWf d (some l) m = true →
    sparseWf d (some l') m = true
  | [], _ => rfl
  | (k', v') :: r, hm => by
    simp only [sparseWf, Bool.and_eq_true, decide_eq_true_eq] at hm ⊢
    exact ⟨⟨by omega, hm.1.2⟩, hm.2⟩

theorem sparseWf_none (d : Nat → α) {o : Option Nat} : ∀ {m : List (Nat × α)}, sparseWf d o m = true → sparseWf d none m = true
  | [], _ => rfl
  | (k', v') :: r, hm => by
    simp only [sparseWf, Bool.and_eq_true, decide_eq_true_eq] at hm ⊢
    exact ⟨⟨trivial, hm.1.2⟩, hm.2⟩

theorem sparseGet_del_self (d : Nat → α) (k : Nat) {o : Option Nat} {m : List (Nat × α)} (h : sparseWf d o m = true) :
    sparseGet d k (sparseDel k m) = d k := by
  induction m generalizing o with
  | nil => rfl
  | cons p r ih =>
    obtain ⟨k', v'⟩ := p
    simp only [sparseWf, Bool.and_eq_true, decide_eq_true_eq] at h
    by_cases h2 : k = k'
    · subst h2; simpa [sparseDel] using sparseGet_below d h.2 (Nat.le_refl k)
    · by_cases h1 : k < k'
      · simp only [sparseDel, h1, h2, if_false, if_true, sparseGet]
        exact sparseGet_below d h.2 (by omega)
      · simp only [sparseDel, h1, h2, if_false, sparseGet]
        exact ih h.2

theorem sparseWf_put (d : Nat → α) {k : Nat} {v : α} (hv : v ≠ d k) {o : Option Nat} {m : List (Nat × α)}
    (ho : ∀ l, o = some l → l < k) (h : sparseWf d o m = true) : sparseWf d o (sparsePut k v m) = true := by
  induction m generalizing o with
  | nil => cases o <;> simp_all [sparsePut, sparseWf]
  | cons p r ih =>
    obtain ⟨k', v'⟩ := p
    simp only [sparseWf, Bool.and_eq_true, decide_eq_true_eq] at h
    obtain ⟨⟨h0, h1⟩, h2⟩ := h
    by_cases a : k < k'
    · simp only [sparsePut, a, if_true, sparseWf, Bool.and_eq_true, decide_eq_true_eq]
      exact ⟨⟨by cases o <;> simp_all, hv⟩, ⟨trivial, h1⟩, h2⟩
    · by_cases b : k = k'
      · subst b
        simp only [sparsePut, Nat.lt_irrefl, if_true, if_false, sparseWf, Bool.and_eq_true, decide_eq_true_eq]
        exact ⟨⟨h0, hv⟩, h2⟩
      · simp only [sparsePut, a, b, if_false, sparseWf, Bool.and_eq_true, decide_eq_true_eq]
        exact ⟨⟨h0, h1⟩, ih (fun l hl => by cases hl; omega) h2⟩

theorem sparseWf_del (d : Nat → α) (k : Nat) {o : Option Nat} {m : List (Nat × α)} (h : sparseWf d o m = true) :
    sparseWf d o (sparseDel k m) = true := by
  induction m generalizing o with
  | nil => exact h
  | cons p r ih =>
    obtain ⟨k', v'⟩ := p
    have h' := h
    simp only [sparseWf, Bool.and_eq_true, decide_eq_true_eq] at h
    obtain ⟨⟨h0, h1⟩, h2⟩ := h
    by_cases b : k = k'
    · subst b
      simp only [sparseDel, if_true]
      cases o with
      | none => exact sparseWf_none d h2
      | some l => exact sparseWf_weaken d (by simp at h0; omega) h2
    · by_cases a : k < k'
      · simpa [sparseDel, a, b] using h'
      · simp only [sparseDel, a, b, if_false, sparseWf, Bool.and_eq_true, decide_eq_true_eq]
        exact ⟨⟨h0, h1⟩, ih h2⟩

/-- A write of one key reads back, leaves every other key alone and keeps the canonical form. -/
theorem sparseGet_set_self (d : Nat → α) (k : Nat) (v : α) {m : List (Nat × α)} (h : sparseWf d none m = true) :
    sparseGet d k (sparseSet d k v m) = v := by
  unfold sparseSet
  split
  · rename_i e; rw [sparseGet_del_self d k h, e]
  · exact sparseGet_put_self d k v m

theorem sparseGet_set_ne (d : Nat → α) {k j : Nat} (h : j ≠ k) (v : α) (m : List (Nat × α)) :
    sparseGet d j (sparseSet d k v m) = sparseGet d j m := by
  unfold sparseSet
  split
  · exact sparseGet_del_ne d h m
  · exact sparseGet_put_ne d h v m

theorem sparseWf_set (d : Nat → α) (k : Nat) (v : α) {m : List (Nat × α)} (h : sparseWf d none m = true) :
    sparseWf d none (sparseSet d k v m) = true := by
  unfold sparseSet
  split
  · exact sparseWf_del d k h
  · exact sparseWf_put d (by assumption) (by simp) h

theorem sparseWf_filter (d : Nat → α) (f : Nat × α → Bool) {o : Option Nat} {m : List (Nat × α)} (h : sparseWf d o m = true) :
    sparseWf d o (m.filter f) = true := by
  induction m generalizing o with
  | nil => exact h
  | cons p r ih =>
    obtain ⟨k', v'⟩ := p
    simp only [sparseWf, Bool.and_eq_true, decide_eq_true_eq] at h
    obtain ⟨⟨h0, h1⟩, h2⟩ := h
    by_cases a : f (k', v') = true
    · simp only [List.filter_cons, a, if_true, sparseWf, Bool.and_eq_true, decide_eq_true_eq]
      exact ⟨⟨h0, h1⟩, ih h2⟩
    · simp only [List.filter_cons, a]
      cases o with
      | none => exact ih (sparseWf_none d h2)
      | some l => exact ih (sparseWf_weaken d (by simp at h0; omega) h2)

end Sys2Proof

namespace Sys2Proof.Machine

/-! ### Memory -/

theorem putBytes_wf : ∀ {l : List Byte} {m : List Host.Cell} {a : Nat}, Memory.wf m = true → Memory.wf (putBytes m a l) = true
  | [], _, _, h => h
  | b :: r, m, a, h => putBytes_wf (l := r) (m := sparseSet memDflt a b m) (a := a + 1) (sparseWf_set memDflt a b h)

/-- A byte outside the bytes put is unchanged. -/
theorem putBytes_get_ne : ∀ {l : List Byte} {m : List Host.Cell} {a j : Nat}, (j < a ∨ a + l.length ≤ j) →
    sparseGet memDflt j (putBytes m a l) = sparseGet memDflt j m
  | [], _, _, _, _ => rfl
  | b :: r, m, a, j, h => by
    simp only [List.length_cons] at h
    rw [putBytes, putBytes_get_ne (by omega), sparseGet_set_ne memDflt (by omega)]

/-- A byte put reads back. -/
theorem putBytes_get : ∀ {l : List Byte} {m : List Host.Cell} {a i : Nat}, Memory.wf m = true → (h : i < l.length) →
    sparseGet memDflt (a + i) (putBytes m a l) = l[i]
  | b :: r, m, a, 0, hm, _ => by
    rw [putBytes, putBytes_get_ne (by omega)]; exact sparseGet_set_self memDflt a b hm
  | b :: r, m, a, i + 1, hm, h => by
    have := putBytes_get (l := r) (m := sparseSet memDflt a b m) (a := a + 1) (i := i) (sparseWf_set memDflt a b hm) (by simpa using h)
    rw [putBytes, show a + (i + 1) = a + 1 + i by omega, this]; rfl

/-- The reset memory is canonical. -/
theorem reset_mem_wf : Memory.wf State.reset.mem = true := rfl

theorem State.touch1_frame (s : State) (g : Nat) : ∃ e r i, s.touch1 g = { s with ecc := e, regs := r, inbox := i } := by
  unfold State.touch1
  split
  · exact ⟨_, _, _, rfl⟩
  · exact ⟨_, _, _, rfl⟩
  · split <;> exact ⟨_, _, _, rfl⟩
  · split
    · exact ⟨_, _, _, rfl⟩
    · split <;> exact ⟨_, _, _, rfl⟩
  · split
    · exact ⟨_, _, _, rfl⟩
    · split <;> exact ⟨_, _, _, rfl⟩

/-- What a read does to a granule changes error states, registers and reports, nothing else. -/
theorem State.touch1_eq (s : State) (g : Nat) :
    s.touch1 g = { s with ecc := (s.touch1 g).ecc, regs := (s.touch1 g).regs, inbox := (s.touch1 g).inbox } := by
  obtain ⟨e, r, i, h⟩ := s.touch1_frame g
  rw [h]

theorem State.reg_setReg_ne (s : State) {b b' : Blk} {o o' : Nat} (h : b.at o ≠ b'.at o') (v : W32) : (s.setReg b' o' v).reg b o = s.reg b o := by
  unfold State.reg State.rd State.setReg State.wr
  exact sparseGet_set_ne regReset h v s.regs

theorem cellBase_mod (c : Nat) : cellBase c % 0x1000000 = 0 := by unfold cellBase dieBase; omega

/-- The registers of a cell that an error changes are not its pair control. -/
theorem pairCtl_at_ne (c c' : Fin 64) {o : Nat} (h : o < 0x500) : (Blk.cell c).at 0x500 ≠ (Blk.cell c').at o := by
  show cellBase c + 0xC00000 + 0x500 ≠ cellBase c' + 0xC00000 + o
  have := cellBase_mod c
  have := cellBase_mod c'
  omega

theorem State.reg_report (s : State) (r : Report) (b : Blk) (o : Nat) : (s.report r).reg b o = s.reg b o := rfl
theorem State.reg_setEcc (s : State) (g : Nat) (e : Ecc) (b : Blk) (o : Nat) : (s.setEcc g e).reg b o = s.reg b o := rfl

/-- The errors that a read meets leave the pairs of cells as they are. -/
theorem State.reg_touch1 (s : State) (g : Nat) (c : Fin 64) : (s.touch1 g).reg (.cell c) 0x500 = s.reg (.cell c) 0x500 := by
  unfold State.touch1
  split
  · rfl
  · rfl
  · split <;> rfl
  · split
    · rfl
    · split
      · unfold State.count State.setFld; rw [State.reg_setReg_ne _ (pairCtl_at_ne _ _ (by omega)), State.reg_setEcc]
      · rfl
  · split
    · rfl
    · split
      · rw [State.reg_report, State.reg_setReg_ne _ (pairCtl_at_ne _ _ (by omega))]; unfold State.orReg
        rw [State.reg_setReg_ne _ (pairCtl_at_ne _ _ (by omega)), State.reg_setEcc]
      · rfl

theorem State.pairEn_touch1 (s : State) (g : Nat) (c : Fin 64) : (s.touch1 g).pairEn c = s.pairEn c := by
  unfold State.pairEn; rw [State.reg_touch1]

theorem State.home_congr {s t : State} (h : ∀ c, t.pairEn c = s.pairEn c) (a : Nat) : t.home a = s.home a := by
  unfold State.home
  split
  · rw [h]
  · rfl

theorem State.home_touch1 (s : State) (g a : Nat) : (s.touch1 g).home a = s.home a := State.home_congr (s.pairEn_touch1 g) a

/-- What a write does to one granule changes error states, registers and reports, nothing else. -/
theorem State.writeGranule_eq (s : State) (full mark : Bool) (g : Nat) : s.writeGranule full mark g =
    { s with ecc := (s.writeGranule full mark g).ecc, regs := (s.writeGranule full mark g).regs, inbox := (s.writeGranule full mark g).inbox } := by
  unfold State.writeGranule
  split
  · rfl
  · obtain ⟨e, r, i, h⟩ := s.touch1_frame g
    rw [h]; rfl

theorem State.home_writeGranule (s : State) (full mark : Bool) (g a : Nat) : (s.writeGranule full mark g).home a = s.home a := by
  unfold State.writeGranule
  split
  · rfl
  · exact State.home_touch1 s g a

theorem foldl_writeGranule_eq (full : Nat → Bool) (mark : Bool) : ∀ (l : List Nat) (s : State),
    l.foldl (fun s g => s.writeGranule (full g) mark g) s =
      { s with ecc := (l.foldl (fun s g => s.writeGranule (full g) mark g) s).ecc, regs := (l.foldl (fun s g => s.writeGranule (full g) mark g) s).regs,
               inbox := (l.foldl (fun s g => s.writeGranule (full g) mark g) s).inbox }
  | [], _ => rfl
  | g :: r, s => by
    rw [List.foldl_cons, foldl_writeGranule_eq full mark r (s.writeGranule (full g) mark g), State.writeGranule_eq s (full g) mark g]

theorem home_foldl_writeGranule (full : Nat → Bool) (mark : Bool) (a : Nat) : ∀ (l : List Nat) (s : State),
    (l.foldl (fun s g => s.writeGranule (full g) mark g) s).home a = s.home a
  | [], _ => rfl
  | g :: r, s => (home_foldl_writeGranule full mark a r (s.writeGranule (full g) mark g)).trans (State.home_writeGranule s (full g) mark g a)

/-- A write changes memory, the stores it overtakes, and what its granules meet: error states, registers and reports; nothing else. -/
theorem State.write_eq (s : State) (pa : Nat) (l : List Byte) (mark : Bool) : s.write pa l mark =
    { s with mem := putBytes s.mem (s.home pa) l, stores := overtake (fun _ => true) (s.home pa) l.length s.stores,
             ecc := (s.write pa l mark).ecc, regs := (s.write pa l mark).regs, inbox := (s.write pa l mark).inbox } := by
  have h := foldl_writeGranule_eq (fun g => decide (pa ≤ g ∧ g + granuleLen g ≤ pa + l.length)) mark (granules pa l.length)
    { s with mem := putBytes s.mem (s.home pa) l, stores := overtake (fun _ => true) (s.home pa) l.length s.stores }
  unfold State.write
  exact h

@[simp] theorem State.write_mem (s : State) (pa : Nat) (l : List Byte) (mark : Bool) : (s.write pa l mark).mem = putBytes s.mem (s.home pa) l := by
  rw [State.write_eq]

/-- A write keeps memory canonical. -/
theorem State.write_wf (s : State) (pa : Nat) (l : List Byte) (mark : Bool) (h : Memory.wf s.mem = true) : Memory.wf (s.write pa l mark).mem = true := by
  rw [State.write_mem]; exact putBytes_wf h

@[simp] theorem State.home_write (s : State) (pa : Nat) (l : List Byte) (mark : Bool) (a : Nat) : (s.write pa l mark).home a = s.home a := by
  unfold State.write; exact (home_foldl_writeGranule _ _ a _ _).trans rfl

/-- A byte that is kept outside the bytes written is unchanged. -/
theorem State.byte_write_ne (s : State) (pa : Nat) (l : List Byte) (mark : Bool) (a : Nat) (h : s.home a < s.home pa ∨ s.home pa + l.length ≤ s.home a) :
    (s.write pa l mark).byte a = s.byte a := by
  unfold State.byte
  rw [State.home_write, State.write_mem, putBytes_get_ne h]

/-- A byte written reads back. -/
theorem State.byte_write (s : State) (pa : Nat) (l : List Byte) (mark : Bool) (i : Nat) (hm : Memory.wf s.mem = true) (h : i < l.length)
    (hh : s.home (pa + i) = s.home pa + i) : (s.write pa l mark).byte (pa + i) = l[i] := by
  unfold State.byte
  rw [State.home_write, State.write_mem, hh, putBytes_get hm h]

/-- What a read does to its granules leaves memory alone. -/
@[simp] theorem State.touch1_mem (s : State) (g : Nat) : (s.touch1 g).mem = s.mem := by rw [State.touch1_eq]

theorem foldl_touch1_mem : ∀ (l : List Nat) (s : State), (l.foldl State.touch1 s).mem = s.mem
  | [], _ => rfl
  | g :: r, s => (foldl_touch1_mem r (s.touch1 g)).trans (State.touch1_mem s g)

@[simp] theorem State.touch_mem (s : State) (pa n : Nat) : (s.touch pa n).mem = s.mem := foldl_touch1_mem _ _

/-- Registers: a stored register reads back, and every other register is unchanged. -/
theorem State.rd_wr_self (s : State) (pa : Nat) (v : W32) (h : sparseWf regReset none s.regs = true) : (s.wr pa v).rd pa = v :=
  sparseGet_set_self regReset pa v h
theorem State.rd_wr_ne (s : State) {pa pb : Nat} (v : W32) (h : pb ≠ pa) : (s.wr pa v).rd pb = s.rd pb :=
  sparseGet_set_ne regReset h v s.regs
theorem State.wr_wf (s : State) (pa : Nat) (v : W32) (h : sparseWf regReset none s.regs = true) : sparseWf regReset none (s.wr pa v).regs = true :=
  sparseWf_set regReset pa v h

/-- A register read after its own write needs no canonical form where the value written is not its reset value. -/
theorem State.rd_wr_self' (s : State) (pa : Nat) (v : W32) (h : v ≠ regReset pa) : (s.wr pa v).rd pa = v := by
  unfold State.rd State.wr sparseSet
  rw [if_neg h]
  exact sparseGet_put_self regReset pa v s.regs

end Sys2Proof.Machine
end

