-- ==== Sys2Proof/Tests/Slice0.lean ====
section
/-! SUPPORT. Tests of the model: what a command gives, from the spec's tables, examples and encodings; and for every statement states and operands
that meet its hypotheses. -/

namespace Sys2Proof.Tests

set_option Elab.async false

open Sys2Proof.Machine

/-! ### Small states -/

abbrev c0 : CellId := ⟨0, 0⟩
abbrev q0 : Engine := .seq c0
abbrev x0 : SlvId := ⟨c0, 0⟩
abbrev h0 : Engine := .host 0

/-- Sliver core 0 of cell 0 runs; the sequencer of a cell may issue from reset, when it is stepped. -/
def vs : State := State.reset.modSlv x0 (fun k => { k with run := .running })
/-- Registers of sequencer 0, of sliver core 0 and of host core 0. -/
def withS (s : State) (r : Reg) (v : W32) : State := s.modSeq c0 (fun q => { q with s := q.s.set r v })
def withX (s : State) (r : Reg) (v : W32) : State := s.modSlv x0 (fun k => { k with s := k.s.set r v })
def withH (s : State) (r : Reg) (v : W64) : State := s.modHost 0 (fun k => { k with h := k.h.set r v })
/-- Vector registers of sliver core 0. -/
def withV (s : State) (r : Reg) (v : W256) : State := s.modSlv x0 (fun k => { k with v := k.v.set r v })
/-- A bit of BOOT_FUNC_READY and other registers, set as hardware sets them. -/
def withReg (s : State) (b : Blk) (o : Nat) (v : W32) : State := s.setReg b o v
/-- Both islands run their firmware. -/
def upSt : State := { State.reset with isl := State.reset.isl.map (fun (k : Island) => { k with up := true }) }
/-- What a command gives; the state itself where it does not complete. -/
def run (i : Instr) (s : State) : State := match exec i s with | .next t => t | _ => s
/-- A register of the sequencer after the cycle in which an instruction issues, for a latency of 1, and two cycles later, for a latency of 3. -/
def qreg (i : Instr) (s : State) (r : Reg) : W32 := (run i s).xw q0 r
def qreg3 (i : Instr) (s : State) (r : Reg) : W32 := ((run i s).tick c0 2).xw q0 r

/-! ### Ill-formed commands, one for each check -/

theorem test_wf_w : Instr.wellFormed (.add q0 true 1 2 3) = false ∧ Instr.wellFormed (.maxu q0 true 1 2 3) = false ∧ Instr.wellFormed (.add h0 true 1 2 3) = true := by decide
theorem test_wf_w_arith : (∀ i ∈ ([.sub q0 true 1 2 3, .mul q0 true 1 2 3, .mulh q0 true 1 2 3, .mulhu q0 true 1 2 3, .and q0 true 1 2 3, .or q0 true 1 2 3,
    .xor q0 true 1 2 3, .andn q0 true 1 2 3, .sll q0 true 1 2 3, .srl q0 true 1 2 3, .sra q0 true 1 2 3] : List Instr), i.wellFormed = false) := by decide
theorem test_wf_w_compare : (∀ i ∈ ([.slt q0 true 1 2 3, .sltu q0 true 1 2 3, .seq q0 true 1 2 3, .sne q0 true 1 2 3, .min q0 true 1 2 3, .max q0 true 1 2 3,
    .minu q0 true 1 2 3] : List Instr), i.wellFormed = false) := by decide
theorem test_wf_core_only : (∀ i ∈ ([.div q0 false 1 2 3, .divu q0 false 1 2 3, .rem q0 false 1 2 3, .remu q0 false 1 2 3, .clz q0 false 1 2, .ctz q0 false 1 2, .popc q0 false 1 2,
    .scalarLoad q0 1 2 2 false 0, .scalarStore q0 1 2 2 0] : List Instr), i.wellFormed = false) := by decide
theorem test_wf_shift : (∀ i ∈ ([.slli (.slv x0) false true 1 2 3, .srli h0 true true 1 2 3, .srai q0 false true 1 2 3] : List Instr), i.wellFormed = false) := by decide
theorem test_wf_lanes : (∀ i ∈ ([.vmac x0 .i8 0 1 2 3, .vadds x0 .f32 0 1 2 3, .vsubs x0 .f16 0 1 2 3, .vsll x0 .bf16 0 1 2 3, .vsrl x0 .f32 0 1 2 3, .vsra x0 .f32 0 1 2 3,
    .vcmpLtu x0 .f32 0 1 2 3, .vcmpLeu x0 .bf16 0 1 2 3] : List Instr), i.wellFormed = false) := by decide
theorem test_wf_fence : Instr.wellFormed (.fence q0 1 .cell 0 false) = false := by decide
theorem test_wf_frames : (∀ i ∈ ([.acoTick [], .ethRxFrame 0 [] false, .pcieDeviceRequest 0 0 0 none, .pcieDeviceRequest 0 0 4 (some []), .clockWindow .sia [], .adcSample .sia []] : List Instr),
    i.wellFormed = false) := by decide
theorem test_wf_hatch : (∀ i ∈ ([.hatchResp [] .hd [] [], .peek [] .hd 0 0, .peek [] .hd 0 65, .poke [] (2 ^ 64) 0, .dumpInfo [] .sia 2, .dumpRead [] .sia 0 0 0, .dumpClear [] 2, .programKey [] .hd 0 [],
    .programDebugKey [] .hd 0 [], .loadImageData [] 0 [], .imuSampleReady 0 []] : List Instr), i.wellFormed = false) := by decide
theorem test_wf_can : Instr.wellFormed (.canRxFrame 0 0 false 0 (List.replicate 2049 0)) = false := by decide +kernel

/-! ### States that meet the hypotheses of each statement: instructions of the engines -/

/-- A sliver core in broadcast mode with one word queued. -/
def bs (w : W32) : State := vs.modSlv x0 (fun k => { k with bcast := true, bq := [w] })

theorem test_wit_ScalarRegisterForms : wOk q0 false = true ∧ CanIssue State.reset q0 false [31, 31, 31] ∧ wOk h0 true = true ∧
    CanIssue State.reset h0 false [0, 31, 31] ∧ CanIssue vs (.slv x0) false [31, 0, 31] := by unfold CanIssue; decide
theorem test_wit_ScalarImmediateForms : hiOk h0 false true = true ∧ hiOk q0 false false = true ∧ CanIssue State.reset q0 true [31] ∧
    CanIssue State.reset h0 false [31, 31] ∧ CanIssue State.reset h0 false [31] ∧ CanIssue State.reset h0 true [31] := by unfold CanIssue; decide
theorem test_wit_DivisionAndCounts : isSeq (.slv x0) = false ∧ CanIssue vs (.slv x0) false [31, 31, 31] ∧ CanIssue vs (.slv x0) false [31, 31] ∧
    isSeq q0 = true ∧ CanIssue State.reset q0 false [31, 31, 31] := by unfold CanIssue; decide
theorem test_wit_AddressRegisters : CanIssue State.reset q0 false [15] ∧ CanIssue State.reset q0 false [16] ∧ CanIssue State.reset q0 false [31] := by
  unfold CanIssue; decide
theorem test_wit_VectorIntegerLanes : LaneFmt.i32.isInt = true ∧ CanIssue vs (.slv x0) false [] := by unfold CanIssue; decide
theorem test_wit_VectorFloatLanes : LaneFmt.f32.isInt = false ∧ LaneFmt.i8.isInt = true ∧ CanIssue vs (.slv x0) false [] := by unfold CanIssue; decide
theorem test_wit_VectorDotProducts : CanIssue vs (.slv x0) false [] := by unfold CanIssue; decide
theorem test_wit_VectorConvertWindowSample : (laneOfCode 0 = some .i8 ∧ laneOfCode 8 = some .i32 ∧ 3 * LaneFmt.i8.bytes < LaneFmt.i32.bytes ∧ LaneFmt.i8.bytes ≤ LaneFmt.i32.bytes) ∧
    (3 * LaneFmt.i8.bytes < LaneFmt.f32.bytes ∧ LaneFmt.i8.bytes < LaneFmt.f32.bytes ∧ laneOfCode 6 = some .f32) ∧
    (laneOfCode 7 = some .i16 ∧ LaneFmt.i16.bytes ≤ 2 * LaneFmt.i8.bytes ∧ LaneFmt.i8.bytes ≤ 2 * LaneFmt.i16.bytes) ∧ CanIssue vs (.slv x0) false [] := by
  unfold CanIssue; decide
theorem test_wit_VectorConvertWindowSample_registers : (∃ (n1 : Fin 16) (a b d : Reg), n1.val < 8 ∧ a.val + n1.val < 32 ∧ b.val + n1.val < 32 ∧ d.val + 3 < 32 ∧ n1 = 7 ∧ d = 28) ∧
    (∃ s : State, CanIssue s (.slv x0) false [] ∧ (f32 (lane 32 (s.vr x0 1) 0)).isNan = true) :=
  ⟨⟨7, 24, 24, 28, by decide⟩, ⟨withV vs 1 (BitVec.ofNat 256 0x7FC00000), by unfold CanIssue; decide⟩⟩
theorem test_wit_ComparesAndPredicates : CanIssue vs (.slv x0) false [] ∧ (7 : Reg).val < 8 ∧ 8 ≤ (8 : Reg).val ∧ LaneFmt.i16.isInt = true ∧ LaneFmt.f16.isInt = false := by
  unfold CanIssue; decide
/-- The last line of the local store, and the first offset past it. -/
theorem test_wit_VectorLoadStore : (∃ s : State, CanIssue s (.slv x0) false [] ∧ Memory.wf s.mem = true ∧ s.pairOn c0 = false ∧
      ((s.sv x0 1).toNat + ((0 : BitVec 13).signExtend 32).toNat * 32) % 2 ^ 32 = 0x5FFFE0 ∧ ∀ g ∈ granules (lsBase c0 + 0x5FFFE0) 32, s.eccAt g = .clean) ∧
    (∃ s : State, CanIssue s (.slv x0) false [] ∧ ((s.sv x0 1).toNat + ((1 : BitVec 13).signExtend 32).toNat * 32) % 2 ^ 32 = 0x600000 ∧ 0x600000 < 0x600000 + 32) :=
  ⟨⟨withX vs 1 0x5FFFE0, by unfold CanIssue; decide⟩, ⟨withX vs 1 0x5FFFE0, by unfold CanIssue; decide⟩⟩
theorem test_wit_BroadcastMode : CanReplay (bs (wordOf (.bleave x0))) x0 (wordOf (.bleave x0)) [] ∧ CanReplay (bs (wordOf (.vand x0 0 1 2 3))) x0 (wordOf (.vand x0 0 1 2 3)) [] ∧
    ((bs 0).slvAt x0).bcast = true ∧ ((bs 0).slvAt x0).bq.head? ≠ some (wordOf (.vadd x0 .i8 0 1 2 3)) ∧
    ((State.reset.modCell c0 (fun k => { k with bcastOut := [0] })).cell c0).bcastOut = [0] := by unfold CanReplay; decide
theorem test_wit_LocalStoreAccess : (∃ s : State, CanIssue s q0 false [3, 1, 2] ∧ s.pairOn c0 = false ∧ Memory.wf s.mem = true ∧
      ((s.xw q0 1).toNat + (s.xw q0 2).toNat) % 2 ^ 32 = 0x5FFFFC ∧ ∀ g ∈ granules (lsBase c0 + 0x5FFFFC) 4, s.eccAt g = .clean) ∧
    (∃ s : State, CanIssue s q0 false [3, 1, 2] ∧ ((s.xw q0 1).toNat + (s.xw q0 2).toNat) % 2 ^ 32 = 0x600000) ∧
    (∃ s : State, CanIssue s (.slv x0) false [3, 1] ∧ s.pairOn c0 = false ∧ ((s.xw (.slv x0) 1).toNat + ((0xFFE : BitVec 13).signExtend 32).toNat) % 2 ^ 32 = 0x5FFFFE ∧
      ∀ g ∈ granules (lsBase c0 + 0x5FFFFE) 2, s.eccAt g = .clean) :=
  ⟨⟨withS (withS State.reset 1 0x5FFFF0) 2 12, by unfold CanIssue; decide⟩, ⟨withS (withS State.reset 1 0x5FFFF0) 2 16, by unfold CanIssue; decide⟩,
   ⟨withX vs 1 0x5FF000, by unfold CanIssue; decide⟩⟩
/-- Grid samples at (0, 0), at a coordinate that is far, and the ranges that the sliding windows and the samples may take. -/
theorem test_wit_VectorConvertWindowSample_more : (∃ (n1 : Fin 16) (a b d : Reg), n1.val < 8 ∧ a.val + n1.val < 32 ∧ b.val + n1.val < 32 ∧ d.val + 1 < 32 ∧ n1 = 7 ∧ d = 30) ∧
    8 ≤ (8 : Fin 16).val ∧ 31 < (25 : Reg).val + (7 : Fin 16).val ∧ 30 < (31 : Reg).val ∧ 28 < (29 : Reg).val ∧ (29 : Reg).val ≤ 29 ∧ (30 : Reg).val ≤ 30 ∧ 29 < (30 : Reg).val ∧
    (f32 0).floor = some 0 ∧ (f32 0x4B800000#32).floor = some 16777216 ∧ (f32 0).isNan = false ∧ (f32 0x7FC00000#32).isNan = true ∧ CanIssue (withX vs 2 0x00010001) (.slv x0) false [] ∧
    (withX vs 2 0x00010001).pairOn c0 = false ∧ bits ((withX vs 2 0x00010001).sv x0 2) 15 0 = 1 ∧ bits ((withX vs 2 0x00010001).sv x0 2) 31 16 = 1 ∧
    (∀ c, c < 16 → (0 + 2 * c) % 2 = 0 ∧ 0 + 2 * c + 2 ≤ 0x600000 ∧ ∀ g ∈ granules (lsBase c0 + (0 + 2 * c)) 2, (withX vs 2 0x00010001).eccAt g = .clean) :=
  ⟨⟨7, 0, 0, 30, by decide⟩, by unfold CanIssue; decide +kernel⟩

/-! ### States that meet the hypotheses of each statement: host cores, control, the matrix unit -/

/-- A register of a system bank of host core 0, and its level. -/
def hm (l : Level) (sup mon : Vector W64 7) : State := State.reset.modHost 0 (fun k => { k with level := l, sup := sup, mon := mon })
/-- The vectors of no system register set, and of one. -/
abbrev z7 : Vector W64 7 := Vector.replicate 7 0

/-- What a host access of memory needs of its address, and of the port that it takes. -/
def reachable (s : State) (pa n : Nat) : Prop := placeOf pa = .mem ∧ rangeOk false true pa n = true ∧ placeOf (pa + n - 1) ≠ .hole ∧ s.hostCut pa = false ∧
  s.home pa = pa ∧ s.portHeld 4 0 = false ∧ ∀ g ∈ granules pa n, (s.hostCharge pa n).eccAt g = .clean
/-- The modules that join CD0 with the hub are in service, and host core 0 holds a number. -/
def near (n : W64) : State := withH ((State.reset.setReg (.d2d 4) 0x104 2).setReg (.d2d 0) 0x124 2) 1 n
/-- A playback port, and the last doubleword of the local store of cell 0. -/
theorem test_wit_HostMemoryAccess : (∀ pa : Nat, pa = 0xF401890000 ∨ pa = 0xF0005FFFF8 → ∃ s : State, hostReady s 0 ∧ (s.hosts[(0 : Fin 8)]).level = .monitor ∧ Memory.wf s.mem = true ∧
      (s.x h0 1 + (0 : BitVec 13).signExtend 64).toNat = pa ∧ reachable s pa 8 ∧ rangeOk false false pa 8 = true ∧ s.crates = [] ∧
      reachable (s.performAll (fun k => k.who == .eng h0)) pa 8 ∧ pa % 8 = 0) ∧
    (∃ s : State, hostReady s 0 ∧ (s.hosts[(0 : Fin 8)]).level = .monitor ∧ (s.x h0 1 + (0 : BitVec 13).signExtend 64).toNat % 8 ≠ 0 ∧ (s.x h0 1).toNat % 4 ≠ 0) := by
  refine ⟨?_, ⟨withH State.reset 1 0xF401890001, by unfold hostReady; decide⟩⟩
  rintro pa (rfl | rfl)
  · exact ⟨near 0xF401890000, by unfold hostReady reachable; decide⟩
  · exact ⟨near 0xF0005FFFF8, by unfold hostReady reachable; decide⟩
/-- Where a die's DRAM is fitted, the DRAM of CD0. -/
theorem test_wit_HostMemoryAccess_dram (h : 0x4000 ≤ cdUsable) : ∃ s : State, hostReady s 0 ∧ (s.hosts[(0 : Fin 8)]).level = .monitor ∧ Memory.wf s.mem = true ∧
    (s.x h0 1 + (0 : BitVec 13).signExtend 64).toNat = 0x3FF8 ∧ reachable s 0x3FF8 8 ∧ rangeOk false false 0x3FF8 8 = true := by
  have k : ∀ n, n < 0x4000 → dramOk n = true := fun n hn => by
    have h1 : dramWin n = some 0 := by unfold dramWin; rw [dif_pos (by omega)]; congr 1; exact Fin.ext (by show n / 0x1000000000 = 0; omega)
    unfold dramOk; rw [h1]; simp; omega
  have r : ∀ w : Bool, rangeOk false w 0x3FF8 8 = true := fun w => by
    have h1 := k 0x3FF8 (by omega)
    have h2 := k 0x3FFF (by omega)
    unfold rangeOk; simp [h1, h2]; left; rfl
  have p : ∀ n, n < 0x4000 → placeOf n = .mem := fun n hn => by unfold placeOf; rw [if_pos (by omega), if_pos (k n hn)]
  have c : (near 0x3FF8).hostCut 0x3FF8 = false := by
    unfold State.hostCut State.hostCode
    rw [p 0x3FF8 (by omega)]
    rw [show periDom 0x3FF8 = none by unfold periDom; rw [p _ (by omega)]; rfl]
    decide
  refine ⟨near 0x3FF8, by unfold hostReady; decide, by decide, by decide, by decide, ⟨p _ (by omega), r true, ?_, c, by decide, by decide, by decide⟩, r false⟩
  rw [p _ (by omega)]; decide
theorem test_wit_HostTraps : hostReady State.reset 0 ∧ (State.reset.hosts[(0 : Fin 8)]).hold = .none ∧ ((hm .user z7 z7).hosts[(0 : Fin 8)]).level = .user ∧
    ((hm .supervisor (z7.set 6 1) z7).hosts[(0 : Fin 8)]).level = .supervisor ∧ (((hm .supervisor (z7.set 6 1) z7).hosts[(0 : Fin 8)]).sup[6]).getLsbD 0 = true ∧
    ((State.reset.modHost 0 (fun k => { k with mon := z7.set 6 1 })).hosts[(0 : Fin 8)].mon[6]).getLsbD 0 = true ∧
    (State.reset.hosts[(0 : Fin 8)]).level = .monitor := by unfold hostReady; decide
theorem test_wit_HostTraps_ret : (hostReady (hm .monitor z7 (z7.set 4 3)) 0 ∧ (3 : Nat) ≤ ((hm .monitor z7 (z7.set 4 3)).hosts[(0 : Fin 8)]).level.code) ∧
    (hostReady (hm .supervisor (z7.set 4 3) z7) 0 ∧ ((hm .supervisor (z7.set 4 3) z7).hosts[(0 : Fin 8)]).level.code < 3) ∧ hostReady (hm .user z7 z7) 0 ∧
    hostReady (hm .monitor z7 (z7.set 4 2)) 0 := by unfold hostReady; decide +kernel
/-- Any register number, at any level: the first and the last of each bank, and those beside them. -/
theorem test_wit_SystemRegisters (l : Level) (n : W64) : hostReady (withH (hm l z7 z7) 1 n) 0 ∧ (withH (hm l z7 z7) 1 n).x h0 1 = n ∧
    ((withH (hm l z7 z7) 1 n).hosts[(0 : Fin 8)]).level = l := ⟨⟨rfl, rfl, rfl, rfl⟩, rfl, rfl⟩
theorem test_wit_ControlFlow : CanIssue State.reset q0 false [31, 31] ∧ CanIssue State.reset q0 false [31] ∧ CanIssue State.reset q0 false [] ∧
    CanIssue (hm .user z7 z7) h0 false [31, 31] ∧ CanIssue (hm .user z7 z7) h0 false [31] ∧ CanIssue (hm .user z7 z7) h0 false [] ∧ isHost h0 = true ∧
    (hm .user z7 z7).level h0 = .user ∧ (hm .supervisor z7 z7).level h0 ≠ .user ∧ isHost q0 = false ∧ State.reset.dbgWrite = false := by unfold CanIssue; decide
/-- A sliver core at the last instruction of its one loop, with a count of 1 and of 2. -/
def ls (n : BitVec 24) : State := vs.modSlv x0 (fun k => { k with loops := [⟨3, 0, 0⟩], c := k.c.set 3 n })
theorem test_wit_HardwareLoops : (∃ s : State, CanIssue s (.slv x0) false [1] ∧ (s.loopState (.slv x0)).1 = [] ∧ (s.x (.slv x0) 1).setWidth 24 = (1 : BitVec 24)) ∧
    (CanIssue vs (.slv x0) false [1] ∧ (vs.x (.slv x0) 1).setWidth 24 = (0 : BitVec 24)) ∧
    (CanIssue (ls 1) (.slv x0) false [] ∧ ((ls 1).slvAt x0).loops = [⟨3, 0, 0⟩] ∧ (0 : BitVec 32).toNat = (ls 1).pc (.slv x0) ∧ (ls 1).atLoopEnd (.slv x0) = true) ∧
    (∃ k ∈ ((ls 2).loopState (.slv x0)).1, k.n = 3) ∧ CanIssue (ls 2) (.slv x0) false [1] ∧
    (vs.modSlv x0 (fun k => { k with loops := List.replicate 4 ⟨0, 0, 0⟩ }) |>.loopState (.slv x0)).1.length = 4 ∧
    (vs.loopState (.slv x0)).1 = [] :=
  ⟨⟨withX vs 1 1, by unfold CanIssue; decide⟩, by unfold CanIssue; decide⟩
/-- A half of the weight array that is loaded, dense INT8, with every weight 1. -/
def ones : Half := ⟨true, none, 0, false, 0, List.replicate 4096 1, [], [], []⟩
def ready0 : State := State.reset.modCell c0 (fun k => { k with halves := k.halves.set 1 ones })
theorem test_wit_WeightLoad : CanIssue State.reset q0 false [0, 1] ∧ State.reset.ecc = [] ∧ weightOk 0 0 = true ∧ (State.reset.xw q0 1).toNat + (halfSizes 0 false 0).1 ≤ 0x600000 ∧
    (State.reset.cell c0).loadFree ≤ (State.reset.cell c0).cycle ∧ (State.reset.cell c0).passes = [] ∧
    ((State.reset.modCell c0 (fun k => { k with passes := [(0, 0)] })).cell c0).passes = [(0, 0)] ∧ CanIssue (State.reset.modCell c0 (fun k => { k with passes := [(0, 0)] })) q0 false [0, 1] ∧
    ((State.reset.modCell c0 (fun k => { k with loading := some 0 })).cell c0).loading = some 0 := by unfold CanIssue; decide
/-- INT8 rows, 64 of them, each 64 bytes after the one before, against half 1 into tile 3. -/
abbrev mmaW : W32 := 0x0002703F
theorem test_wit_MatrixPass : CanIssue ready0 q0 true [0, 1] ∧ ready0.ecc = [] ∧ mmaW.getLsbD 15 = false ∧ bits mmaW 9 6 = 0 ∧ bits mmaW 12 12 = 1 ∧ bits mmaW 14 13 = 3 ∧ bits mmaW 5 0 = 63 ∧
    ((ready0.cell c0).halves[(1 : Fin 2)]).loaded = true ∧ pairOk 0 0 0 = true ∧ mmaW.getLsbD 10 = false ∧ mmaW.getLsbD 11 = false ∧ (ready0.cell c0).loading = none ∧
    (ready0.cell c0).draining = none ∧ (ready0.cell c0).gridFree ≤ (ready0.cell c0).cycle ∧ (ready0.xw q0 1).toNat % 32 = 0 ∧ 63 * bits mmaW 31 16 * 32 + 64 ≤ 0x600000 ∧
    ((ready0.cell c0).halves[(1 : Fin 2)]).undef = none ∧ ((State.reset.cell c0).halves[(1 : Fin 2)]).loaded = false := by unfold CanIssue; decide +kernel
theorem test_wit_MatrixPass_vals : ((ready0.cell c0).halves[(1 : Fin 2)]).vals.length = 4096 := List.length_replicate
/-- FP32, 64 rows of 256 bytes; and BF16 rows with stochastic rounding. -/
theorem test_wit_DrainTileAndRounding : CanIssue State.reset q0 true [0, 1] ∧ State.reset.ecc = [] ∧ Memory.wf State.reset.mem = true ∧ State.reset.pairOn c0 = false ∧
    (State.reset.cell c0).passes = [] ∧ (State.reset.cell c0).drainFree ≤ (State.reset.cell c0).cycle ∧ (State.reset.xw q0 1).toNat % 32 = 0 := by
  unfold CanIssue; decide
theorem test_wit_DrainTileAndRounding_words (w2 : W32) (h : w2 = 0x00083006#32 ∨ w2 = 0x00040024#32) : bits w2 15 14 = 0 ∧ bits w2 9 8 ≠ 3 ∧ bits w2 7 6 ≠ 3 ∧
    bits w2 3 0 ≠ 15 ∧ fmtMx (bits w2 3 0) = false ∧ 8 * fmtBits (bits w2 3 0) ≤ bits w2 31 16 * 32 ∧
    63 * bits w2 31 16 * 32 + 8 * fmtBits (bits w2 3 0) ≤ 0x600000 := by rcases h with rfl | rfl <;> decide
theorem test_wit_DrainTileAndRounding_modes : drainMode (bits 0x00083006#32 5 4) 0 ≠ 2 ∧ drainMode (bits 0x00040024#32 5 4) 0 = 2 := by decide
theorem test_wit_DrainTileAndRounding_values : (f32 0x7FC00000).isNan = true ∧ f32 0x7F800000 = .inf false ∧ f32 0xFF800000 = .inf true := by decide +kernel
theorem test_wit_RoundingSeed : CanIssue State.reset q0 false [31] ∧ (State.reset.cell c0).drainFree ≤ (State.reset.cell c0).cycle := by unfold CanIssue; decide

/-! ### States that meet the hypotheses of each statement: frames, fences, tokens, moves, Shelves -/

theorem test_wit_AdvanceAndDestinationFrames_advance : (∃ h : Fin 8, h0 = .host h) ∧ (∃ x : SlvId, Engine.slv x0 = .slv x ∧ (⟨c0, 1⟩ : SlvId) ≠ x) ∧
    (∃ c : CellId, q0 = .seq c ∧ (⟨3, 15⟩ : CellId) ≠ c) ∧ isHost q0 = false := ⟨⟨0, rfl⟩, ⟨x0, rfl, by decide⟩, ⟨c0, rfl, by decide⟩, rfl⟩
theorem test_wit_AdvanceAndDestinationFrames_destination : (1 : Reg) ≠ 0 ∧ (2 : Reg) ≠ 1 ∧ (∃ h : Fin 8, h0 = .host h ∧ 7 ≠ h) ∧ (∃ x : SlvId, Engine.slv x0 = .slv x ∧ (⟨c0, 63⟩ : SlvId) ≠ x) ∧
    (∃ c : CellId, q0 = .seq c ∧ (⟨3, 15⟩ : CellId) ≠ c) := ⟨by decide, by decide, ⟨0, rfl, by decide⟩, ⟨x0, rfl, by decide⟩, ⟨c0, rfl, by decide⟩⟩

/-- No die's clocks are stopped: every engine is clocked. -/
abbrev ticking (s : State) : Prop := ∀ d : Fin 4, s.clkStopped d = false
theorem ticking_clocked (s : State) (h : ticking s) (e : Engine) (d : Fin 5) : s.clocked e ∧ s.clocked5 d := ⟨fun c _ => h c.die, fun hd => h ⟨d.val, hd⟩⟩
theorem ticking_reset : ticking State.reset ∧ ticking vs ∧ ticking upSt := by decide +kernel
/-- Sequencer 0 held by something. -/
def held (h : Hold) : State := State.reset.setHold q0 h
/-- A move of 32 bytes inside the local store of cell 0. -/
def mv0 : Move :=
  { id := 0, owner := q0, scope := .cell, tok := none, loft := false, count := 1, cons := 1, pieces := [⟨0, lsBase c0, lsBase c0 + 32, 32, 0⟩], rest := none, shelf := none, arrived := 0,
    granted := [], requested := 0, filled := [], overlap := false, pages := [], lost := false, drains := false }
/-- Cell 0 with moves. -/
def moving (l : List Move) : State := State.reset.modCell c0 (fun k => { k with moves := l })
/-- Bytes in the local store of cell 0. -/
def withLs (s : State) (o n v : Nat) : State := s.write (lsBase c0 + o) (toLe n v)

theorem test_wit_FencesAndStatus : CanIssue State.reset q0 false [31] ∧ CanIssue State.reset q0 false [0] ∧ CanIssue State.reset h0 false [31] ∧ CanIssue State.reset h0 false [0] ∧
    (held (.fence .cell 0 none)).hold q0 = .fence .cell 0 none ∧ (held (.fence .cell 0 none)).movesDone q0 .cell = true ∧
    (let s := (moving [mv0]).setHold q0 (.fence .cell 1 none); s.hold q0 = .fence .cell 1 none ∧ s.movesDone q0 .cell = false) ∧
    (held (.loftInv 3)).hold q0 = .loftInv 3 ∧ ((held (.loftInv 3)).lofts[(0 : Fin 4)]).scans = [] ∧
    (let s : State := { State.reset with lofts := State.reset.lofts.set 2 { State.reset.lofts[(2 : Fin 4)] with scans := [(0, 1)] } }
     (s.lofts[(2 : Fin 4)]).scans = [(0, 1)]) := by unfold CanIssue; decide
/-- A queue of cell 0 with entries and with puts that wait, and CELL_TQ_WAIT set. -/
def queued (n : Nat) (w : List Put) : State := (State.reset.setQueueAt 511 ⟨List.replicate n 7, w, none, none⟩).setReg (cellBlk c0) 0x1C 1
theorem test_wit_TokenQueues : CanIssue State.reset q0 false [31] ∧
    (let s := held (.put 511 .cell 5); s.hold q0 = .put 511 .cell 5 ∧ s.movesDone q0 .cell = true ∧ (s.queueCell 511).die.val = (engDie q0).val ∧
      (∀ c, engCell q0 = some c → (s.cell c).pairStopped = false)) ∧
    (let s := (held (.put 511 .cell 5)).modCell c0 (fun k => { k with pairStopped := true })
     s.hold q0 = .put 511 .cell 5 ∧ s.movesDone q0 .cell = true ∧ engCell q0 = some c0 ∧ (s.cell c0).pairStopped = true) ∧
    (∀ k ∈ ([⟨.eng q0, 1, 4⟩] : List Put), k.at_ ≠ 5) ∧ Putter.rank c0 (.eng q0) < Putter.rank c0 (.eng (.slv x0)) ∧
    ownQueue c0 511 = true ∧ ownQueue c0 512 = false ∧ State.reset.hoQueue 0 ≠ some 511 ∧ ((queued 1 []).queueAt 511).entries = [7] ∧ CanIssue (queued 1 []) q0 false [31] ∧
    ((queued 1 []).queueAt 511).lastGet ≠ some ((queued 1 []).queueNow 511) ∧ ((queued 1 []).queueAt 511).lastPut ≠ some ((queued 1 []).queueNow 511) ∧
    (State.reset.queueAt 511).entries = [] ∧
    (let s := (queued 15 [⟨.eng q0, 1, 0⟩]).modCell c0 (fun k => { k with cycle := 1 })
     (s.queueAt 511).waiting = [⟨.eng q0, 1, 0⟩] ∧ 0 < s.queueNow 511 ∧ (s.queueAt 511).lastPut ≠ some (s.queueNow 511) ∧ (s.queueAt 511).entries.length < 16) ∧
    (let s := queued 16 [⟨.eng q0, 1, 0⟩]; (s.queueAt 511).waiting = [⟨.eng q0, 1, 0⟩] ∧ (s.queueAt 511).entries.length = 16 ∧
      s.fld (cellBlk (s.queueCell 511)) 0x1C 15 0 ≠ 0) ∧
    (let s := (queued 1 []).setHold q0 (.get 511 3 .cell); s.hold q0 = .get 511 3 .cell ∧ (s.queueAt (queueNum c0 511)).entries = [7] ∧
      (s.queueAt (queueNum c0 511)).lastGet ≠ some (s.queueNow (queueNum c0 511)) ∧ (s.queueAt (queueNum c0 511)).lastPut ≠ some (s.queueNow (queueNum c0 511))) ∧
    (let s := (queued 0 []).setHold q0 (.get 511 3 .cell); s.hold q0 = .get 511 3 .cell ∧ (s.queueAt (queueNum c0 511)).entries = [] ∧ s.fld (cellBlk c0) 0x1C 15 0 ≠ 0) ∧
    (State.reset.setReg (cellBlk c0) 0x1C 0).fld (cellBlk c0) 0x1C 15 0 = 0 ∧ State.reset.queueCell 511 = c0 := by unfold CanIssue; decide
/-- A descriptor of one line of 32 bytes from offset 0x1000 to the last 32 bytes of the local store. -/
def mvDesc : Nat := 0x1000 + 0x5FFFE0 * 2 ^ 64 + 32 * 2 ^ 128 + 1 * 2 ^ 160
theorem test_wit_MoveInLocalStore_issue : (let s := withLs State.reset 0 32 mvDesc
    CanIssue s q0 true [0] ∧ s.ecc = [] ∧ (s.cell c0).moves.length < 32 ∧ (s.xw q0 0).toNat = 0 ∧ s.num (lsBase c0) 32 = mvDesc) ∧
    descClean mvDesc = true ∧ (descOf mvDesc).srcSp = 0 ∧ (descOf mvDesc).dstSp = 0 ∧ (descOf mvDesc).len = 32 ∧ (descOf mvDesc).count = 1 ∧ (descOf mvDesc).cons = 0 ∧
    (descOf mvDesc).src + 32 ≤ 0x600000 ∧ (descOf mvDesc).dst + 32 = 0x600000 := by unfold CanIssue; decide +kernel
theorem test_wit_MoveInLocalStore_complete : (let s := moving [mv0]
    s.moveAt c0 0 = some mv0 ∧ s.moveBusy c0 0 0 0 = false ∧ mv0.rest = none ∧ s.portOwes (Fin.ofNat 5 c0.die) c0.idx = false ∧ mv0.shelf = none ∧ mv0.tok = none ∧
    mv0.overlap = false ∧ mv0.pieces = [⟨0, lsBase c0, lsBase c0 + 32, 32, 0⟩] ∧ s.ecc = [] ∧ Memory.wf s.mem = true ∧ s.pairOn c0 = false) ∧
    (let s := moving (List.replicate 32 mv0); (s.cell c0).moves.length = 32 ∧ CanIssue s q0 true [0]) := by unfold CanIssue; decide
/-- A move of one line into slot 64 of cell 0, on the second Shelf. -/
def mvS (arrived requested : Nat) : Move :=
  { mv0 with shelf := some (c0, [64]), pieces := [⟨0, lsBase c0, shelfBase c0 1, 32, 0⟩], arrived := arrived, requested := requested }
def slotOf (x : Slot) (l : List Move) : State := ((moving l).setSlot c0 64 x).setReg (cellBlk c0) 0x204 0x00010040
theorem test_wit_ShelfSlots_engine : (let s := slotOf ⟨.ready, 1, 1, [], none, none, none⟩ []
    CanIssue s q0 false [31, 1] ∧ CanIssue s q0 false [1] ∧ 64 % 64 < s.shelfSlots c0 (64 / 64)) ∧
    (withS State.reset 1 64).xw q0 1 = 64 ∧ (withS State.reset 1 0xF40).xw q0 1 = 0xF40 ∧
    (let s := (slotOf ⟨.ready, 1, 1, [], none, none, none⟩ []).setHold q0 (.swait 64 1 3); s.hold q0 = .swait 64 1 3 ∧ (s.slot c0 64).st = .ready ∧ (s.slot c0 64).fills = 1) ∧
    (let s := (slotOf ⟨.filling, 1, 1, [], none, none, none⟩ []).setHold q0 (.swait 64 1 3); s.hold q0 = .swait 64 1 3 ∧ (s.slot c0 64).st ≠ .ready) ∧
    (let s := ((slotOf ⟨.ready, 1, 1, [], none, none, none⟩ []).setHold q0 (.srel 64)).setReg (cellBlk c0) 0x1C 1
     s.hold q0 = .srel 64 ∧ s.movesDone q0 .cell = true ∧ (s.slot c0 64).st = .ready ∧ s.fld (cellBlk c0) 0x1C 15 0 ≠ 0) := by unfold CanIssue; decide
theorem test_wit_ShelfSlots_claims : (let s := slotOf ⟨.free, 0, 0, [], none, none, none⟩ [mvS 0 0]
      s.moveAt c0 0 = some (mvS 0 0) ∧ [(64 : Fin 128)][(mvS 0 0).arrived]? = some 64 ∧ (s.slot c0 64).st = .free ∧ (s.slot c0 64).waiting = []) ∧
    (let s := slotOf ⟨.ready, 0, 0, [], none, none, none⟩ [mvS 0 0]; s.moveAt c0 0 = some (mvS 0 0) ∧ (s.slot c0 64).st ≠ .free) ∧
    (let s := slotOf ⟨.free, 0, 0, [⟨c0, 0, 0, 0⟩], none, none, none⟩ [mvS 1 0]; (s.slot c0 64).waiting = [⟨c0, 0, 0, 0⟩] ∧ (s.slot c0 64).st = .free ∧ s.moveAt c0 0 = some (mvS 1 0)) ∧
    (∀ p ∈ (mvS 1 0).pieces, localPiece c0 p = true ∧ (dieOf p.dst).val = c0.die.val) ∧ (mvS 1 0).rest = none ∧
    (mvS 1 0).arrived = 1 ∧ (mvS 1 0).granted = [] ∧ (mvS 1 0).requested = 0 ∧ (mvS 1 0).filled = [] ∧
    (slotOf ⟨.free, 0, 0, [], none, none, none⟩ [] |>.setReg (cellBlk c0) 0x1C 1).fld (cellBlk c0) 0x1C 15 0 ≠ 0 := by decide
theorem test_wit_ShelfSlots_lines : (let s := slotOf ⟨.filling, 0, 0, [], none, none, none⟩ [mvS 1 1]
     s.moveAt c0 0 = some (mvS 1 1) ∧ s.memCut c0.die = 0 ∧ s.fillable c0 (mvS 1 1) = [0] ∧ (mvS 1 1).line 0 = [⟨0, lsBase c0, shelfBase c0 1, 32, 0⟩] ∧
      (mvS 1 1).overlap = false ∧ s.ecc = [] ∧ Memory.wf s.mem = true ∧ s.pairOn c0 = false ∧ shelfBase c0 0 ≤ shelfBase c0 1 ∧ shelfBase c0 1 + 32 ≤ shelfBase c0 2) ∧
    (let s := slotOf ⟨.filling, 0, 0, [], none, none, none⟩ [mvS 1 0]; s.memCut c0.die = 0 ∧ s.fillable c0 (mvS 1 0) = []) := by decide
/-- A fence that waits for its scan, and one whose scan is done, on clocks that run. -/
theorem test_wit_FencesAndStatus_scans : (let s : State := { (held (.fence .pkg 1 (some 3))) with lofts := State.reset.lofts.set 0 { State.reset.lofts[(0 : Fin 4)] with scans := [(3, 1)] } }
      s.hold q0 = .fence .pkg 1 (some 3) ∧ s.scanDone c0.die 3 = false ∧ s.movesDone q0 .pkg = true) ∧
    (held (.fence .pkg 1 (some 3))).scanDone c0.die 3 = true ∧ ticking (held (.fence .pkg 1 (some 3))) ∧ ticking (held (.loftInv 3)) ∧ (1 : Fin 4).val ≠ 3 ∧
    (let s := State.reset.modSeq c0 (fun q => { q with pendV := [⟨3, none, 0, some (0, 0, 0), false⟩] }); (⟨3, none, 0, some (0, 0, 0), false⟩ : PendV) ∈ (s.cell c0).seq.pendV) := by decide
/-- A queue whose one entry came in this very cycle, and one that gave in this cycle. -/
theorem test_wit_TokenQueues_cycle : (let s := State.reset.setQueueAt 511 ⟨[7], [], some 0, none⟩; (s.queueAt 511).lastPut = some (s.queueNow 511) ∧ (s.queueAt 511).entries = [7]) ∧
    (let s := State.reset.setQueueAt 511 ⟨[7, 8], [], none, some 0⟩; (s.queueAt 511).lastGet = some (s.queueNow 511)) ∧
    ticking (queued 1 []) ∧ ticking (held (.put 511 .cell 5)) ∧ (State.reset.setQueueAt 511 ⟨[7], [], none, none⟩).hoQueue 0 ≠ some 511 ∧ (0x2000#15 : BitVec 15) ≠ 511 ∧
    (State.reset.queueCell 0x2000).die.val ≠ (engDie q0).val ∧ (held (.put 0x2000 .pkg 5)).hold q0 = .put 0x2000 .pkg 5 ∧ (held (.put 0x2000 .pkg 5)).movesDone q0 .pkg = true := by decide
/-- Two lines with strides, into a tracked Shelf with one unit for a slot, and a source at a virtual address. -/
def mvLines : Nat := 0x1000 + 0x5FFFE0 * 2 ^ 64 + 32 * 2 ^ 128 + 2 * 2 ^ 160 + 64 * 2 ^ 192 + (2 ^ 32 - 64) * 2 ^ 224
def mvShelf : Nat := 0x1000 + 2 ^ 112 + (2 ^ 18) * 2 ^ 64 + 32 * 2 ^ 128 + 1 * 2 ^ 160 + 1 * 2 ^ 176 + 256 * 2 ^ 224
def mvVirt : Nat := 0x1000 + 2 * 2 ^ 48 + 0x2000 * 2 ^ 64 + 32 * 2 ^ 128 + 1 * 2 ^ 160
theorem test_wit_MoveInLocalStore_forms : State.reset.descCheck 0 mvDesc = some none ∧ State.reset.descCheck 0 mvLines = some none ∧ State.reset.descCheck 0 mvVirt = some none ∧
    (State.reset.setReg (cellBlk c0) 0x204 0x00010040).descCheck 0 mvShelf = some (some (c0, [64])) ∧ (descOf mvVirt).srcSp = 2 ∧ (descOf mvLines).srcSp ≠ 2 ∧ (descOf mvLines).dstSp ≠ 2 ∧
    (descOf mvShelf).dstSp ≠ 2 ∧ (State.reset.cell c0).moves = [] := by decide
theorem test_wit_MoveInLocalStore_ranges : (∀ i, i < (descOf mvLines).count → 0 ≤ (descOf mvLines).src + i * (descOf mvLines).sstr ∧ (descOf mvLines).src + i * (descOf mvLines).sstr + (descOf mvLines).len ≤ 0x600000 ∧
      0 ≤ (descOf mvLines).dst + i * (descOf mvLines).dstr ∧ (descOf mvLines).dst + i * (descOf mvLines).dstr + (descOf mvLines).len ≤ 0x600000) := by
  have h : (descOf mvLines).count = 2 := by decide
  intro i hi
  rw [h] at hi
  rcases (by omega : i = 0 ∨ i = 1) with rfl | rfl <;> decide
/-- A read crate of move 0 of cell 0. -/
def rdOf0 : Crate :=
  { num := 0, kind := .rd, req := .rd, who := .move c0 0, src := 0, cur := 0, route := [], back := [], pa := 0, len := 32, data := [], mark := false, dest := lsBase c0,
    q := 0, val := 0, scope := .cell, timedOut := false, modl := none, path := [], passed := [] }
theorem test_wit_MoveInLocalStore_ends : (let s := moving [mv0]; ticking s ∧ s.memCut c0.die = 0) ∧ (let m := { mv0 with tok := some (511, 3) }; (moving [m]).moveAt c0 0 = some m ∧ m.lost = false) ∧
    (let s : State := { moving [mv0] with crates := [rdOf0] }; s.moveBusy c0 0 0 0 = true) ∧
    (moving [mv0]).moveAt c0 1 = none ∧ dstOverlap mv0.pieces = false ∧ piecesOverlap mv0.pieces = false := by decide
/-- Claims of one cycle and of another, a slot that was freed in this cycle, and the turn of a release. -/
theorem test_wit_ShelfSlots_cycle : (let s := slotOf ⟨.free, 0, 0, [], none, some 0, none⟩ [mvS 0 0]; (s.slot c0 64).freeAt = some (s.cell c0).cycle ∧ s.moveAt c0 0 = some (mvS 0 0) ∧ ticking s) ∧
    (let s := (slotOf ⟨.ready, 1, 1, [], none, none, none⟩ []).setHold q0 (.srel 64); s.releaseTurn q0 64 = true ∧ s.hold q0 = .srel 64 ∧ s.movesDone q0 .cell = true ∧ ticking s) ∧
    (let s := (slotOf ⟨.ready, 1, 1, [], none, none, some 0⟩ []).setHold q0 (.srel 64); s.releaseTurn q0 64 = false) ∧
    (let s := (slotOf ⟨.filling, 1, 1, [], none, none, none⟩ []).setHold q0 (.srel 64); s.releaseTurn q0 64 = true ∧ (s.slot c0 64).st ≠ .ready) ∧
    (∀ q ∈ ([⟨c0, 0, 0, 4⟩] : List Claim), q.at_ ≠ 5) ∧ (slotOf ⟨.free, 0, 0, [], none, none, none⟩ [mvS 0 0] |>.slot c0 64).freeAt ≠ some 0 := by decide

/-! ### Encodings: the words of R182's example and one word of each family, written out from the encoding tables (R97, R98, R140 to R182) -/

/-- A word: major, d, a, b, function. -/
def wd (maj d a b f : Nat) : W32 := BitVec.ofNat 32 (maj * 2 ^ 26 + d * 2 ^ 21 + a * 2 ^ 16 + b * 2 ^ 11 + f)
/-- An I-form word. -/
def wi (maj d a imm : Nat) : W32 := BitVec.ofNat 32 (maj * 2 ^ 26 + d * 2 ^ 21 + a * 2 ^ 16 + imm)
theorem test_dec_move : decodeWord q0 0xFC08A006 0x00016A11 = .ok (.move q0 0 8 .pkg true false 0x00016A11) := by decide
theorem test_dec_mma : decodeWord q0 0xFC048400 0x0002503F = .ok (.mma c0 0 4 0x0002503F) := by decide
theorem test_dec_scalar : decodeWord q0 (wd 1 1 2 3 0) 0 = .ok (.add q0 false 1 2 3) ∧ decodeWord h0 (wd 1 31 30 29 0x408) 0 = .ok (.remu h0 true 31 30 29) ∧
    decodeWord h0 (wd 3 1 2 31 0x01A) 0 = .ok (.srai h0 false true 1 2 31) := by decide
theorem test_dec_immediate : decodeWord q0 (wi 8 1 2 0x8000) 0 = .ok (.addi q0 1 2 0x8000) ∧ decodeWord q0 (wi 0xB 1 0 0xFFFF) 0 = .ok (.lui q0 1 0xFFFF) ∧
    decodeWord q0 (wd 0x3F 7 0 4 0) 0x89ABCDEF = .ok (.li q0 7 0x89ABCDEF) := by decide
theorem test_dec_address : decodeWord q0 (wd 0xE 15 14 3 1) 0 = .ok (.asub c0 15 14 3) ∧ decodeWord (.slv x0) (wd 0xE 15 14 3 1) 0 = .illegalInstr := by decide
theorem test_dec_vector : decodeWord (.slv x0) (wd 0x12 1 2 3 0x70C) 0 = .ok (.vsra x0 .i32 7 1 2 3) ∧ decodeWord (.slv x0) (wd 0x16 1 2 3 0x105) 0 = .ok (.vdot2F16 x0 1 1 2 3) ∧
    decodeWord (.slv x0) (wd 0x18 1 2 3 4) 0 = .ok (.vsel x0 0 1 2 3) ∧ decodeWord (.slv x0) (wd 0x19 1 2 7 0x08) 0 = .ok (.vextw x0 1 2 7) := by decide
theorem test_dec_predicate : decodeWord (.slv x0) (wd 0x1A 7 6 5 0xF3) 0 = .ok (.pandn x0 7 6 5) ∧ decodeWord (.slv x0) (wd 0x1B 1 2 0 1) 0 = .ok (.vrecipF32 x0 0 1 2) ∧
    decodeWord (.slv x0) (wd 0x1B 0 0 0 0x10) 0 = .ok (.bleave x0) := by decide
theorem test_dec_vectorMemory : decodeWord (.slv x0) (wi 0x1F 1 2 0xFFFF) 0 = .ok (.vectorStore x0 7 1 2 0x1FFF) ∧ decodeWord (.slv x0) (wi 0x1E 1 2 0x2001) 0 = .ok (.vectorLoad x0 1 1 2 1) := by decide
theorem test_dec_wload : decodeWord q0 (wd 0x20 3 4 0 0x0B9) 0 = .ok (.wload c0 3 4 2 1 true 9) := by decide
theorem test_dec_localStore : decodeWord q0 (wd 0x29 1 2 3 1) 0 = .ok (.sts q0 1 2 3) ∧ decodeWord q0 (wd 0x29 0 2 3 3) 0 = .ok (.cwr q0 2 3) := by decide
theorem test_dec_fence : decodeWord q0 (wd 0x38 0 31 0 0xD8) 0 = .ok (.fence q0 31 .sys 2 true) ∧ decodeWord q0 (wd 0x38 0 1 0 0x58) 0 = .illegalInstr := by decide
theorem test_dec_tokens : decodeWord q0 (wi 0x3A 2 5 0x6A11) 0 = .ok (.tput q0 5 .pkg 0x6A11) ∧ decodeWord q0 (wi 0x3B 9 3 0x1FF) 0 = .ok (.tget q0 9 .sys 0x1FF) := by decide
theorem test_dec_control : decodeWord q0 0xF0000000 0 = .ok (.nop q0) ∧ decodeWord q0 0xF0000800 0 = .illegalInstr ∧ decodeWord q0 (wi 0x3D 6 3 0xFFFF) 0 = .ok (.bcnz c0 3 0xFFFF) ∧
    decodeWord q0 (wi 0x3E 3 4 5) 0 = .ok (.loop q0 3 4 5) ∧ decodeWord h0 (wd 0x3C 1 2 0 0x10) 0 = .ok (.srd 0 1 2) ∧ decodeWord q0 (wi 0x3D 7 0 0) 0 = .illegalInstr := by decide
theorem test_dec_units : decodeWord q0 (wd 0x2A 1 2 0 0) 0 = .ok (.swait q0 1 2) ∧ decodeWord q0 (wd 0x31 1 2 0 0) 0 = .ok (.attNorm c0 1 2) ∧
    decodeWord q0 (wd 0x37 1 0 0 1) 0 = .ok (.pathGen q0 1) ∧ decodeWord (.slv x0) (wd 0x36 1 2 0 0) 0 = .ok (.pathUpd (.slv x0) 1 2) := by decide

/-! ### States that meet the hypotheses of each statement: bundles, registers, cell events, attention -/

/-- A bundle at the start of cell 0's bundle buffer, slots C, M, V, A. -/
def bundle (c m v a : W32) : State :=
  State.reset.write 0xF000800000 (toLe 16 (c.toNat + m.toNat * 2 ^ 32 + v.toNat * 2 ^ 64 + a.toNat * 2 ^ 96))
theorem test_wit_BundleIssue_single : (∀ j : Fin 4, BitVec.ofNat 32 ((bundle 0xF0000000 0xF0000000 (wd 1 1 2 3 0) 0xF0000000).num (cellBase c0.num + 0x800000 +
      (bundle 0xF0000000 0xF0000000 (wd 1 1 2 3 0) 0xF0000000).pc q0 + 4 * j.val) 4) = if j = 2 then wd 1 1 2 3 0 else nopWord) ∧
    wMaj (wd 1 1 2 3 0) ≠ 0x3F ∧ isVec (.add q0 false 1 2 3) = false ∧ Instr.add q0 false 1 2 3 ≠ .nop q0 := by decide
theorem test_wit_BundleIssue_single_op : ∃ op, opOf (.add q0 false 1 2 3) = some op ∧ op.ext = false ∧ op.slot = 2 ∧ ∀ w2, decodeWord q0 (wd 1 1 2 3 0) w2 = .ok (.add q0 false 1 2 3) :=
  ⟨_, rfl, rfl, rfl, fun _ => rfl⟩
theorem test_wit_BundleIssue_extended : ∃ op, opOf (.mma c0 0 4 0x0002503F) = some op ∧ op.ext = true ∧ op.slot.val / 2 = 1 ∧ op.slot ≠ 1 ∧ op.legal = true ∧
    wMaj 0xFC048400 = 0x3F ∧ decodeWord q0 0xFC048400 0x0002503F = .ok (.mma c0 0 4 0x0002503F) := ⟨_, rfl, rfl, by decide, by decide, rfl, by decide, by decide⟩
theorem test_wit_BundleIssue_broadcast : (let s := bundle 0xF0000000 0xF0000000 (wd 0x12 1 2 3 0) 0xF0000000
    CanIssue s q0 false [] ∧ BitVec.ofNat 32 (s.num 0xF000800000 4) = nopWord ∧ BitVec.ofNat 32 (s.num 0xF000800004 4) = nopWord ∧
    BitVec.ofNat 32 (s.num 0xF000800008 4) = wd 0x12 1 2 3 0 ∧ BitVec.ofNat 32 (s.num 0xF00080000C 4) = nopWord ∧ (s.cell c0).bcastRoom = true) ∧
    isVec (.vadd x0 .i32 0 1 2 3) = true ∧ wMaj (wd 0x12 1 2 3 0) ≠ 0x3F := by
  unfold CanIssue; decide +kernel
theorem test_wit_BundleIssue_full : ((bs 0).modSlv x0 (fun k => { k with bq := List.replicate 16 0 }) |>.cell c0).bcastRoom = false ∧
    ∀ w2, decodeWord q0 (wd 0x12 1 2 3 0) w2 = .ok (.vadd x0 .i32 0 1 2 3) := ⟨by decide +kernel, fun _ => rfl⟩

theorem test_wit_RegisterWrites : placeOf 0xF310000000 = .reg (.loft 3) 0 ∧ ((Blk.loft 3).row 0).isSome = true ∧ mayReach .supervisor true (.loft 3) = true ∧
    placeOf 0xF500010000 = .reg .therm 0 ∧ mayReach .sia true .therm = true ∧ (Blk.therm.row 0).isSome = true ∧ mayReach .sib true .therm = false ∧
    placeOf 0xF500010002 = .reg .therm 2 ∧ State.reset.mayPass .supervisor (.loft 3) = true ∧
    upSt.mayPass .sia .therm = true ∧ State.reset.mayPass .sia .therm = false ∧ bits 0x6#32 3 1 = 3 ∧ Canonical State.reset := by unfold Canonical; decide +kernel
theorem test_wit_CellRegisterAccess : (let s := withS State.reset 1 0x108; CanIssue s q0 false [2, 1] ∧ CanIssue s q0 false [1, 2] ∧ s.xw q0 1 = 0x108 ∧ s.level q0 ≠ .user) ∧
    (let s := withS State.reset 1 0x1C; CanIssue s q0 false [1, 2] ∧ s.xw q0 1 = 0x1C) ∧
    (let s := withS State.reset 1 0x20000; CanIssue s q0 false [2, 1] ∧ CanIssue s q0 false [1, 2] ∧ 0x20000 ≤ (s.xw q0 1).toNat) ∧
    (let s := withS State.reset 1 0x1FFFE; CanIssue s q0 false [2, 1] ∧ (s.xw q0 1).toNat % 4 ≠ 0) ∧
    (let s := State.reset.modCell c0 (fun k => { k with level := .user }); s.level q0 = .user ∧ CanIssue s q0 false [2, 1] ∧ CanIssue s q0 false [1, 2]) := by
  unfold CanIssue; decide
/-- An exception of sequencer 0. -/
def exc0 : ExcRec := { engine := 0x7F, slot := 3, level := .supervisor, cause := 2, pc := 0x10, word := 0, addr := none, cycle := 0 }
theorem test_wit_CellEvents : Canonical State.reset ∧ Canonical (State.reset.setReg (cellBlk c0) 0x100 0x80000000) ∧
    (let s := State.reset.modSeq c0 (fun q => { q with pendV := [⟨3, some 5, 0, none, false⟩] })
     (s.cell c0).seq.pendV[0]? = some ⟨3, some 5, 0, none, false⟩ ∧ (∀ w ∈ (s.cell c0).seq.pendW, w.reg ≠ .s 3) ∧ Canonical s) ∧
    (let s := State.reset.modSeq c0 (fun q => { q with pendV := [⟨3, none, 0, some (0x5FFFFC, 0, 0), false⟩, ⟨4, none, 0, none, false⟩] })
     (s.cell c0).seq.pendV[0]? = some ⟨3, none, 0, some (0x5FFFFC, 0, 0), false⟩ ∧ (s.cell c0).seq.pendV[1]? = some ⟨4, none, 0, none, false⟩ ∧ s.ecc = [] ∧ Canonical s) ∧
    (let s := State.reset.setEcc 0 .single; dramWin 0 = some 0 ∧ s.eccAt 0 = .single ∧ s.home 0 = 0 ∧ sparseWf (fun _ => Ecc.clean) none s.ecc = true ∧ Canonical s) ∧
    (let s := State.reset.modCell c0 (fun k => { k with excQ := [exc0] }); (s.cell c0).excQ = [exc0] ∧ s.fld (cellBlk c0) 0x100 31 31 = 0 ∧ Canonical s) ∧
    (State.reset.setReg (cellBlk c0) 0x100 0x80000000).fld (cellBlk c0) 0x100 31 31 = 1 ∧
    (State.reset.setEcc (lsBase c0 + 8 * 0xBFFFF) .corrected).eccAt (lsBase c0 + 8 * 0xBFFFF) = .corrected ∧
    State.reset.jobRuns = false := by unfold Canonical; decide
theorem test_wit_CellEvents_shelf : bits 0x00100040#32 6 0 = 64 ∧ bits 0x00100040#32 26 16 = 16 ∧ 64 * 16 ≤ 1024 ∧ ¬ bits 0x00000041#32 6 0 ≤ 64 := by decide
theorem test_wit_InvalidationsAndFills : (0x1C#32).getLsbD 4 = true ∧ (0xF#32).getLsbD 4 = false ∧ (State.reset.tlbs[(4 : Fin 5)]).inv = none ∧
    (let s : State := { State.reset with tlbs := State.reset.tlbs.set 4 ⟨[], 0, some (true, 0)⟩ }
     (s.tlbs[(4 : Fin 5)]).inv = some (true, 0) ∧ s.draining 4 = false ∧ Canonical s) ∧
    (let f : LoftFill := ⟨0, 7, 3, some (List.replicate 128 1, false), false, c0, 0, 0, 32, lsBase c0⟩
     let s : State := ({ State.reset with lofts := State.reset.lofts.set 2 ⟨[], [f], [], 0, 1⟩ }).setReg (.loft 2) 0 1
     ((s.lofts[(2 : Fin 4)]).fills.filter (fun f => f.data.isSome))[0]? = some f ∧ s.moveWants c0 0 (lsBase c0) = false ∧ (s.reg (.loft 2) 0).getLsbD 0 = true ∧ Canonical s) := by
  unfold Canonical; decide +kernel
/-- A Larder row of 64 bytes in a page of CD1's DRAM. -/
def kv0 : KvOp :=
  { d := 30, store := false, transpose := false, ew := 1, rb := 64, va := 0x100010040, count := 1, ls := 0x5FFFC0, lss := 64, pages := [⟨0x100010000, 0x1000000000, 65536, 0, 0⟩],
    dropped := none, seqn := 0, drains := false }
def larder (l : List KvOp) : State := State.reset.modCell c0 (fun k => { k with kv := l })
theorem test_wit_LarderOperations : (let s := larder [kv0]
      (s.cell c0).kv = [kv0] ∧ s.portOwes (Fin.ofNat 5 c0.die) c0.idx = false ∧ s.memCut c0.die = 0 ∧ pageLookup kv0.pages kv0.va = some ⟨0x100010000, 0x1000000000, 65536, 0, 0⟩ ∧ s.ecc = [] ∧ Memory.wf s.mem = true ∧ s.pairOn c0 = false ∧
      kv0.ls + kv0.rb ≤ 0x600000 ∧ (⟨0x100010000, 0x1000000000, 65536, 0, 0⟩ : Page).phys kv0.va + kv0.rb ≤ 0xF000000000 ∧ (s.cell c0).syncCover = none) ∧
    ((larder [{ kv0 with dropped := some (1, 5) }]).cell c0).kv = [{ kv0 with dropped := some (1, 5) }] ∧ Canonical (larder [{ kv0 with dropped := some (1, 5) }]) ∧
    CanIssue State.reset q0 false [30, 31, 0] ∧ (State.reset.cell c0).kv.length < 4 ∧ kvOf (State.reset.num (lsBase c0) 32) 30 = none ∧ CanIssue State.reset q0 false [] ∧
    ((held .attSync).cell c0).seq.hold = .attSync ∧ ((held .attSync).cell c0).kv = [] ∧ (((larder [kv0]).setHold q0 .attSync).cell c0).seq.hold = .attSync ∧
    ((State.reset.modCell c0 (fun k => { k with syncCover := some 0 })).cell c0).syncCover = some 0 := by unfold CanIssue Canonical; decide
/-- ATT.NORM of one row of 4 FP32 scores, and ATT.MERGE of two partials of one element. -/
def normBlock : Nat := 0x1000 + 0x2000 * 2 ^ 32 + 32 * 2 ^ 64 + 32 * 2 ^ 96 + 0x3F800000 * 2 ^ 128 + 4 * 2 ^ 160 + 4 * 2 ^ 192
def mergeBlock : Nat := 2 + 2 ^ 16 + 0x3000 * 2 ^ 32 + 32 * 2 ^ 64 + 32 * 2 ^ 96 + 0x1000 * 2 ^ 256 + 0x1100 * 2 ^ 288 + 0x1200 * 2 ^ 320 + 0x1300 * 2 ^ 352
theorem test_wit_NormaliserRowsAndMerge_norm : (let s := withLs State.reset 0 64 normBlock
    CanIssue s q0 false [31, 0] ∧ s.ecc = [] ∧ Memory.wf s.mem = true ∧ s.pairOn c0 = false ∧ (s.cell c0).attFree ≤ (s.cell c0).cycle ∧ s.num (lsBase c0) 64 = normBlock) ∧
    normOk normBlock = true ∧ (∀ p ∈ (normCfg normBlock).ranges, lsIn p.1 p.2 = true) ∧ (normCfg normBlock).placed = true ∧ (normCfg normBlock).rows = 1 ∧
    (normCfg normBlock).sten = false ∧ (normCfg normBlock).masken = false ∧ lsIn (normCfg normBlock).src 16 = true := by unfold CanIssue; decide +kernel
theorem test_wit_NormaliserRowsAndMerge_merge : (let s := withLs State.reset 0 48 mergeBlock
    CanIssue s q0 false [31, 0] ∧ s.num (lsBase c0) 48 = mergeBlock ∧ s.num (lsBase c0) 32 = mergeBlock % 2 ^ 256) ∧ mergeOk (mergeBlock % 2 ^ 256) = true ∧
    (mergeCfg mergeBlock).kp = 2 ∧ (mergeCfg mergeBlock).rows = 1 ∧ (∀ p ∈ (mergeCfg mergeBlock).ranges, lsIn p.1 p.2 = true) ∧
    (∀ p ∈ (mergeCfg mergeBlock).parts, lsIn p.1 4 = true ∧ lsIn p.2 8 = true) := by unfold CanIssue; decide +kernel
theorem test_wit_NormaliserRowsAndMerge_ends (b : Bool) : (let s := State.reset.modCell c0 (fun k => { k with norm := [⟨3, 1, b, [], false⟩] })
    (s.cell c0).norm = [⟨3, 1, b, [], false⟩]) := by cases b <;> decide
theorem test_wit_NormaliserRowsAndMerge_rows : (f32 0x7FC00000).isNan = true ∧ (0x7FC00000#32 != 0xFF800000#32) = true ∧ (f32 0x7F800000).isNan = false ∧
    (0x7F800000#32 != 0xFF800000#32) = true := by decide
theorem test_wit_CellEvents_more : (State.reset.modSeq c0 (fun q => { q with pendV := [⟨3, some 5, 0, none, false⟩] }) |> fun s => ticking s ∧ (⟨3, some 5, 0, none, false⟩ : PendV).wr = false ∧
      ((s.cell c0).seq.pendV)[0]? = some ⟨3, some 5, 0, none, false⟩) ∧ State.reset.portHeld 0 21 = false ∧ State.reset.portHeld 4 13 = false ∧
    (State.reset.setReg (.cell 0) 0x500 1).pairOn ⟨0, Fin.ofNat 16 (2 * (0 : Fin 8).val)⟩ = true := by decide +kernel
/-- A fill whose data are those of memory, and one that memory has overtaken. -/
theorem test_wit_InvalidationsAndFills_current : State.reset.fillCurrent 2 0 (List.replicate 128 0) = true ∧ State.reset.fillCurrent 2 0 (List.replicate 128 1) = false ∧
    (let s : State := { State.reset with tlbs := State.reset.tlbs.set 4 ⟨[], 0, some (true, 1)⟩, stores := [{ who := .eng h0, pa := 0, data := [some 1], parts := [], done := false, drains := true }] }
     (s.tlbs[(4 : Fin 5)]).inv = some (true, 1) ∧ s.draining 4 = true) := by decide +kernel
theorem test_wit_LarderOperations_ports : State.reset.portHeld (Fin.ofNat 5 c0.die) 17 = false ∧ ticking (larder [kv0]) ∧ (31 : Reg).val = 31 ∧ (30 : Reg).val ≠ 31 ∧
    (State.reset.modCell c0 (fun k => { k with syncCover := none })).hold q0 = .none := by decide

/-! ### States that meet the hypotheses of each statement: path units, acoustics, time, sensors, ports -/

/-- A plan descriptor of one candidate with one rank, and an update descriptor of no entries with generation 5. -/
def planBlock : Nat := 0x1000 + 0x2000 * 2 ^ 32 + 2 ^ 64 + 2 ^ 80
def updBlock : Nat := 5 * 2 ^ 96
def po (k : PathKind) : PathOp :=
  { ticket := some 7, kind := k, cell := 0, level := .supervisor, desc := 0x5FFFE0, cand := 0x1000, res := 0x5FFFD0, ncand := 0, nrank := 1, budget := 4, basegen := 0, cq := 0, batch := 0,
    clear := false, newgen := 5 }
/-- Path unit 0 with operations queued, one that runs, and aborts. -/
def pathSt (q : List PathOp) (r : Option PathRun) (ab : List (Engine × Reg × BitVec 16)) : State :=
  State.reset.modPath 0 (fun u => { u with queue := q, run := r, aborts := ab })
def prun (k : PathKind) (next : Nat) (fin : Option (BitVec 8)) : PathRun := { startRun (po k) 0 with next := next, fin := fin }
theorem test_wit_PathSubmission : (let s := withS State.reset 1 0xFFFF; CanIssue s q0 false [31, 1] ∧ (s.xw q0 1).toNat < 65536) ∧ CanIssue State.reset q0 false [31] ∧
    (let s := (withLs State.reset 0 32 planBlock).setHold q0 (.path .plan 0 3 0 0); s.hold q0 = .path .plan 0 3 0 0 ∧ s.movesDone q0 .die = true ∧ s.ecc = [] ∧
      s.num (lsBase c0) 32 = planBlock ∧ s.fld (.path 0) 0 0 0 = 0 ∧ (s.setReg (.path 0) 0 1).fld (.path 0) 0 0 0 = 1 ∧ (s.paths[(0 : Fin 4)]).depth < 16) ∧
    (planDesc planBlock false c0 .supervisor 0).isSome = true ∧ planDesc 0 false c0 .supervisor 0 = none ∧ (updDesc updBlock c0 .supervisor 0).isSome = true ∧
    ((pathSt (List.replicate 16 (po .plan)) none []).paths[(0 : Fin 4)]).depth = 16 := by unfold CanIssue; decide +kernel
/-- A misaligned offset, and one whose block passes the local store, wait for the fence. -/
theorem test_wit_PathSubmission_offsets : (let s := State.reset.setHold q0 (.path .plan 1 3 0 0); s.hold q0 = .path .plan 1 3 0 0 ∧ s.movesDone q0 .die = true ∧ s.ecc = []) ∧
    (let s := State.reset.setHold q0 (.path .upd 0x5FFFE1 3 0 0); s.hold q0 = .path .upd 0x5FFFE1 3 0 0 ∧ s.movesDone q0 .die = true ∧ s.ecc = []) ∧
    (1#32).toNat % 32 ≠ 0 ∧ 0x600000 < (0x5FFFE1#32).toNat + 32 := by decide
theorem test_wit_PathSubmission_abort : (let s := pathSt [po .plan] none [(q0, 3, 7)];
      (s.paths[(0 : Fin 4)]).aborts = [(q0, 3, 7)] ∧ (s.paths[(0 : Fin 4)]).queue.find? (fun o => o.ticket == some 7) = some (po .plan)) ∧
    (let s := pathSt [po .plan] none [(q0, 3, 8)];
      (s.paths[(0 : Fin 4)]).queue.find? (fun o => o.ticket == some 8) = none ∧ (s.paths[(0 : Fin 4)]).inter = none ∧ (s.paths[(0 : Fin 4)]).run = none) := by decide
/-- Nothing holds the unit's port, and its memory is reached; a clear of JOB.START that ended PATH_FAULT. -/
theorem test_wit_PathOperations_free : (∀ (q : List PathOp) (r : Option PathRun), (pathSt q r []).portHeld 0 16 = false ∧ (pathSt q r []).memCut 0 = 0) ∧
    (let r := { prun .upd 0 (some 0x0D) with op := { po .upd with ticket := none, clear := true } }
     ((pathSt [] (some r) []).paths[(0 : Fin 4)]).run = some r ∧ r.fin = some 0x0D ∧ r.op.ticket = none) ∧
    ((prun .plan 1 (some 0x0D)).fin = some 0x0D) := ⟨fun _ _ => ⟨rfl, rfl⟩, by decide⟩
theorem test_wit_PathOperations_start : (let u := (pathSt [po .upd] none []).paths[(0 : Fin 4)]
      u.run = none ∧ u.queue = [po .upd] ∧ (po .upd).kind = .upd ∧ (po .upd).clear = false ∧ (u.inter = none ∧ u.ended = [])) ∧
    32768 ≤ ((po .upd).newgen - (5 + 32768 : BitVec 16)).toNat ∧ ((po .upd).newgen - (5 : BitVec 16)).toNat = 0 ∧ (po .plan).kind ≠ .upd := by decide
theorem test_wit_PathOperations_run : (let u := (pathSt [] (some (prun .plan 1 none)) []).paths[(0 : Fin 4)]
      u.run = some (prun .plan 1 none) ∧ u.inter = none ∧ (prun .plan 1 none).op.kind = .plan ∧ (prun .plan 1 none).fin = none ∧ 0 < (prun .plan 1 none).next) ∧
    (prun .plan 0 none).next = 0 := by decide
theorem test_wit_PathOperations_end : (let s := pathSt [] (some (prun .plan 1 (some 0))) []
      let u := s.paths[(0 : Fin 4)]
      let r := { prun .plan 1 (some 0) with op := { po .plan with res := 0 } }
      u.run = some (prun .plan 1 (some 0)) ∧ u.inter = none ∧ u.ended = [] ∧ r.fin.isSome = true ∧ r.op.ticket.isSome = true ∧ Memory.wf s.mem = true ∧ s.pairOn c0 = false ∧
      r.op.res + (r.result u.gen 0).length ≤ 0x600000) ∧
    (prun .upd 0 (some 0)).fin = some 0 ∧ (prun .upd 0 (some 0)).op.ncand = 0 ∧ (prun .upd 0 (some 0)).op.clear = false ∧ (prun .upd 0 (some 0)).op.desc + 32 ≤ 0x600000 := by decide
theorem test_wit_VoxelSetUpdate : (let l : Machine.PSet := List.replicate 7 (1, 1) ++ [(5, 3)]
      l.length = 8 ∧ (l.getD 7 (0, 0)).1 = 5 ∧ leafState (l.getD 7 (0, 0)).2 ≠ 0 ∧ (∀ j, j < 7 → (l.getD j (0, 0)).1 ≠ 5) ∧
      ∀ j, j < 8 → leafState (l.getD j (0, 0)).2 ≠ 0 ∧ ((0 : BitVec 16) - leafGen (l.getD j (0, 0)).2).toNat ≤ 0) ∧
    (let l : Machine.PSet := List.replicate 8 (0, 0); l.length = 8 ∧ leafState (l.getD 0 (0, 0)).2 = 0 ∧ ∀ j, j < 8 → ¬ ((l.getD j (0, 0)).1 = 9 ∧ leafState (l.getD j (0, 0)).2 ≠ 0)) := by decide
/-- The acoustic engine runs, with every TDM input on and adaptation enabled, at a tick of a block. -/
def acoSt (tick blk : Nat) : State :=
  let s := State.reset.setReg .aco 8 1
  { s with aco := { s.aco with tick := tick, blk := blk, act := (s.aco.act.set 5 0xF).set 56 1 } }
theorem test_wit_AcousticStream : State.reset.acoRuns = false ∧ (acoSt 1 0).acoRuns = true ∧ Canonical (acoSt 1 0) ∧ ((acoSt 1 0).aco.reg 0x14).getLsbD 3 = true ∧
    ((State.reset.setReg .aco 8 1).aco.reg 0x14).getLsbD 3 = false ∧ ((acoSt 1 0).aco.reg 0xE0).getLsbD 0 = true ∧ (acoSt 1 0).aco.upd = none ∧ (acoSt 1 0).aco.tick ≠ 0 ∧
    (acoSt 383 1).aco.tick < 1 * (acoSt 383 1).acoNb ∧ 1 * (acoSt 384 1).acoNb ≤ (acoSt 384 1).aco.tick ∧ (acoSt 0 0).aco.blk * (acoSt 0 0).acoNb ≤ (acoSt 0 0).aco.tick := by
  unfold Canonical; decide
/-- A whole block in the inbound buffer of block 0: its sequence numbers 0, and its checksum. -/
def zst : State := let z := acoSt 384 1; { z with aco := { z.aco with got := z.aco.got.set 0 0x47300 } }
def goodSt : State := zst.write 0xF401847204 (toLe 4 (crc32c (zst.bytes 0xF401800000 0x47200)).toNat)
theorem home_high (s : State) (a : Nat) (h : 0xF400000000 ≤ a) : s.home a = a := by unfold State.home; rw [if_neg (by omega)]
theorem write_aco (s : State) (a : Nat) (l : List Byte) : (s.write a l).aco = s.aco := by rw [State.write_eq]
theorem zst_runs (n : Nat) : (zst.write 0xF401847204 (toLe 4 n)).acoRuns = true := by
  unfold State.write
  have hg : granules 0xF401847204 4 = [0xF401847200] := by decide
  simp only [show (toLe 4 n).length = 4 by simp [toLe], hg, List.foldl_cons, List.foldl_nil, State.writeGranule,
    show (dramWin 0xF401847200).isNone = true by decide, Bool.or_true, if_true]
  have he : ∀ (s : State) g e, (s.setEcc g e).acoRuns = s.acoRuns := fun _ _ _ => rfl
  have hm : ∀ (s : State) m l, State.acoRuns { s with mem := m, stores := l } = s.acoRuns := fun _ _ _ => rfl
  rw [he, hm]
  decide
theorem write_before (s : State) (a b n : Nat) (l : List Byte) (ha : 0xF400000000 ≤ a) (h : a + n ≤ b) : (s.write b l).bytes a n = s.bytes a n := by
  unfold State.bytes
  refine List.map_congr_left (fun i hi => State.byte_write_ne s b l false _ (Or.inl ?_))
  have := List.mem_range.mp hi
  rw [home_high s _ (by omega), home_high s _ (by omega)]; omega
theorem write_num4 (s : State) (a v : Nat) (hw : Memory.wf s.mem = true) (ha : 0xF400000000 ≤ a) : (s.write a (toLe 4 v)).num a 4 = v % 2 ^ 32 := by
  have hl : ∀ i, (h : i < 4) → (s.write a (toLe 4 v)).byte (a + i) = (toLe 4 v)[i]'(by simpa [toLe] using h) := fun i h =>
    State.byte_write s a _ false i hw (by simpa [toLe] using h) (by rw [home_high s _ (by omega), home_high s _ ha])
  simp only [State.num, State.bytes, List.range, List.range.loop, List.map, hl 0 (by omega), hl 1 (by omega), hl 2 (by omega), hl 3 (by omega)]
  simp [toLe, leNat]
  omega
theorem test_wit_AcousticStream_good : inBuf 0 = 0xF401800000 ∧ 0x47300 ≤ goodSt.aco.got[Fin.ofNat 2 (1 - 1)] ∧ goodSt.num 0xF401800000 4 = (1 - 1) % 2 ^ 32 ∧
    goodSt.num (0xF401800000 + 0x47200) 4 = (1 - 1) % 2 ^ 32 ∧ goodSt.num (0xF401800000 + 0x47204) 4 = (crc32c (goodSt.bytes 0xF401800000 0x47200)).toNat ∧
    goodSt.acoRuns = true ∧ goodSt.aco.blk = 1 := by
  refine ⟨rfl, ?_, ?_, ?_, ?_, ?_, ?_⟩
  · rw [goodSt, write_aco]; decide
  · rw [goodSt, State.num, write_before _ _ _ _ _ (by omega) (by omega)]; decide
  · rw [goodSt, State.num, write_before _ _ _ _ _ (by omega) (by omega)]; decide
  · have hb : goodSt.bytes 0xF401800000 0x47200 = zst.bytes 0xF401800000 0x47200 := write_before _ _ _ _ _ (by omega) (by omega)
    rw [hb]
    generalize hc : crc32c (zst.bytes 0xF401800000 0x47200) = c
    have hg : goodSt = zst.write 0xF401847204 (toLe 4 c.toNat) := by rw [goodSt, hc]
    rw [hg, show 0xF401800000 + 0x47204 = 0xF401847204 from rfl, write_num4 _ _ _ rfl (by omega)]
    exact Nat.mod_eq_of_lt c.isLt
  · exact zst_runs _
  · rw [goodSt, write_aco]; decide
theorem test_wit_AcousticControl_free : ∀ l : Fin 64, 32 ≤ l.val → l.val < 42 → (State.reset.setReg .aco 0 1).lineChan l = none := by decide
theorem test_wit_AcousticControl : Canonical State.reset ∧ (State.reset.reg .aco 4).getLsbD 31 = false ∧ ((State.reset.setReg .aco 4 0x80000000).reg .aco 4).getLsbD 31 = true ∧
    (State.reset.setReg .aco 0x100 0x100).fld .aco 0x100 18 2 * 4 = 0x100 ∧ ¬ (0x100 ≤ State.reset.fld .aco 0x100 18 2 * 4) ∧ (State.reset.reg .aco 0).getLsbD 0 = false ∧
    (2 ≤ bits 0x4D#32 7 5 ∧ bits 0x4D#32 7 5 ≤ 5 ∧ 3 ≤ bits 0x4D#32 4 2 ∧ bits 0x4D#32 4 2 ≤ 5) ∧ ¬ (2 ≤ bits 0x2D#32 7 5) ∧
    ((State.reset.setReg .aco 0 1).reg .aco 0).getLsbD 0 = true := by unfold Canonical; decide
/-- An abort whose ticket is that of the operation that runs, and of an update between candidates. -/
theorem test_wit_PathSubmission_running : (let s := pathSt [] (some (prun .plan 1 none)) [(q0, 3, 7)]
      (s.paths[(0 : Fin 4)]).aborts = [(q0, 3, 7)] ∧ (s.paths[(0 : Fin 4)]).queue.find? (fun o => o.ticket == some 7) = none ∧ (s.paths[(0 : Fin 4)]).inter = none ∧
      (s.paths[(0 : Fin 4)]).run = some (prun .plan 1 none) ∧ (prun .plan 1 none).op.ticket = some 7 ∧ ticking s) ∧
    (let s := (pathSt [] none [(q0, 3, 7)]).modPath 0 (fun u => { u with inter := some (prun .upd 0 none) })
     (s.paths[(0 : Fin 4)]).inter = some (prun .upd 0 none) ∧ (prun .upd 0 none).op.ticket = some 7) ∧
    ticking (State.reset.setHold q0 (.path .plan 0 3 0 0)) ∧ (State.reset.setHold (.slv x0) (.abort 3)).hold (.slv x0) = .abort 3 ∧ (State.reset.paths[(0 : Fin 4)]).aborts = [] := by decide
/-- An update that waits for a candidate boundary of the plan that runs; a plan and a commit whose budget expires; the clocks run. -/
theorem test_wit_PathOperations_between : (let u := (pathSt [po .upd] (some (prun .plan 1 none)) []).paths[(0 : Fin 4)]
      u.run = some (prun .plan 1 none) ∧ u.inter = none ∧ 0 < (prun .plan 1 none).next ∧ u.queue.find? (fun o => o.kind == .upd) = some (po .upd)) ∧
    (let u := (pathSt [po .plan] none []).paths[(0 : Fin 4)]; u.run = none ∧ u.queue = [po .plan] ∧ (po .plan).kind ≠ .upd) ∧
    (let u := (pathSt [] (some (prun .commit 0 none)) []).paths[(0 : Fin 4)]; u.run = some (prun .commit 0 none) ∧ (prun .commit 0 none).fin = none ∧ (prun .commit 0 none).op.kind = .commit) ∧
    ticking (pathSt [po .upd] (some (prun .plan 1 none)) []) ∧ (pathSt [] none []).portHeld 0 16 = false ∧ (po .upd).ticket.isSome = true := by decide
/-- The engine writes what was commanded while it stood; a commit is applied; the engine's crossing is free and then held. -/
theorem test_wit_AcousticControl_more : (State.reset.setReg .aco 4 0x80000000).crossing 4 11 = none ∧ (State.reset.setReg .aco 0 1).crates = [] ∧ (State.reset.setReg .aco 0 1).crossing 4 11 = none ∧
    bits 0x4D#32 7 1 ≠ bits ((State.reset.setReg .aco 0 1).reg .aco 0) 7 1 ∧ bits 1#32 7 1 = bits ((State.reset.setReg .aco 0 1).reg .aco 0) 7 1 ∧
    (State.reset.setReg .aco 0 0x4C).reg .aco 0 = 0x4C ∧ (2 ≤ bits 0x4C#32 7 5 ∧ bits 0x4C#32 7 5 ≤ 5 ∧ 3 ≤ bits 0x4C#32 4 2 ∧ bits 0x4C#32 4 2 ≤ 5) := by decide
/-- Configurations that a commit applies, and one that it refuses. -/
theorem test_wit_AcousticControl_causes : (let s := State.reset.setReg .aco 4 0x80000000
     let s1 := s.clrReg .aco 4 0x80000000#32
     let act : Vector W32 64 := Vector.ofFn (fun i => s1.reg .aco (4 * i.val))
     ({ s.aco with act := act }).causes s.acoRate s.acoNf s.acoB = []) := by decide +kernel


/-! ### States that meet the hypotheses of each statement: the hub -/

def withTb (f : TimeBase → TimeBase) : State := { State.reset with hub := { State.reset.hub with tb := f State.reset.hub.tb } }
/-- FSYNC output 15 enabled with its next edge due, and its pulse standing. -/
def fs15 (active : Bool) (endAt : Nat) : State :=
  withTb (fun b => { b with fs := b.fs.set 15 { b.fs[15] with cur := ⟨true, false, 100000, 0, 10⟩, active := active, endAt := endAt } })
theorem test_wit_TimeBaseEvents : (withTb (fun b => { b with adjLeft := 0xFFFFFFFF })).hub.tb.adjLeft ≠ 0 ∧ State.reset.hub.tb.adjLeft = 0 ∧
    (∀ j : Fin 16, (State.reset.hub.tb.fs[j]).runs = false) ∧ State.reset.now ≤ (0 : BitVec 64).toNat ∧ ((fs15 false 0).hub.tb.fs[(15 : Fin 16)]).cur.en = true ∧
    ((fs15 false 0).hub.tb.fs[(15 : Fin 16)]).next ≤ (fs15 false 0).now ∧ ((fs15 false 0).hub.tb.fs[(15 : Fin 16)]).pend = none ∧
    ((fs15 true 0).hub.tb.fs[(15 : Fin 16)]).active = true ∧ ((fs15 true 0).hub.tb.fs[(15 : Fin 16)]).endAt ≤ (fs15 true 0).now ∧
    (fs15 true 1).now < ((fs15 true 1).hub.tb.fs[(15 : Fin 16)]).endAt ∧ (∀ j : Fin 16, (State.reset.fsWritten j).ok = true) ∧
    (((State.reset.setReg .tbase 0x1F0 1).setReg .tbase 0x1F4 0).fsWritten 15).ok = false := by decide +kernel
/-- An output with values committed at a NOW, whose next edge is due: before the edge, and at it or after it. -/
def fsP (en : Bool) (next at_ : Nat) : State := withTb (fun b => { b with now := 5, fs := b.fs.set 15 { b.fs[15] with
  cur := ⟨true, false, 100000, 0, 10⟩, pend := some ⟨en, true, 200000, 0, 20⟩, next := next, at_ := at_ } })
theorem test_wit_TimeBaseEvents_commit : (∀ en : Bool, let f := (fsP en 5 4).hub.tb.fs[(15 : Fin 16)]
      (f.cur.en = true ∧ f.next ≤ (fsP en 5 4).now) ∧ f.pend = some ⟨en, true, 200000, 0, 20⟩ ∧ f.at_ < f.next) ∧
    (let f := (fsP true 5 5).hub.tb.fs[(15 : Fin 16)]; (f.cur.en = true ∧ f.next ≤ (fsP true 5 5).now) ∧ f.next ≤ f.at_) ∧
    (let s := withTb (fun b => { b with fs := b.fs.set 15 { b.fs[15] with cur := ⟨true, false, 100000, 0, 10⟩, next := 1 } })
     let f := s.hub.tb.fs[(15 : Fin 16)]
     f.pend = none ∧ f.cur.en = true ∧ ¬ f.next ≤ s.now ∧ ∀ j : Fin 16, (s.fsWritten j).ok = true) ∧
    (let f := State.reset.hub.tb.fs[(15 : Fin 16)]; f.pend = none ∧ f.cur.en = false ∧ (State.reset.fsWritten 15).en = false) ∧
    ((fs15 false 0).hub.tb.fs[(15 : Fin 16)]).runs = true := by decide +kernel
theorem test_wit_TimeBaseEvents_cutoff : (let s := State.reset.setReg .tbase 0x30 1000; s.cutDue = some 0 ∧ s.hub.tb.lastCut = none) ∧
    (let s := (withTb (fun b => { b with lastCut := some 0, now := 1000 })).setReg .tbase 0x30 1000; s.cutDue = some 1 ∧ s.hub.tb.lastCut = some 0) ∧
    (let s := (withTb (fun b => { b with lastCut := some 0, now := 999 })).setReg .tbase 0x30 1000; s.cutDue = some 0 ∧ s.hub.tb.lastCut = some 0) ∧
    (withTb (fun b => { b with cuts := [3] })).hub.tb.cuts = [3] ∧
    (let s : State := { State.reset.setReg (.d2d 4) 0x11C 2 with tests := State.reset.tests.set 3 { State.reset.tests[(3 : Fin 4)] with mark := some 0 } }
     s.fenced (Fin.ofNat 7 3) = false ∧ s.edgeUp 4 (Fin.ofNat 7 3) = true ∧ (s.tests[(3 : Fin 4)]).mark = some 0) ∧
    (State.reset.tests[(3 : Fin 4)]).mark = none ∧ (let s := State.reset.setReg .tbase 0x30 1000; s.now < 0 + s.instPeriod) ∧
    State.reset.cutDue = none := by decide
/-- A PDMA channel of engine 0 armed on a line, and a channel as it stands. -/
def chd (l : Fin 64) : ChDesc :=
  { src := 0xF401890000, slen := 64, scount := 1, sstr := 0, dst := 0xF401891000, dlen := 64, dcount := 1, dstr := 0, line := l, burst := 64, pend := 1, tok := false, irq := false,
    cq := 0, tval := 0 }
def armedCh (l : Fin 64) (left pend : Nat) : Chan :=
  { st := .armed, cause := 0, pend := pend, late := false, code := 0, left := left, moved := 0, job := false, desc := some (chd l) }
def withCh (s : State) (k : Chan) (order : List (Fin 16)) : State :=
  { s with hub := { s.hub with dma := s.hub.dma.set 0 { order := order, ch := (s.hub.dma[(0 : Fin 2)]).ch.set 15 k } } }
def withIng (s : State) (f : Ingest → Ingest) : State := { s with hub := { s.hub with ing := f s.hub.ing } }
def frame (p : Fin 24) : Frame := { port := p, ts := 0, flags := 0, counter := 0, k := 0, edone := 0, late := 0, after := 0, nowLow := 0, crc := 0, rest := [], sweep := 6, len := 0, sent := some 0, err := false }
theorem test_wit_SensorIngest_start : (let s := withCh (State.reset.setReg .spi 0x300 1) (armedCh 61 1 0) [];
      (s.reg .spi (0x100 * 3)).getLsbD 0 = true ∧ s.lineArmed (58 + 3) = true ∧ s.hub.ing.imu[(3 : Fin 4)] = none) ∧
    (withIng State.reset (fun i => { i with imu := i.imu.set 3 (some 4) })).hub.ing.imu[(3 : Fin 4)] = some 4 ∧
    (let s := withCh ((State.reset.setReg (.boot 0) 4 0x4000).setReg .ingest (0x20 * 11) 1) (armedCh 11 1 0) [];
      s.openFrame 11 = none ∧ s.ready 14 = true ∧ s.lineArmed 11 = true ∧ (s.reg .ingest (0x20 * 11)).getLsbD 0 = true) ∧
    State.reset.ready 14 = false ∧ State.reset.openFrame 11 = none := by decide
theorem test_wit_SensorIngest_trigger : (let s := withTb (fun b => { b with fs := b.fs.set 0 { b.fs[0] with lastDue := some 5 }, now := 5 })
    (s.hub.tb.fs[Fin.ofNat 16 (bits (s.reg .ingest (0x20 * 11)) 7 4)]).lastDue = some 5 ∧ (s.hub.tb.fs[(0 : Fin 16)]).used = false ∧ 5 ≤ s.now ∧
    s.now - 5 ≤ (s.reg .ingest (0x20 * 11 + 8)).toNat) ∧ (State.reset.hub.tb.fs[(0 : Fin 16)]).lastDue = none := by decide
theorem test_wit_SensorIngest_frames : (withIng State.reset (fun i => { i with open_ := [frame 23] })).openFrame 23 = some (frame 23) ∧
    (let s := ((withIng State.reset (fun i => { i with open_ := [frame 23] })).setReg (.mac 5) 0 0x11).setReg .ingest (0x20 * 23 + 12) 5
     (s.reg (.mac 5) 0).getLsbD 0 = true ∧ (s.reg (.mac 5) 0).getLsbD 4 = true ∧ bits (s.reg .ingest (0x20 * 23 + 12)) 2 0 = 5 ∧ s.openFrame (Fin.ofNat 24 (16 + 7)) = some (frame 23) ∧
       (frame 23).sweep = 6) ∧ (State.reset.reg (.mac 5) 0).getLsbD 4 = false ∧
    (let s := withIng State.reset (fun i => { i with done := [frame 23] })
     s.hub.ing.done = [frame 23] ∧ s.frameMoved (frame 23) = true ∧ Memory.wf s.mem = true ∧ s.ringBase + 32 ≤ 0xF000000000 ∧ Canonical s ∧
       s.perCut (some 10) = 0 ∧ s.portHeld 4 3 = false) ∧
    (let s := (withIng State.reset (fun i => { i with done := [frame 23] })).setWin 23 [0]; s.frameMoved (frame 23) = false) ∧
    (let s := withIng State.reset (fun i => { i with closes := [(4, bits 9 31 0)] }); s.hub.ing.closes = [(4, bits 9 31 0)] ∧ ∀ x ∈ s.hub.ing.done, 4 < x.edone) ∧
    (let s := withIng State.reset (fun i => { i with closes := [(4, bits 9 31 0)], done := [frame 23] }); frame 23 ∈ s.hub.ing.done ∧ (frame 23).edone ≤ 4) := by unfold Canonical; decide
/-- A lidar sweep goes on, changes and begins, and one that is discarded; formats of a camera. -/
theorem test_wit_SensorIngest_lidar : (let s := withCh (((State.reset.setReg (.boot 0) 4 0x8000).setReg (.mac 5) 0 0x11).setReg .ingest (0x20 * 23 + 12) 5) (armedCh 19 1 0) []
      s.ready 15 = true ∧ (s.reg (.mac 5) 0).getLsbD 0 = true ∧ ((s.reg (.mac 5) 0).getLsbD 4 && decide (bits (s.reg .ingest (0x20 * 23 + 12)) 2 0 = 5)) = true ∧ s.openFrame 23 = none ∧
      s.lineArmed (12 + 7) = true ∧ s.hub.ing.lidDrop.contains (7, 6#32) = false ∧ (s.reg .ingest (0x20 * 23)).getLsbD 0 = false ∧ ((s.setReg .ingest (0x20 * 23) 1).reg .ingest (0x20 * 23)).getLsbD 0 = true) ∧
    (withIng State.reset (fun i => { i with lidDrop := [(7, 6)] })).hub.ing.lidDrop.contains (7, 6#32) = true ∧ (frame 23).sweep ≠ 7 ∧
    camOk ⟨0, .raw12, 4096, 2048⟩ = true ∧ camOk ⟨1, .raw12, 1, 1⟩ = false ∧ camOk ⟨0, .raw12, 4096, 2049⟩ = false := by decide
/-- A frame that waits in its queue, whose gate is open, and the SENSOR frame of a lidar port. -/
def udp0 : List Byte := List.replicate 12 0 ++ [8, 0, 0x45] ++ List.replicate 8 0 ++ [17] ++ List.replicate 12 0 ++ [0x12, 0x34, 0, 24, 0, 0] ++ List.replicate 16 0
theorem test_wit_HubPorts_frames : (let s := ((State.reset.setReg (.boot 0) 4 0x8000).setReg (.mac 5) 0 1).setWin 45 (toLe 256 4)
      s.txReady 5 = [(0, 0, 1)] ∧ s.ready 15 = true ∧ (s.reg (.mac 5) 0).getLsbD 0 = true ∧ State.reset.txReady 5 = []) ∧
    (let s := (State.reset.setReg (.mac 5) 0 0x11).setReg .ingest (0x20 * 23 + 12) 0x12340005; (s.sensorPort 5 udp0).isSome = true ∧ State.reset.sensorPort 5 udp0 = none) ∧
    (List.replicate 9217 (0 : Byte)).length = 9217 ∧ State.reset.perCut (some 13) = 0 ∧ State.reset.portHeld 4 5 = false := by
  refine ⟨by decide +kernel, by decide +kernel, List.length_replicate, by decide, by decide⟩
theorem test_wit_HubPorts : (let s := withCh ((State.reset.setReg (.boot 0) 4 0x48000).setReg (.mac 5) 0 1) (armedCh 25 1 0) [];
      s.ready 15 = true ∧ (s.reg (.mac 5) 0).getLsbD 0 = true ∧ (s.reg (.mac 5) 0).getLsbD 4 = false ∧ s.lineArmed (20 + 5) = true ∧ s.ready 18 = true ∧
      (List.replicate 224 (0 : Byte)).length ≤ 224 ∧ s.perCut (some 12) = 0 ∧ s.perCut (some 13) = 0) ∧ State.reset.ready 15 = false ∧
    ((State.reset.setReg (.can 3) 0 1).reg (.can 3) 0).getLsbD 0 = true ∧
    (let s := State.reset.setWin 45 (toLe 256 4); leNat ((s.winBytes 45).take 4) % 2 ^ 14 = 4 ∧ 256 * ((32 + 4 + 255) / 256) ≤ (s.winBytes 45).length) ∧
    winExists 0 = true ∧ winExists 12 = false ∧ ((State.reset.setReg (.pcie 1) 0x1000 3).reg (.pcie 1) 0x1000).getLsbD 1 = true ∧ dramWin 0x4000000000 = some 4 ∧ dramOk 0x5000000000 = false ∧
    (10000000 ≤ (withTb (fun b => { b with up := 10000000 })).hub.tb.up) ∧ State.reset.hub.tb.up < 10000000 ∧ Canonical State.reset ∧
    ((State.reset.setReg (.pcie 1) 0x1000 3).reg (.pcie 1) 0x1000).getLsbD 0 = true := by unfold Canonical; decide +kernel
/-- Where hub DRAM is fitted, its first bytes are there for a device. -/
theorem test_wit_HubPorts_dram (h : 64 ≤ hubUsable) : dramOk 0x4000000000 = true ∧ dramOk (0x4000000000 + 4 - 1) = true ∧ dramWin 0x4000000000 = some 4 := by
  refine ⟨?_, ?_, rfl⟩ <;> exact decide_eq_true (by show _ < hubUsable; omega)
theorem test_wit_HubPorts_output : (let s : State := { State.reset with faultExt := true }; s.faultLow = true) ∧
    (let s : State := { State.reset with isl := State.reset.isl.map (fun k => { k with pull := false }) }; s.faultLow = false) ∧
    (let body : List Byte := List.replicate 16 0
     let data := body ++ toLe 4 (crc32c body).toNat
     20 ≤ data.length ∧ data.drop (data.length - 4) = toLe 4 (crc32c (data.take (data.length - 4))).toNat) ∧
    (let s := (State.reset.setReg (.boot 0) 4 0x48000).setReg (.mac 0) 0 1; (s.ready 15 && (s.reg (.mac 0) 0).getLsbD 0) = true) ∧ (List.replicate 19 (0 : Byte)).length < 20 := by decide +kernel

/-! ### States that meet the hypotheses of each statement: peripheral DMA, links, crates, clocks -/

/-- A descriptor in the first bytes of hub DRAM: 64 bytes from one acoustic buffer to another, burst 64, line 60. -/
def descSt : State := State.reset.write 0x4000000000 (toLe 64 (0xF401890000 + 64 * 2 ^ 64 + 2 ^ 96 + 0xF401891000 * 2 ^ 160 + 64 * 2 ^ 224 + 2 ^ 256 + 60 * 2 ^ 320))
def checking (s : State) : State :=
  (withCh s { armedCh 0 0 0 with st := .checking, desc := none } []).setReg (.pdma 0) (0x104 + 32 * 15) 0x40
theorem test_wit_PeripheralDma_arm : (State.reset.chan 0 15).st = .idle ∧ ((withCh State.reset (armedCh 5 1 0) []).chan 0 15).st = .armed ∧
    ((checking State.reset).chan 0 15).st = .checking ∧ (checking State.reset).descAddr 0 15 = 0x4000000000 ∧ dramWin 0x4000000000 = some 4 ∧
    State.reset.descAddr 0 15 = 0 ∧ dramWin 0 ≠ some 4 ∧ descSt.ecc = [] ∧ (checking descSt).armCause (fun o n => (checking descSt).num (0x4000000000 + o) n) = 0 ∧
    (checking State.reset).armCause (fun o n => (checking State.reset).num (0x4000000000 + o) n) = 1 := by decide +kernel
theorem test_wit_PeripheralDma_requests : (63 : Fin 64) ≠ 62 ∧ State.reset.hub.raised[(63 : Fin 64)] = 0 ∧
    (let s : State := { State.reset with hub := { State.reset.hub with raised := State.reset.hub.raised.set 5 2 } }; s.hub.raised[(5 : Fin 64)] ≠ 0 ∧ s.lineChan 5 = none ∧ Canonical s ∧
      (withCh s (armedCh 5 2 0) []).lineChan 5 = some (0, 15) ∧ ((withCh s (armedCh 5 2 0) []).chan 0 15).desc = some (chd 5)) ∧
    (armedCh 5 2 0).pend ≠ (armedCh 5 2 0).left ∧ (armedCh 5 2 0).pend < (chd 5).pend ∧ (armedCh 5 2 1).pend ≠ (armedCh 5 2 1).left ∧ (chd 5).pend ≤ (armedCh 5 2 1).pend ∧
    (let s := withCh { State.reset with hub := { State.reset.hub with soft := [(0, 15)] } } (armedCh 62 2 0) []
     s.hub.soft = [(0, 15)] ∧ s.boundTo 0 15 62 = true ∧ (s.chan 0 15).desc = some (chd 62)) := by unfold Canonical; decide +kernel
theorem test_wit_PeripheralDma_burst : (let s := withCh State.reset (armedCh 5 1 1) [15]
      (s.hub.dma[(0 : Fin 2)]).order.find? (fun c => decide (0 < (s.chan 0 c).pend ∧ 0 < (s.chan 0 c).left)) = some 15 ∧ (s.chan 0 15).desc = some (chd 5) ∧ s.ecc = [] ∧
      Memory.wf s.mem = true ∧
      s.portHeld 4 1 = false ∧ s.pieceCut (0xF401890000, 0xF401891000, 64) = 0 ∧ s.stores = []) ∧
    burstPieces (chd 5) ((chd 5).burst + 1) 0 (min (chd 5).burst ((chd 5).slen * (chd 5).scount - 0)) = [(0xF401890000, 0xF401891000, 64)] ∧ dieOf 0xF401890000 = 4 ∧ dieOf 0xF401891000 = 4 ∧
    dieOf (0xF401891000 + 64) = 4 ∧ winOf 0xF401890000 = none ∧ winOf 0xF401891000 = none ∧
    (State.reset.hub.dma[(0 : Fin 2)]).order.find? (fun c => decide (0 < (State.reset.chan 0 c).pend ∧ 0 < (State.reset.chan 0 c).left)) = none := by decide +kernel
/-- Port 1 of the hub in HOLD with its budget of one unit used up. -/
def inHold (s : State) : State := { s.setRegPort 4 1 ⟨1, 0, 0, 1, []⟩ with regHold := s.regHold.set 4 true }
theorem test_wit_PeripheralDma_held : (inHold State.reset).portHeld 4 1 = true ∧ ((inHold (checking State.reset)).chan 0 15).st = .checking ∧
    (let s := inHold (withCh State.reset (armedCh 5 1 1) [15])
     (s.hub.dma[(0 : Fin 2)]).order.find? (fun c => decide (0 < (s.chan 0 c).pend ∧ 0 < (s.chan 0 c).left)) = some 15 ∧ (s.chan 0 15).desc = some (chd 5) ∧ s.portHeld 4 1 = true) := by
  decide +kernel
theorem test_wit_PeripheralDma_ends : (let s := withCh State.reset (armedCh 5 0 0) []; s.chanDone 0 15 = true ∧ (s.chan 0 15).desc = some (chd 5) ∧ (chd 5).irq = false) ∧
    (let s := withCh State.reset (armedCh 5 1 0) []; s.chanDone 0 15 = false ∧ (s.chan 0 15).st = .armed) ∧ (State.reset.chan 0 15).st ≠ .armed ∧ State.reset.chanDone 0 15 = false := by decide +kernel
/-- The hub's handover port of CD3 drains queue 0x6001, which holds an entry. -/
def hoSt (fifo : List W32) : State :=
  let s := (State.reset.setReg (.pdma 0) (0x40 + 16 * 3) 0x80006001).setQueueAt 0x6001 ⟨[0x00100000], [], none, none⟩
  { s with hub := { s.hub with ho := s.hub.ho.set 3 ⟨fifo, 0, false, false⟩ } }
theorem test_wit_PeripheralDma_handover : (hoSt []).hoQueue 3 = some 0x6001 ∧
    (let s := (hoSt []).setReg (.d2d 3) 0x120 2
     s.hoQueue 3 = some 0x6001 ∧ s.edgeUp 3 4 = true ∧ s.crossCode 3 4 = 0 ∧ ((s.queueAt 0x6001).get? (s.queueNow 0x6001)).map (·.1) = some 0x00100000 ∧
       (s.hub.ho[(3 : Fin 4)]).fifo.length < 64 ∧ (s.hub.ho[(3 : Fin 4)]).pair = false) ∧
    (let s := ((hoSt []).setReg (.d2d 3) 0x120 2).setQueueAt 0x6001 ⟨[0x00300000], [], none, none⟩
     ((s.queueAt 0x6001).get? (s.queueNow 0x6001)).map (·.1) = some 0x00300000 ∧ bits 0x00300000#32 23 20 = 3 ∧ s.edgeUp 3 4 = true ∧ s.crossCode 3 4 = 0) ∧
    ((hoSt []).queueAt 0x6001).lastGet ≠ some ((hoSt []).queueNow 0x6001) ∧ ((hoSt []).queueAt 0x6001).lastPut ≠ some ((hoSt []).queueNow 0x6001) ∧ ((hoSt []).queueAt 0x6001).entries = [0x00100000] ∧ ((hoSt []).hub.ho[(3 : Fin 4)]).fifo = [] ∧
    bits 0x00100000#32 23 20 ≠ 3 ∧ ((hoSt (List.replicate 64 1)).hub.ho[(3 : Fin 4)]).fifo.length = 64 ∧ ((hoSt [7]).hub.ho[(3 : Fin 4)]).fifo = [7] ∧ (13 : Fin 22).val < 14 := by decide
/-- Module 9 of CD0, which joins CD0 with the hub, in a state, and what stands in its link. -/
def modSt (st : W32) (k : Link) : State := (State.reset.setReg (.d2d 0) (0x100 + 4 * 9) st).setLink 0 9 k
/-- The peer of that module has sent its record. -/
def heard (s : State) : State := s.setLink 4 1 { Link.reset with sent := some (0, 0) }
/-- CD0 is fenced, and its live readmission has reset it and set up its DRAM. -/
def readmitted : State :=
  let s := ((modSt 3 Link.reset).setReg (.d2d 4) 0x20 1).setReg .hlth 0xC 0x10
  { s with hlth := { s.hlth with resetDone := [0] }, dramGib := s.dramGib.set 0 (some 32), isl := s.isl.map (fun k => { k with clkStop := [] }) }
theorem test_wit_LinkModules : Canonical (modSt 1 Link.reset) ∧ modPeer 0 9 = some (4, 1) ∧ (modSt 0 Link.reset).modState 0 9 = 0 ∧ (modSt 1 Link.reset).modState 0 9 = 1 ∧
    (modSt 2 Link.reset).modState 0 9 = 2 ∧ (modSt 3 Link.reset).modState 0 9 = 3 ∧ (modSt 1 Link.reset).awaitsRecord 0 9 = true ∧ (modSt 2 Link.reset).awaitsRecord 0 9 = false ∧
    (modSt 1 { Link.reset with retrain := true }).link 0 9 = { Link.reset with retrain := true } ∧
    ((modSt 3 Link.reset).setReg (.d2d 4) 0x20 1).fenced 0 = true ∧ ((modSt 3 Link.reset).setReg (.d2d 4) 0x20 1).relinking 0 = false ∧
    ((modSt 3 Link.reset).setReg (.d2d 4) 0x20 1).relinking 4 = false ∧ (modSt 3 Link.reset).fenced 0 = false ∧ (modSt 3 Link.reset).fenced 4 = false ∧
    readmitted.modState 0 9 = 3 ∧ readmitted.fenced 0 = true ∧ readmitted.relinking 0 = true ∧ Canonical readmitted ∧
    ((modSt 2 { Link.reset with msg := some 2 }).link 0 9).msg = some 2 := by unfold Canonical; decide +kernel
theorem test_wit_LinkModules_checked : (heard (modSt 1 Link.reset)).awaitsRecord 0 9 = true ∧ ((heard (modSt 1 Link.reset)).link 4 1).sent ≠ none ∧
    ((modSt 1 Link.reset).link 4 1).sent = none ∧
    (let s := ((modSt 1 Link.reset).setReg (.d2d 0) (0x1C0 + 4 * 9) 1).setReg (.d2d 4) 0x104 2
     s.modState 0 9 = 1 ∧ (s.link 0 9).retrain = false ∧ s.awaitsRecord 0 9 = false ∧ s.checked 4 1 = true) ∧
    (let s := (modSt 1 Link.reset).setReg (.d2d 0) (0x1C0 + 4 * 9) 1; s.checked 0 9 = true ∧ s.checked 4 1 = false) := by decide +kernel
/-- The record that the peer sends, and one of another protocol. -/
theorem test_wit_LinkModules_record : (let w0 := BitVec.ofNat 32 (capWord 0 9)
    let v := capMeet (capWord 0 9) w0.toNat
    ¬ (v / 2 ^ 24 % 16 = 0 ∨ v / 128 % 2 = 0 ∨ v / 256 % 2 ^ 15 ≠ 0x7FFF ∨ w0.toNat % 8 ≠ capWord 0 9 % 8)) ∧
    capMeet (capWord 0 9) 0 / 2 ^ 24 % 16 = 0 ∧ bits (4 + 1 * 8 : BitVec 32) 2 0 = 4 ∧ bits (4 + 1 * 8 : BitVec 32) 6 3 = 1 := by decide +kernel
theorem test_wit_LinkModules_flits : (let s := modSt 2 { Link.reset with bad := 14 }; (s.link 0 9).bad < 15 ∧ s.fld (.d2d 0) (0x140 + 4 * 9) 15 0 < s.fld (.d2d 0) 8 15 0) ∧
    (let s := modSt 2 { Link.reset with bad := 15 }; (s.link 0 9).bad = 15 ∧ s.fld (.d2d 0) (0x140 + 4 * 9) 15 0 + 257 ≤ s.fld (.d2d 0) 8 15 0 ∧ s.modState 4 1 ≠ 2) ∧
    (let s := (modSt 2 { Link.reset with bad := 15 }).setReg (.d2d 4) 0x104 2; s.modState 4 1 = 2 ∧ s.fld (.d2d 4) (0x140 + 4 * 1) 15 0 + 256 ≤ s.fld (.d2d 4) 8 15 0) := by decide +kernel
/-- A crate of a kind for the local store of cell 0, on the hub with a route, where the hub's module 1 to CD0 is in service. -/
def crate (k : CrateKind) (who : CrateBy) (route : List (Fin 7)) : Crate :=
  { num := 3, kind := k, req := .wr, who := who, src := 0, cur := 4, route := route, back := [4, 0], pa := lsBase c0, len := 2, data := [1, 2], mark := false, dest := lsBase c0 + 32, q := 511, val := 9,
    scope := .pkg, timedOut := false, modl := some 9, path := 0 :: 4 :: route, passed := [] }
def crateSt (c : Crate) : State := { (moving [mv0]).setReg (.d2d 4) 0x104 2 with crates := [c] }
/-- Crossings that a far reset holds. -/
def cut (s : State) (l : List Crossing) : State := { s with crossings := l }
theorem test_wit_CrateDelivery : (let c := crate .wr (.eng q0) [0, 1]; (crateSt c).crateAt 3 = some c ∧ c.num = 3 ∧ Memory.wf (crateSt c).mem = true ∧ (crateSt c).nextCode c = 0 ∧
      (crateSt c).mayCross c = true ∧ c.route = [0, 1] ∧ c.who = .eng q0) ∧
    (let c := crate .wr (.eng q0) [0]; (crateSt c).nextCode c = 0 ∧ (crateSt c).mayCross c = true ∧ (crateSt c).home c.pa = c.pa ∧ ∀ i, i < c.data.length → (crateSt c).home (c.pa + i) = c.pa + i) ∧
    (let c := crate .rd (.eng q0) [0]; (crateSt c).nextCode c = 0 ∧ (crateSt c).mayCross c = true ∧ (crateSt c).ecc = []) ∧
    (let c := crate .tput (.eng q0) [0]; (crateSt c).nextCode c = 0 ∧ (crateSt c).mayCross c = true) ∧
    (let c := crate .rdata (.move c0 0) [0]; (crateSt c).nextCode c = 0 ∧ (crateSt c).mayCross c = true ∧ (crateSt c).moveWants c0 0 c.dest = true ∧ (crateSt c).moveAt c0 0 = some mv0 ∧
      mv0.overlap = false ∧ (dieOf c.dest).val = c0.die.val ∧ winOf c.dest = none) ∧
    (let c := crate .ack (.eng q0) [0]; (crateSt c).nextCode c = 0 ∧ (crateSt c).mayCross c = true) := by decide +kernel
theorem test_wit_CrateDelivery_waits : (let c := crate .wr (.eng q0) [0, 1]; let s := (crateSt c).setReg (.d2d 4) 0x104 1; s.crateAt 3 = some c ∧ s.nextCode c = 0 ∧ s.mayCross c = false) ∧
    (let c := crate .wr (.eng q0) [0, 1]; (cut (crateSt c) [⟨4, Fin.ofNat 18 (linkDom 0), true, false⟩]).nextCode c = 6) ∧
    (let c := crate .wr (.eng q0) [0]; (cut (crateSt c) [⟨0, 4, false, true⟩]).nextCode c = 7) ∧
    (let c := crate .wr (.eng q0) [0, 1]; Canonical (crateSt c) ∧ c.modl = some 9 ∧ (crateSt c).fld (.d2d c.src) (0x140 + 4 * 9) 15 0 + 256 ≤ (crateSt c).fld (.d2d c.src) 8 15 0) ∧
    (let c := crate .tput (.eng q0) [0]
     let s := ((crateSt c).setQueueAt 511 ⟨List.replicate 15 1, [⟨.crate 3, 9, 0⟩], none, none⟩).modCell c0 (fun k => { k with cycle := 1 })
     (s.queueAt c.q).waiting = [⟨.crate 3, 9, 0⟩] ∧ 0 < s.queueNow c.q ∧ (s.queueAt c.q).lastPut ≠ some (s.queueNow c.q) ∧ (s.queueAt c.q).entries.length < 16) := by
  unfold Canonical; decide +kernel
theorem test_wit_FencesAndClocks_dies : Canonical State.reset ∧ (8#4).getLsbD 3 = true ∧ State.reset.fenced 3 = false ∧ 3 ∈ edgeMods 3 1 ∧ ringEdges[3]? = some (2, 3) ∧ State.reset.edgeOut 2 3 = false ∧
    (let s := (List.range 4).foldl (fun s m => s.setReg (.d2d 2) (0x110 + 4 * m) 3) State.reset; s.edgeOut 2 3 = true ∧ s.fenced 2 = false ∧ s.fenced 3 = false) ∧
    (State.reset.setReg (.d2d 4) 0x20 8).fenced 3 = true ∧ 8#4 = BitVec.ofNat 4 (2 ^ 3) := by unfold Canonical; decide +kernel
/-- CD3 fenced, in its live readmission, with all its modules in service again and every unit tested since its reset. -/
def serviced : State :=
  let s := (List.range 7).foldl (fun s d => (List.range 10).foldl (fun s m => s.setReg (.d2d (Fin.ofNat 7 d)) (0x100 + 4 * m) 2) s) ((State.reset.setReg (.d2d 4) 0x20 8).setReg .hlth 0xC 0x80)
  { s with hlth := { s.hlth with resetDone := [3] }, dramGib := s.dramGib.set 3 (some 32), tests := s.tests.set 3 { s.tests[(3 : Fin 4)] with done := List.range 19 } }
theorem test_wit_FencesAndClocks_unfence : serviced.fenced 3 = true ∧ serviced.readmitting 3 = true ∧ serviced.hlth.resetDone.contains 3 = true ∧
    (∀ z ∈ neighbours 3, (∀ m ∈ edgeMods 3 z, serviced.modState 3 m = 2) ∧ (∀ m ∈ edgeMods z 3, serviced.modState z m = 2)) ∧
    (∀ u, u < 19 → u ∈ (serviced.tests[(3 : Fin 4)]).done) ∧ (State.reset.setReg (.d2d 4) 0x20 8).readmitting 3 = false := by decide +kernel
theorem test_wit_FencesAndClocks_crossings : hasCrossing 4 8 = true ∧ hasCrossing 5 0 = false ∧ State.reset.crossing 4 8 = none ∧ State.reset.crossOut 4 8 = false ∧
    (let s : State := { State.reset with crossings := [⟨4, 8, true, false⟩] }; s.crossing 4 8 = some ⟨4, 8, true, false⟩) := by decide +kernel
/-- SIA judges domain 17 with frequency checks on, and a count of 0. -/
theorem test_wit_FencesAndClocks_windows : (let s : State := ({ upSt with isl := upSt.isl.set 0 { upSt.isl[(0 : Fin 2)] with judge := [17] } } : State).setReg (.cdc 5) 0x100 0x15
    (s.isl[(0 : Fin 2)]).up = true ∧ (s.reg (.cdc 5) 0x100).getLsbD 0 = true ∧ (s.isl[(0 : Fin 2)]).judge.contains 17 = true ∧ (s.isl[(0 : Fin 2)]).skipWin.contains 17 = false ∧
    (s.isl[(0 : Fin 2)]).clkStop.contains 17 = false ∧ freqBad (s.domKhz 17) (s.tolOf 0 17) (min ([].getD 17 0) 0x1FFFF) = true) ∧
    (State.reset.isl[(0 : Fin 2)]).up = false := by decide +kernel

/-- A burst whose source lies in a sensor window of a domain whose crossing is stalled. -/
def cutWindow : State := cut (withCh State.reset { armedCh 5 1 1 with desc := some { chd 5 with src := 0xF401400000 } } [15]) [⟨4, 10, false, true⟩]
theorem test_wit_PeripheralDma_burst_cut : (let dd : ChDesc := { chd 5 with src := 0xF401400000 }
      (cutWindow.hub.dma[(0 : Fin 2)]).order.find? (fun c => decide (0 < (cutWindow.chan 0 c).pend ∧ 0 < (cutWindow.chan 0 c).left)) = some 15 ∧ (cutWindow.chan 0 15).desc = some dd ∧
      cutWindow.portHeld 4 1 = false ∧ ((dd.burstAt 0).map cutWindow.pieceCut).find? (· ≠ 0) = some 7) ∧
    (let s := withCh State.reset (armedCh 5 1 1) [15]; ∀ z ∈ (chd 5).burstAt 0, s.pieceCut z = 0) ∧ dieOf 0x2000000000 ≠ 4 := by decide +kernel
/-- SIA asserts the lines of CD3's clock domains. -/
def stopped : State := { State.reset with isl := State.reset.isl.set 0 { State.reset.isl[(0 : Fin 2)] with clkStop := [3, 7] } }
theorem test_wit_PeripheralDma_regWindow : State.reset.clocked5 3 ∧ ¬ stopped.clocked5 3 ∧ State.reset.holdMode 4 = false ∧ sparseWf regPortDflt none State.reset.regPorts = true ∧
    (let s := (inHold State.reset).setReg (.reg 4) 0x10C 2
     let s := s.setRegPort 4 1 ⟨0, 0, 0, 2, [(3, 4)]⟩
     s.clocked5 4 ∧ s.holdMode 4 = true ∧ bits (s.reg (.reg 4) (0x104 + 8 * 1)) 23 0 = 2 ∧ (s.regPort 4 1).owed = [(3, 4)] ∧ (0 : Nat) < 4) := by unfold State.clocked5; decide +kernel
theorem test_wit_PeripheralDma_job : ((withCh State.reset { armedCh 5 1 0 with st := .faulted, desc := none } []).chan 0 15).st = .faulted ∧
    (let s : State := (withCh State.reset (armedCh 5 1 0) []); (s.chan 0 15).st = .armed ∧ s.chanDone 0 15 = false ∧ (s.chan 0 15).desc = some (chd 5)) := by decide +kernel
/-- A write to a cell of CD0 that comes from its ring neighbour CD1, and one from its hub module. -/
def ringWr : Crate := { crate .wr (.eng q0) [0] with cur := 1 }
/-- A load of host core 0 whose read has gone out as crate 3. -/
def hostLd : State := { (crateSt (crate .rdata (.host 0) [4])) with crates := [{ crate .rdata (.host 0) [4] with cur := 0 }] }.setHold (.host 0) (.hostRead 3 5 2 false 0)
theorem test_wit_CrateDelivery_gate : (let s := { (crateSt ringWr) with crates := [ringWr] }.setReg (.d2d 1) 0x100 2
      let s := (List.range 10).foldl (fun s m => s.setReg (.d2d 1) (0x100 + 4 * m) 2) s
      s.crateAt 3 = some ringWr ∧ s.nextCode ringWr = 0 ∧ s.mayCross ringWr = true ∧ ringWr.route = [0] ∧ s.cellGate ringWr = true) ∧
    (let c := crate .wr (.eng q0) [0]; (crateSt c).cellGate c = false) := by decide +kernel
theorem test_wit_CrateDelivery_host : (let c : Crate := { crate .rdata (.host 0) [4] with cur := 0 }
      let s := (List.range 10).foldl (fun s m => s.setReg (.d2d 0) (0x100 + 4 * m) 2) hostLd
      s.crateAt 3 = some c ∧ s.nextCode c = 0 ∧ s.mayCross c = true ∧ c.mark = false ∧ s.hold (.host 0) = .hostRead 3 5 2 false 0) ∧
    (let c := crate .rdata (.move c0 0) [0]; (crateSt c).memCut 0 = 0) := by decide +kernel
theorem test_wit_CrateDelivery_ends : (let c := crate .wr (.eng q0) [0, 1]; let s := cut (crateSt c) [⟨4, Fin.ofNat 18 (linkDom 0), true, false⟩]; c.route = 0 :: 1 :: [] ∧ s.nextCode c ≠ 0) ∧
    (let c := crate .wr (.eng q0) [0]; let s := cut (crateSt c) [⟨0, 4, false, true⟩]; c.route = [0] ∧ s.nextCode c ≠ 0 ∧ c.kind = .wr) := by decide +kernel
theorem test_wit_FencesAndClocks_ready : (let s := { serviced with tests := State.reset.tests }
      s.fenced 3 = true ∧ s.readmitting 3 = true ∧ s.hlth.resetDone.contains 3 = true ∧ ∀ z ∈ neighbours 3, (∀ m ∈ edgeMods 3 z, s.modState 3 m = 2) ∧ (∀ m ∈ edgeMods z 3, s.modState z m = 2)) ∧
    (let s : State := { State.reset with crossings := [⟨4, 8, true, false⟩] }; (s.crossing 4 8 = some ⟨4, 8, true, false⟩) ∧ (⟨4, 8, true, false⟩ : Crossing).reset = true) ∧
    (let s : State := { State.reset with crossings := [⟨4, 8, false, true⟩] }; s.crossing 4 8 = some ⟨4, 8, false, true⟩) := by decide +kernel
theorem test_wit_FencesAndClocks_stop : (let s : State := ({ upSt with isl := upSt.isl.set 1 { upSt.isl[(1 : Fin 2)] with judge := [9] } } : State).setReg (.cdc 6) 0x100 1
    (s.isl[(1 : Fin 2)]).up = true ∧ (s.reg (.cdc 6) 0x100).getLsbD 0 = true ∧ (s.isl[(1 : Fin 2)]).judge.contains 9 = true ∧ (s.isl[(1 : Fin 2)]).clkStop.contains 9 = false) := by decide +kernel
theorem test_wit_LinkModules_relink : (let s := readmitted; s.modState 0 9 = 3 ∧ (s.fenced 0 = true ∨ s.fenced 4 = true) ∧ s.relinking 0 = true) ∧
    (let s := (modSt 3 Link.reset).setReg (.d2d 4) 0x20 1; s.modState 0 9 = 3 ∧ s.fenced 0 = true ∧ s.relinking 0 = false ∧ s.relinking 4 = false) ∧
    (modSt 3 { Link.reset with msg := some 2 }).modState 0 9 = 3 ∧ ((modSt 1 Link.reset).link 0 9).msg = none ∧ (modSt 1 { Link.reset with retrain := true }).modState 0 9 = 1 := by decide +kernel

/-! ### States that meet the hypotheses of each statement: islands, power, temperature, health -/

/-- An island after a change, where both run. -/
def island (i : Fin 2) (f : Island → Island) : State := upSt.modIsl i f
theorem test_wit_IslandSafeState : (upSt.isl[Isl.sib.num]).up = true ∧ (State.reset.isl[Isl.sib.num]).pull = false ∧ ((island 1 (fun k => { k with pull := true })).isl[Isl.sib.num]).pull = true ∧
    State.reset.faultLow = false ∧ ({ State.reset with faultExt := true } : State).faultLow = true ∧ (State.reset.isl[Isl.sib.num]).active 0x16 0 = false ∧ (State.reset.isl[Isl.sib.num]).own < 256 ∧
    crc8 ((0xFF00000000000000#64) &&& 0x00FFFFFFFFFFFFFF#64) ≠ ((0xFF00000000000000#64) >>> 56).setWidth 8 ∧
    (let k := (island 0 (fun k => { k with fresh := true, peerArm := true })).isl[Isl.sia.num]; k.level < 4 ∧ k.sl4 = false ∧ k.fresh = true ∧ k.peerArm = true ∧ k.dropped = false) ∧
    ((island 1 (fun k => { k with up := false })).isl[Isl.sib.num]).up = false ∧ Canonical State.reset := by unfold Canonical; decide +kernel
/-- A good cross-link frame at level 4. -/
theorem test_wit_IslandSafeState_frame : (let low : BitVec 64 := 4
    let f : BitVec 64 := low ||| ((crc8 low).setWidth 64 <<< 56)
    crc8 (f &&& 0x00FFFFFFFFFFFFFF#64) = (f >>> 56).setWidth 8 ∧ 4 ≤ f.toNat % 8) := by decide +kernel
/-- SIA reads the safety page at the start of hub DRAM, its first words `n` and `beat`, and a mailbox entry. -/
def pageSt (n beat w q : Nat) : State :=
  (((((((island 0 (fun k => { k with func := 0x18 })).setReg (.d2d 5) 0x100 2).setReg (.safe 0) 0x18 0x40).write 0x4000000000 (toLe 8 (n + beat * 2 ^ 32)))).write
    0x4000000800 (toLe 8 (w + q * 2 ^ 32))))
theorem test_wit_SafetyPageAndReports_polls (h : 64 ≤ hubUsable) : (pageSt 1 5 0x80400100 0).polls 0 = true := by
  have h1 : dramOk 0x4000000000 = true := decide_eq_true (by show _ < hubUsable; omega)
  have hp : (pageSt 1 5 0x80400100 0).safePage 0 = 0x4000000000 := by decide
  unfold State.polls
  rw [hp, h1]
  decide +kernel
/-- An island that reads the hub's ready bits, and two that do not. -/
theorem test_wit_IslandSafeState_ready : (((pageSt 1 5 0 0).isl[Isl.sia.num]).active 0x15 0 || !(pageSt 1 5 0 0).hubLink Isl.sia.num) = false ∧
    ((State.reset.isl[Isl.sib.num]).active 0x15 0 || !State.reset.hubLink Isl.sib.num) = true ∧
    (((pageSt 1 5 0 0).raiseTrig 0 0x15 0 4).isl[Isl.sia.num]).active 0x15 0 = true := by decide +kernel
/-- The mailbox: nothing new, a raise of trigger 1 of instance 0, its clear; and a beat that stood still. -/
theorem test_wit_SafetyPageAndReports_mail : (pageSt 0 5 0 0).num 0x4000000000 4 = 0 ∧ (pageSt 1 5 0x80400100 0).num 0x4000000000 4 = 1 ∧ (pageSt 1 5 0x80400100 0).num 0x4000000804 4 = 0 ∧
    (pageSt 1 5 0x80400100 0).num 0x4000000800 4 = 0x80400100 ∧ mailOk 0x80400100 = true ∧ (0x80400100#32).getLsbD 31 = true ∧ bits 0x80400100#32 15 8 = 1 ∧ mailOk 0x00400100 = true ∧
    (0x00400100#32).getLsbD 31 = false ∧ ((pageSt 1 5 0 0).isl[(0 : Fin 2)]).active 1 0 = false ∧ ((pageSt 1 5 0 0).isl[(0 : Fin 2)]).clears = [] ∧ ((pageSt 1 5 0 0).isl[(0 : Fin 2)]).kindSeen = false ∧
    ((pageSt 1 5 0 0).isl[(0 : Fin 2)]).func.getLsbD 3 = true ∧ (pageSt 1 0 0 0).num 0x4000000004 4 = ((pageSt 1 0 0 0).isl[(0 : Fin 2)]).beat.toNat ∧
    (pageSt 1 5 0 0).num 0x4000000004 4 ≠ ((pageSt 1 5 0 0).isl[(0 : Fin 2)]).beat.toNat ∧ State.reset.polls 0 = false ∧
    ((State.reset.write 0x40000001FC (toLe 4 9)).num (0x4000000000 + 0x104 + 8 * 31) 4 ≠ 0) := by decide +kernel
theorem test_wit_SafetyPageAndReports_reports : ((island 1 (fun k => { k with pairAt := [(3, 0)], time := 600000000000 })).isl[Isl.sib.num]).time.toNat ≤ 0 + 600000000000 ∧
    (State.reset.isl[Isl.sib.num]).active 0x0F 3 = false ∧ (State.reset.isl[Isl.sib.num]).pairAt = [] ∧ (((island 1 (fun k => { k with pairSeen := [(0x0F, 3, 7)] })).isl[Isl.sib.num]).pairSeen.find? (fun x => x.2.1 == 3) = some (0x0F, 3, 7)) ∧
    (State.reset.isl[Isl.sib.num]).active 0x0E 4 = false ∧ (testSeq 18)[0]? = some (true, 200) ∧ (State.reset.tests[(3 : Fin 4)]).slices = [] ∧ State.reset.sliceOk 3 18 200 = false ∧
    serviced.sliceOk 3 18 200 = true ∧ (serviced.tests[(3 : Fin 4)]).slices = [] ∧ tallyOf (serviced.tests[(3 : Fin 4)]).pos 18 = 0 ∧ (testSeq 18).length = 3 := by decide +kernel
theorem test_wit_SafetyPageAndReports_slices : (let s : State := { State.reset with tests := State.reset.tests.set 3 { slices := [⟨18, true, 0⟩], pos := [(18, 2)], mark := none, done := [] } }
    (∃ y ∈ (s.tests[(3 : Fin 4)]).slices, y.unit = 18) ∧ (testSeq 18).length ≤ tallyOf (s.tests[(3 : Fin 4)]).pos 18 + 1) ∧ 0 + 1 < (testSeq 18).length ∧
    ∀ y ∈ (State.reset.tests[(3 : Fin 4)]).slices, y.unit ≠ 18 := by decide +kernel
/-- The part while PWROK is low, which SIA has captured. -/
def unpowered : State := { island 0 (fun k => { k with pwrLow := true }) with pwrok := false }
theorem test_wit_PowerAndResets : State.reset.pwrok = true ∧ (unpowered.pwrok = false ∧ (unpowered.isl[(0 : Fin 2)]).pwrLow = true ∧ (unpowered.isl[(1 : Fin 2)]).pwrLow = false ∧ unpowered.dump.run = none) ∧
    (let s : State := { State.reset with pwrok := false }; s.pwrok = false ∧ (s.isl[(0 : Fin 2)]).pwrLow = false ∧ (s.isl[(1 : Fin 2)]).pwrLow = false) ∧
    (let s : State := { unpowered with dump := { State.reset.dump with run := some (0, 0) } }; s.dump.run ≠ none ∧ s.pwrok = false ∧ (s.isl[(0 : Fin 2)]).pwrLow = true) ∧ (upSt.isl[(0 : Fin 2)]).up = true ∧
    ((island 0 (fun k => { k with up := false })).isl[(0 : Fin 2)]).up = false ∧ ((island 0 (fun k => { k with sleep := true })).isl[(0 : Fin 2)]).sleep = true ∧ (State.reset.isl[(0 : Fin 2)]).sleep = false ∧
    railOk 2 0 = false ∧ ((island 0 (fun k => { k with railBad := k.railBad.set 2 9 })).isl[(0 : Fin 2)]).railBad[(2 : Fin 8)] = 9 ∧ (∀ c : Fin 8, (State.reset.isl[Isl.sib.num]).railBad[c] < 9) ∧
    (let s := State.reset.modTherm (fun t => { t with cap := t.cap.set 3 (some 50) }); s.therm.cap[3] = some 50) ∧
    ((State.reset.setReg (.d2d 5) 0x100 2).reaches 4 = true) ∧ State.reset.reaches 4 = false ∧ isSleepFrame [] = false := by decide +kernel
/-- The sleep frame of the vehicle, whose data ID the part is configured with. -/
def sleepData : List Byte := withTrailer (List.replicate 12 0#8 ++ toLe 2 Config.sleepId.toNat ++ List.replicate 10 0#8)
theorem test_wit_PowerAndResets_sleep : isSleepFrame sleepData = true := by
  have h := Config.sleepId.isLt
  simp [isSleepFrame, sleepData, withTrailer, toLe, leNat, List.replicate]
  omega
theorem test_wit_ThermalLadder : (let s := (State.reset.setReg .therm 0 1).modTherm (fun t => { t with since := t.since.set 3 19, below := t.below.set 3 999 })
      s.unfenced 3 = true ∧ (s.reg .therm 0).getLsbD 0 = true ∧ s.therm.cmd[(3 : Fin 4)] = none ∧ s.stepOf 3 < 3 ∧ 19 ≤ s.therm.since[(3 : Fin 4)] ∧ 999 ≤ s.therm.below[(3 : Fin 4)] ∧ s.clamped = false) ∧
    (State.reset.modTherm (fun t => { t with since := t.since.set 3 18 })).therm.since[(3 : Fin 4)] < 19 ∧ 0 < (State.reset.setReg .therm 8 0x80).stepOf 3 ∧ (State.reset.setReg (.d2d 4) 0x20 8).unfenced 3 = false ∧
    (let s := ((State.reset.modTherm (fun t => { t with cmd := t.cmd.set 3 (some 2) })).setReg (.d2d 5) 0x100 2).setReg (.d2d 3) 0x120 2
     s.therm.cmd[(3 : Fin 4)] = some 2 ∧ s.unfenced 3 = true ∧ s.reaches 3 = true ∧ Canonical s) ∧ State.reset.reaches 3 = false ∧ (∀ g ∈ (State.reset.isl[(0 : Fin 2)]).trigs, g.id ≠ 0x18) ∧
    (let s := (State.reset.setReg .therm 0 2).setReg .therm 0x58 400; s.clamped = true ∧ 400 ≤ s.fld .therm 0x58 15 0 ∧ s.therm.outlet < 3 ∧ Canonical s) ∧
    (State.reset.setReg .therm 0x58 399).fld .therm 0x58 15 0 < 400 := by unfold Canonical; decide +kernel
theorem test_wit_HealthAndReadmission : (upSt.isl[(1 : Fin 2)]).up = true ∧ partClass 83 = some 3 ∧ partDie 39 = some 3 ∧ ([(23, 5)] : List (Nat × Nat)).getD 0 (0, 0) = (23, 5) ∧
    State.reset.hlth.ages = [] ∧ (List.replicate 7 true).getD (monDie 23) false = true ∧ ((State.reset.setReg .hlth 0xC 0x80).reg .hlth 0xC).getLsbD (4 + 3) = true ∧
    (State.reset.reg .hlth 0xC).getLsbD (4 + 3) = false ∧ (State.reset.setReg (.d2d 4) 0x20 8).fenced 3 = true ∧ State.reset.fenced 3 = false ∧ (∀ i : Fin 2, (State.reset.isl[i]).clkStop = []) ∧
    serviced.fenced 3 = true ∧ (serviced.reg .hlth 0xC).getLsbD (4 + 3) = true ∧ (∀ i : Fin 2, (serviced.isl[i]).clkStop = []) ∧ serviced.crates = [] ∧
    (∀ y ∈ neighbours 3, serviced.crossing y (Fin.ofNat 18 (linkDom 3)) = none) ∧
    (3 : Fin 18) ∈ ((island 0 (fun k => { k with clkStop := [3] })).isl[(0 : Fin 2)]).clkStop ∧ ({ State.reset with dramGib := State.reset.dramGib.set 3 (some 8) } : State).dramDiffer = false ∧
    ({ State.reset with dramGib := (State.reset.dramGib.set 3 (some 8)).set 0 (some 16) } : State).dramDiffer = true := by decide +kernel

/-- SIA may set ARM: the hub has reported IMAGES and JOB, a JOB_KIND has been applied, a good frame is fresh; no record is checked, and nothing grants a write. -/
def armable : State := island 0 (fun k => { k with func := 0x600018, kindSeen := true, fresh := true, peerArm := true })
theorem test_wit_IslandSafeState_arm : armable.mayArm 0 = true ∧ Canonical armable ∧ (armable.isl[(0 : Fin 2)]).sl4 = false ∧ (armable.isl[(0 : Fin 2)]).dropped = false ∧ armable.faultLow = false ∧
    (armable.isl[(0 : Fin 2)]).up = true ∧ (upSt.isl[(0 : Fin 2)]).func.getLsbD 21 = false ∧ upSt.mayArm 0 = false := by unfold Canonical; decide +kernel
theorem test_wit_SafetyPageAndReports_acts : (let s : State := { upSt with inbox := upSt.inbox.set 1 [.islandMem 0 true] }; (s.isl[(1 : Fin 2)]).up = true ∧ s.inbox[(1 : Fin 2)] = [.islandMem 0 true]) ∧
    ((island 1 (fun k => { k with up := false })).isl[(1 : Fin 2)]).up = false ∧ (∀ d, upSt.readmitting d = false) ∧ Canonical (island 1 (fun k => { k with pairAt := [(3, 0)], time := 600000000000 })) ∧
    (∀ x ∈ (upSt.isl[(1 : Fin 2)]).pairSeen, x.2.1 ≠ 3) := by unfold Canonical; decide +kernel
theorem test_wit_SafetyPageAndReports_runs : serviced.clkStopped 3 = false ∧ (∀ r ∈ (serviced.tests[(3 : Fin 4)]).slices, r.unit ≠ 18 ∧ (r.logic && true) = false) ∧
    (let s := island 1 (fun k => { k with trigs := [⟨0x15, 0, 4, 0⟩] }); (s.isl[(1 : Fin 2)]).active 0x15 0 = true) := by decide +kernel
theorem test_wit_PowerAndResets_edges : (let s : State := { upSt with pwrok := true }; s.pwrok = true ∧ (s.isl[(1 : Fin 2)]).up = true) ∧ (State.reset.isl[(1 : Fin 2)]).up = false ∧
    State.reset.clocked5 3 ∧ upSt.therm.cap[3] = none ∧ ({ upSt.setReg (.d2d 5) 0x100 2 with pwrok := true } : State).reaches 4 = true ∧
    (let s := (upSt.setReg (.d2d 5) 0x100 2).setReg (.d2d 3) 0x120 2; s.reaches 3 = true ∧ (s.isl[(0 : Fin 2)]).up = true) ∧ railOk 2 (railNom 2) = true := by
  unfold State.clocked5; decide +kernel
/-- The ladder is on, and every node of the model stands at a temperature, in its units. -/
def heated (v : Int) (since below step : Nat) : State :=
  ((upSt.setReg .therm 0 1).setReg .therm 8 (BitVec.ofNat 32 (step * 64))).modTherm (fun t => { t with node := Vector.replicate 16 (v * 64 * 2 ^ 26), since := t.since.set 3 since, below := t.below.set 3 below })
/-- A sum of terms that are 0. -/
theorem fold_zero (k : Nat) (f : Nat → Int) : ∀ l : List Nat, (∀ j ∈ l, f j = 0) → l.foldl (fun a j => if j = k then a else a + f j) 0 = 0
  | [], _ => rfl
  | j :: r, h => by
    rw [List.foldl_cons, h j (by simp)]
    simpa using fold_zero k f r (fun x hx => h x (by simp [hx]))
/-- With no power, no flow and one temperature everywhere the model stands still, whatever its coefficients. -/
theorem steady_run (t : ThermIn) (v : Int) (l : List Int) (hl : l.length = 16) (hv : ∀ j, j < 16 → l.getD j 0 = v) (hp : ∀ k, t.into k = 0) (hf : t.flow = 0) : ∀ n, t.run n l = l := by
  have h : t.advance l = l := by
    apply List.ext_getElem
    · simp [ThermIn.advance, hl]
    · intro k _ hk
      have hk16 : k < 16 := hl ▸ hk
      have hg : l[k] = v := by rw [← hv k hk16]; simp [List.getD, hk]
      simp only [ThermIn.advance, List.getElem_map, List.getElem_range, hp, hf]
      rw [fold_zero k _ _ (fun j hj => by rw [hv j (List.mem_range.mp hj), hv k hk16, Int.sub_self, Int.mul_zero]), hv k hk16, hg]
      simp [roundQ]
  intro n
  induction n with
  | zero => rfl
  | succ n ih => rw [ThermIn.run, h, ih]
/-- A step of the model at such a standstill. -/
def still (s : State) : State :=
  let s := s.modTherm (fun t => { t with age := t.age.map (· + 1) })
  let l := s.therm.node.toList
  (List.range 7).foldl (fun s d => s.setReg .therm (0x10 + 4 * d) (BitVec.ofNat 32 (nodeTemp (l.getD (hotNode d) 0)))) s
def stillStep (s : State) : State := (((List.finRange 4).foldl State.ladderStep (still s)).flowWindow).thermalSample.setThermal
/-- Such a step of the whole ladder. -/
theorem heated_step (h : ∀ i, Config.islandPower i = 0) (v : Nat) (since below step : Nat) (s : State) (hs : s = heated v since below step) 
    (hu : (s.isl[(0 : Fin 2)]).up = true ∧ (s.modTherm (fun t => { t with age := t.age.map (· + 1) })).thermIn = ⟨[0, 0, 0, 0, 0], 4160, 0, false⟩ ∧ s.therm.reading = Vector.replicate 5 0) :
    run .thermalStep s = stillStep s := by
  obtain ⟨hu, ht, hr⟩ := hu
  have hn : s.therm.node = Vector.replicate 16 ((v : Int) * 64 * 2 ^ 26) := by rw [hs]; rfl
  have hp : ∀ k, (⟨[0, 0, 0, 0, 0], 4160, 0, false⟩ : ThermIn).into k = 0 := by
    intro k
    have h5 : ([0, 0, 0, 0, 0] : List Nat).getD (k / 2) 0 = 0 := by
      rcases (by omega : k / 2 = 0 ∨ k / 2 = 1 ∨ k / 2 = 2 ∨ k / 2 = 3 ∨ k / 2 = 4 ∨ 5 ≤ k / 2) with h | h | h | h | h | h <;> simp [h, List.getD]
    unfold ThermIn.into; rw [h5]; simp [h]
  have hg : ∀ j, j < 16 → (Vector.replicate 16 ((v : Int) * 64 * 2 ^ 26)).toList.getD j 0 = (v : Int) * 64 * 2 ^ 26 := by
    intro j hj; simp only [Vector.toList_replicate, List.getD, List.getElem?_replicate, hj, if_true, Option.getD_some]
  have hm : s.modelStep = still s := by
    unfold State.modelStep still
    simp only [ht]
    have hl : (s.modTherm (fun t => { t with age := t.age.map (· + 1) })).therm.node = Vector.replicate 16 ((v : Int) * 64 * 2 ^ 26) := hn
    have hr' : (s.modTherm (fun t => { t with age := t.age.map (· + 1) })).therm.reading = Vector.replicate 5 0 := hr
    have hN : (Vector.ofFn (fun (k : Fin 16) => if h : k.val < 10 ∧ k.val % 2 = 0 then max ((Vector.replicate 16 ((v : Int) * 64 * 2 ^ 26)).toList.getD k.val 0)
        ((Vector.replicate 5 (0 : Int))[k.val / 2]'(by omega) * 2 ^ 26) else (Vector.replicate 16 ((v : Int) * 64 * 2 ^ 26)).toList.getD k.val 0)) = Vector.replicate 16 ((v : Int) * 64 * 2 ^ 26) := by
      apply Vector.ext
      intro k hk
      rw [Vector.getElem_ofFn, Vector.getElem_replicate, hg k hk]
      split
      · rw [Vector.getElem_replicate]; omega
      · rfl
    have hP : (List.finRange 5).any (fun (d : Fin 5) => decide ((Vector.replicate 16 ((v : Int) * 64 * 2 ^ 26)).toList.getD (hotNode d) 0 + 5 * 2 ^ 32 < (Vector.replicate 5 (0 : Int))[d] * 2 ^ 26)) = false := by
      rw [List.any_eq_false]
      intro d _
      have hd : hotNode d < 16 := by unfold hotNode; split <;> omega
      rw [hg _ hd]
      simp only [Fin.getElem_fin, Vector.getElem_replicate, decide_eq_true_eq]
      omega
    simp only [hl, hr', steady_run _ _ _ (by simp) hg hp rfl, hN, hP]
    have he : ∀ (x : State) (n : Vector Int 16), x.therm.node = n → x.modTherm (fun t => { t with node := n }) = x := by
      intro x n hx; rw [← hx]; rfl
    rw [he _ _ hl]; rfl
  show (match exec .thermalStep s with | .next t => t | _ => s) = _
  show s.thermalStep = _
  unfold State.thermalStep stillStep
  rw [hu, hm]; rfl
theorem test_wit_ThermalLadder_down (h : ∀ i, Config.islandPower i = 0) : (let s := heated 130 19 0 1; let t := run .thermalStep s
      s.unfenced 3 = true ∧ (s.reg .therm 0).getLsbD 0 = true ∧ s.therm.cmd[(3 : Fin 4)] = none ∧ t.tDown ≤ t.forecast 3 ∧ s.stepOf 3 < 3 ∧ 19 ≤ s.therm.since[(3 : Fin 4)] ∧ (s.isl[(0 : Fin 2)]).up = true) ∧
    (let s := heated 130 18 0 1; let t := run .thermalStep s; t.tDown ≤ t.forecast 3 ∧ s.therm.since[(3 : Fin 4)] < 19) := by
  have h1 := heated_step h 130 19 0 1 (heated 130 19 0 1) rfl (by decide +kernel)
  have h2 := heated_step h 130 18 0 1 (heated 130 18 0 1) rfl (by decide +kernel)
  simp only [h1, h2]
  decide +kernel
theorem test_wit_ThermalLadder_up (h : ∀ i, Config.islandPower i = 0) : (let s := heated 20 19 999 1; let t := run .thermalStep s
      t.forecast 3 < t.tUp ∧ t.forecast 3 < t.tDown ∧ 999 ≤ s.therm.below[(3 : Fin 4)] ∧ 0 < s.stepOf 3 ∧ s.clamped = false ∧ Canonical s) := by
  have h1 := heated_step h 20 19 999 1 (heated 20 19 999 1) rfl (by decide +kernel)
  simp only [h1]
  unfold Canonical
  decide +kernel
theorem test_wit_ThermalLadder_fenced : (let s := (heated 20 19 0 1).setReg (.d2d 4) 0x20 8; s.unfenced 3 = false ∧ (s.isl[(0 : Fin 2)]).up = true) ∧ upSt.clamped = false ∧ Canonical upSt ∧
    (let s := upSt.setReg .therm 0 2; s.clamped = true) ∧ upSt.reaches 3 = false := by unfold Canonical; decide +kernel
theorem test_wit_HealthAndReadmission_ages : (let s := island 1 (fun k => { k with rail := k.rail.set 3 (railNom 3) }); s.railSteady (monDie 15) = true ∧ monDie 15 = 3 ∧ s.pwrok = true ∧
      (∀ a ∈ s.hlth.ages, a.mon ≠ 15) ∧ Canonical s) ∧ upSt.railSteady (monDie 15) = false ∧ ({ upSt with pwrok := false } : State).pwrok = false := by unfold Canonical; decide +kernel
theorem test_wit_HealthAndReadmission_trains : (∀ h : (3 : Fin 5).val < 4, State.reset.fenced (Fin.ofNat 7 (3 : Fin 5).val) = false ∨
      State.reset.readmitting ⟨3, h⟩ = true ∧ State.reset.hlth.resetDone.contains ⟨3, h⟩ = true ∧ State.reset.clkStopped ⟨3, h⟩ = false) ∧
    serviced.fenced 3 = true ∧ serviced.readmitting 3 = true ∧ serviced.hlth.resetDone.contains 3 = true ∧ serviced.clkStopped 3 = false ∧ Canonical serviced ∧
    (State.reset.setReg (.d2d 4) 0x20 8).fenced 3 = true ∧ (State.reset.setReg (.d2d 4) 0x20 8).readmitting 3 = false ∧ (4 : Fin 5) = 4 := by unfold Canonical; decide +kernel

/-! ### A signed image: the key of the first vector of RFC 8032, a hub firmware image of R619 whose body is its job key list, and a job image of nothing -/

def edKey : List Byte := toLe 32 0x1a5107f7681a02af2523a6daf372e10e3a0764c9d3fe4bd5b70ab18201985ad7
def edSig : List Byte := toLe 64 0xd5e2cf239cd6a36b2f3dc478f055082b675c3dfdba30e11ae89f0fd8ecdd6d826c8e69de562a45d83647abe700b19c5c8718c0e9fee267d15b51896f555a269
def fwHead : List Byte := toLe 128 0xae09d84985c2f08650b37ea7a70caf1138795cba9c086e3b601229341a0a2f6c79c84ebe40af8d0a90a5243890b12853038e0bb45d4de2c9ca74a9dd159dd03c1a5107f7681a02af2523a6daf372e10e3a0764c9d3fe4bd5b70ab18201985ad7000000000000010000000003544f4f42
def fwBody : List Byte := toLe 256 0x1a5107f7681a02af2523a6daf372e10e3a0764c9d3fe4bd5b70ab18201985ad700000001
/-- The image: its header, the signature, zeros, and the body. -/
def fwImage : List Byte := fwHead ++ edSig ++ List.replicate 64 0#8 ++ fwBody
theorem test_ed25519_rfc8032 : ed25519Verify edKey [] (toLe 64 0xb107a8e4341516524be5b59f0f55bd26bb4f91c70391ec6ac3ba3901582b85f5501492265e073d874d9e5b81e7f87848a826e80cce2869072ac60c3004356e5) = true := by decide +kernel
theorem test_sha512_head : sha512 fwHead = toLe 64 0xacc31f0c7cc348dbeb7f97a1afae62a367b81a1762593bc78088ce43cdd323dd4b7114eced2579d90ae94630fb5d515c15a53447bea833836789a76f488e033f := by decide +kernel
theorem test_sha512_key : sha512 edKey = toLe 64 0xc3a9704714d475b52af1831b5106781802438ba9d3ef4d53c079c493826809470906752fc3f2c4237ae419e824172f03dcc7bfd90e47a018aabab42502a5020e := by decide +kernel
theorem test_image_signature : ed25519Verify edKey (sha512 fwHead) edSig = true := by rw [test_sha512_head]; decide +kernel
/-- An OTP whose slot 0 is programmed with the hash of that key, and versions that it asks for. -/
def fwOtp (svn : Nat) : Otp := { (State.reset.boot 0).otp with keys := (State.reset.boot 0).otp.keys.set 0 (toLe 64 0xc3a9704714d475b52af1831b5106781802438ba9d3ef4d53c079c493826809470906752fc3f2c4237ae419e824172f03dcc7bfd90e47a018aabab42502a5020e), prog := 1, svn := (State.reset.boot 0).otp.svn.set 3 svn }
theorem test_image_accepted : (verifyImage (fwOtp 0) 3 fwImage).toOption.map (fun x => (x.slot, x.svn, x.entry, x.body)) = some (0, 0, 0, fwBody) ∧ jobKeys fwBody = [edKey] := by decide +kernel
/-- The check that an image fails; 0 where it passes. -/
def failed (x : Except Nat BootImage) : Nat := match x with | .error n => n | .ok _ => 0
theorem test_image_checks : failed (verifyImage (fwOtp 0) 4 fwImage) = 1 ∧ failed (verifyImage { fwOtp 0 with rev := 1 } 3 fwImage) = 2 ∧ failed (verifyImage (fwOtp 1) 3 fwImage) = 3 ∧
    failed (verifyImage (fwOtp 0) 3 (fwHead ++ toLe 64 0 ++ List.replicate 64 0#8 ++ fwBody)) = 4 ∧
    failed (verifyImage (fwOtp 0) 3 (fwHead ++ edSig ++ List.replicate 64 0#8 ++ List.replicate 256 0#8)) = 5 := by decide +kernel
/-- A job image of nothing at the start of hub DRAM: its SECT_HASH and its SIG. -/
def jobImg : State := (State.reset.write 0x4000000080 (toLe 64 0x3eda27f97a3238a5817a4147bd31b9632fec7e87d21883ffb0f2855d3cd1d047cee96cd321a9f483dc15570b05e420d607806dd6502854f1bdb8ef7e35e183cf)).write 0x4000000180 (toLe 64 0xeedc2b50859584c4e839a4251c2dbd7621f01da53a7751bc94dbfd6dec78ff5f925b7fb8fa90ddfab7caf991dead618e83161e008cdc1954ea18a89fa0466cb)
theorem test_job_image : jobImg.imageVerified [edKey] 0x4000000000 = true ∧ jobImg.imageVerified [] 0x4000000000 = false := by decide +kernel

/-! ### States that meet the hypotheses of each statement: jobs, Hatch, debugger, boot -/

/-- The JOB_ block in a state, with what stands beside its registers. -/
def jobSt (st : W32) (f : JobSt → JobSt) : State := let s := State.reset.setReg .job 4 st; { s with job := f s.job }
/-- An image at the start of hub DRAM: its magic and its version, no dies; named by JOB_IMAGE and marked eligible. -/
def imageSt (st : W32) : State := (((jobSt st (fun j => { j with eligible := [0x4000000000] })).setReg .job 0x10 0x40).setReg (.boot 0) 4 0x200000).write 0x4000000000 (toLe 8 (0x424F4A50 + 0x0101 * 2 ^ 32))
theorem test_wit_JobLife_images : (imageSt 0).jobImage = 0x4000000000 ∧ (imageSt 0).jobState = 0 ∧ (imageSt 5).jobState = 5 ∧ (imageSt 2).jobState = 2 ∧ (imageSt 0).imageRefused 0x4000000000 = none ∧
    (imageSt 2).imageRefused 0x4000000000 = none ∧ State.reset.imageRefused 0 = some 0x15 ∧ State.reset.jobImage = 0 ∧ 0 ∉ State.reset.job.eligible ∧ (imageSt 1).jobState = 1 ∧ Canonical (imageSt 0) := by
  unfold Canonical; decide +kernel
theorem test_wit_JobLife_stops : (let s := jobSt 3 (fun j => { j with stop := some .switch, next := some 5, imm := true }); s.jobState = 3 ∧ s.jobIsStopped = true ∧ s.jobDrained = true ∧
      s.job.stop = some .switch ∧ s.job.next = some 5 ∧ s.job.imm = true) ∧
    (let s := jobSt 3 (fun j => { j with stop := some .switch }); s.jobState = 3 ∧ s.job.stop = some .switch ∧ s.job.imm = false) ∧
    (let s := jobSt 3 (fun j => { j with stop := some .abort, imm := true }); s.jobIsStopped = true ∧ s.jobDrained = true) ∧ State.reset.job.stop = none ∧ State.reset.job.restore = none ∧
    (jobSt 1 (fun j => { j with restore := some true })).job.restore = some true ∧
    (let s := jobSt 0x44 (fun j => { j with next := some 5 }); s.job.next = some 5 ∧ s.jobState = 4 ∧ s.fld .job 4 7 6 ≠ 0) ∧ State.reset.job.next = none ∧ State.reset.fld .job 4 7 6 = 0 := by decide +kernel
/-- A running job of CD3 whose engines have all halted, and one that has not. -/
def dieSt : State := (jobSt 2 id).write 0x10 (toLe 4 0x800)
theorem test_wit_JobLife_ends : (jobSt 2 id).allHalted = true ∧ (jobSt 2 id).jobState = 2 ∧ dieSt.jobState = 2 ∧ dieSt.diesOf dieSt.job.cur = [3] ∧ dieSt.allHalted = false := by decide +kernel
/-- A fault while a switch waits; a release with a move of an earlier job outstanding, and with none. -/
theorem test_wit_JobLife_waits : (let s : State := { jobSt 3 (fun j => { j with stop := some .switch }) with jobFaults := [(3, 15, 0x0D)] }; s.jobState = 3 ∧ s.job.stop = some .switch ∧ s.jobFaults ≠ []) ∧
    (let s := (dieSt.modCell ⟨3, 0⟩ (fun k => { k with moves := [mv0] })); s.liveDies 0 = [3] ∧ ⟨3, 0⟩ ∈ cellsOf (s.liveDies 0) ∧ (s.cell ⟨3, 0⟩).moves ≠ []) ∧
    (State.reset.liveDies 5 = []) ∧ (let s := jobSt 5 (fun j => { j with stop := some .fault, imm := true }); s.jobState = 5 ∧ s.jobIsStopped = true ∧ s.jobDrained = true) := by decide +kernel
theorem test_wit_JobLife_faults : (let s : State := { jobSt 2 id with jobFaults := [(3, 15, 0x0D)] }; s.jobFaults = [(3, 15, 0x0D)] ∧ s.jobState = 2 ∧ (s.reg .job 0x18).getLsbD 31 = false) ∧
    ((State.reset.setReg .job 0x18 0x80000000).reg .job 0x18).getLsbD 31 = true ∧ State.reset.jobFaults = [] ∧ (jobSt 0 (fun j => { j with driven := true })).job.driven = true ∧
    (upSt.isl[Isl.sia.num]).up = true ∧ State.reset.job.driven = false := by decide +kernel
/-- Hatch serves the hub with scopes granted, every module in service. -/
def hatchSt (scopes : W32) : State :=
  (((List.range 7).foldl (fun s d => (List.range 10).foldl (fun s m => s.setReg (.d2d (Fin.ofNat 7 d)) (0x100 + 4 * m) 2) s) upSt).setReg (.boot 0) 4 8).setReg (.boot 0) 0xA0 scopes
theorem test_wit_HatchRequests_open : (hatchSt 3).served .hd = true ∧ (hatchSt 3).fld (.boot (monNum .hd)) 0xA0 2 0 ≠ 0 ∧ (hatchSt 3).granted (monNum .hd) 0 = true ∧
    (hatchSt 3).granted (monNum .hd) 1 = true ∧ (hatchSt 4).granted (monNum .hd) 0 = false ∧ (hatchSt 4).granted (monNum .hd) 1 = false ∧ (hatchSt 4).fld (.boot (monNum .hd)) 0xA0 2 0 ≠ 0 ∧
    State.reset.served .hd = false ∧ (hatchSt 0).fld (.boot (monNum .hd)) 0xA0 2 0 = 0 ∧ (hatchSt 3).hostCut hubBase = false ∧ (hatchSt 3).hostCut (islBase 1) = false ∧
    State.reset.hostCut (islBase 1) = true ∧ (hatchSt 3).hostCut (lsBase c0) = false ∧ State.reset.hostCut (lsBase c0) = true ∧ (hatchSt 3).served .sib = true ∧ (hatchSt 3).ecc = [] := by decide +kernel
theorem test_wit_HatchRequests_words : (0xF401890000 : Nat) % 4 = 0 ∧ placeOf 0xF401890000 = .mem ∧ (hatchSt 3).inChecker 0xF401890000 = false ∧ (hatchSt 3).hostCut 0xF401890000 = false ∧
    monWindow .sia 0 1 = false ∧ monWindow .hd 0xF401890000 1 = true ∧ (hatchSt 3).hostCut (atticSlot 1 + 0xFFFFFC) = false ∧ (hatchSt 3).isChecker c0 = false ∧ evCode 0x40 = true ∧ evCode 0x41 = false ∧
    inIsland 0xF500000000 = true := by decide +kernel
/-- A POKE of a local store word is not barred where hub firmware does not lie there. -/
theorem test_wit_HatchRequests_poke (h : Config.hubFirmware.any (fun r => decide (r.1 ≤ lsBase c0 ∧ lsBase c0 < r.1 + r.2)) = false) :
    (hatchSt 3).pokeBarred (lsBase c0) = false ∧ inAcoPort (lsBase c0) = false ∧ placeOf (lsBase c0) = .mem := by
  refine ⟨?_, by decide, by decide⟩
  unfold State.pokeBarred
  rw [h]; decide +kernel
theorem test_wit_HatchRequests_barred : (hatchSt 3).pokeBarred 0xF500000000 = true := rfl
theorem test_wit_HatchRequests_checker : (let s := (hatchSt 3).setReg (.cell 0) 0x500 1; s.isChecker ⟨0, 1⟩ = true ∧ s.inChecker (lsBase ⟨0, 1⟩) = true ∧ s.isChecker c0 = false) := by decide +kernel
theorem test_wit_HatchRequests_jobs : (hatchSt 3).jobState = 0 ∧ ((hatchSt 3).reg .job 0).getLsbD 31 = false ∧ ((hatchSt 3).setReg .job 4 2).jobState = 2 ∧ Canonical (hatchSt 3) ∧
    (hatchSt 3).imageRefused 0 = some 0x15 := by unfold Canonical; decide +kernel
theorem test_wit_HatchRequests_dump : (let s := upSt.setReg (.boot 1) 0xA0 3; s.served .sia = true ∧ s.fld (.boot (monNum .sia)) 0xA0 2 0 ≠ 0 ∧ s.granted (monNum .sia) 1 = true) ∧
    (let s : State := { State.reset with dump := { State.reset.dump with run := some (1, 0) } }; s.dump.run = some (1, 0) ∧ (s.isl[(0 : Fin 2)]).resetDue = false) ∧ State.reset.dump.run = none ∧
    (State.reset.write (atticSlot 1 + 4) [0, 1]).dumpState 1 = 1 ∧ (State.reset.write (atticSlot 1 + 4) [0, 2]).dumpState 1 = 2 := by decide +kernel
/-- The hub's monitor serves a part whose job image is eligible. -/
def hatchImage (st : W32) : State := ((imageSt st).setReg (.boot 0) 4 0x200008).setReg (.boot 0) 0xA0 3
theorem test_wit_HatchCompletions_jobs : (∀ st : W32, st = 0 ∨ st = 2 → (hatchImage st).served .hd = true ∧ (hatchImage st).fld (.boot 0) 0xA0 2 0 ≠ 0 ∧ (hatchImage st).granted 0 1 = true ∧
      (hatchImage st).imageRefused 0x4000000000 = none ∧ (hatchImage st).jobState = st.toNat ∧ Canonical (hatchImage st)) ∧
    (let low := ((hatchImage 0).reg .job 0xC &&& 0x1FF#32) ||| ((0x4000000000 : BitVec 40).setWidth 32 &&& 0xFFFFFE00#32)
     low.toNat + (0x4000000000 : BitVec 40).toNat / 2 ^ 32 * 2 ^ 32 = 0x4000000000) ∧ ((hatchImage 0).reg .job 0).getLsbD 31 = false ∧ (hatchImage 0).imageRefused 0 = some 0x15 := by
  refine ⟨?_, by decide +kernel⟩
  rintro st (rfl | rfl) <;> (unfold Canonical; decide +kernel)
theorem test_wit_HatchCompletions_reads : (∀ m : MonId, m ≠ .sib → (let s := ((hatchSt 3).setReg (.boot 1) 0xA0 3)
      s.served m = true ∧ s.fld (.boot (monNum m)) 0xA0 2 0 ≠ 0 ∧ s.granted (monNum m) 0 = true)) ∧
    (let s := hatchSt 3
     s.ecc = [] ∧ s.hostCut (atticSlot 1 + 0xFFFFFC) = false ∧ (∀ i, i < 64 → s.hostCut (atticSlot 1 + 4 * i) = false) ∧ s.hostCut hubBase = false ∧ s.hostCut (islBase 1) = false ∧
       s.hostCut (lsBase c0) = false ∧ s.inChecker 0xF401890000 = false ∧ s.hostCut 0xF401890000 = false ∧ Memory.wf s.mem = true) := by
  refine ⟨?_, by decide +kernel⟩
  intro m h; cases m <;> first | exact absurd rfl h | decide +kernel
theorem test_wit_HatchCompletions_dump : (let s := upSt.setReg (.boot 1) 0xA0 3; s.served .sia = true ∧ s.granted 1 1 = true ∧ s.dump.run = none ∧ Memory.wf s.mem = true) ∧
    (∀ st : Byte, st = 1 ∨ st = 2 → (let s : State := { State.reset.write (atticSlot 1 + 4) [0, st] with dump := { State.reset.dump with run := some (1, 0) } }
      s.dump.run = some (1, 0) ∧ s.dumpState 1 = st.toNat ∧ Memory.wf s.mem = true ∧ (s.isl[(0 : Fin 2)]).resetDue = false)) := by
  refine ⟨by decide +kernel, ?_⟩
  rintro st (rfl | rfl) <;> decide +kernel
/-- Cell 0 halted by the debugger, with an engine selected and one of its registers. -/
def dbgSt (sel : W32) : State := (((hatchSt 3).setReg (.perf 0) 0x404 1).setReg (.perf 0) 0x408 sel).modSeq c0 (fun q => { q with dbg := .halted })
theorem test_wit_CellDebugAndCounters : (dbgSt 0x01000001).dbgHalted c0 = true ∧ ((dbgSt 0x01000001).cell c0).pairStopped = false ∧ State.reset.dbgHalted c0 = false ∧
    (dbgSt 0x01000001).dbgEngine c0 = some q0 ∧ (dbgSt 0x00FC001F).dbgEngine c0 = some (.slv ⟨c0, 63⟩) ∧ (dbgSt 0x01040000).dbgEngine c0 = none ∧ (dbgSt 0x01000001).engineHalted q0 = true ∧
    State.reset.engineHalted q0 = false ∧ (dbgSt 0x01000001).fld (.perf 0) 0x408 17 15 = 0 ∧ (dbgSt 0x01000001).fld (.perf 0) 0x408 14 0 = 1 ∧ (dbgSt 0x0100001F).fld (.perf 0) 0x408 14 0 = 31 ∧
    (dbgSt 0x01000020).dbgRead q0 0 0x20 = none ∧ (dbgSt 0x01000001).dbgRead q0 0 1 ≠ none ∧ (dbgSt 0x01000001).isChecker c0 = false ∧ Canonical (dbgSt 0x01000001) := by unfold Canonical; decide +kernel
theorem test_wit_CellDebugAndCounters_perf : ((State.reset.setReg (.perf 0) 0 1).reg (.perf 0) 0).getLsbD 0 = true ∧ (State.reset.reg (.perf 0) 0).getLsbD 0 = false ∧
    State.reset.fld (.perf 0) 0x10 23 0 = 0 ∧ (State.reset.setReg (.perf 0) 0x10 0xFFFFFF).fld (.perf 0) 0x10 23 0 ≠ 0 ∧ (State.reset.cell c0).perf.tagged = none ∧
    ((State.reset.modCell c0 (fun k => { k with perf := { k.perf with tagged := some ⟨1, 2, 3⟩ } })).cell c0).perf.tagged = some ⟨1, 2, 3⟩ := by decide +kernel
/-- The hub's boot state after a change. -/
def bootSt (f : BootSt → BootSt) : State := State.reset.modBoot 0 f
theorem test_wit_BootUnlockJtag_otp : ((State.reset.setReg (.boot 0) 0x10 0x80000000).reg (.boot 0) 0x10).getLsbD 31 = true ∧ (State.reset.reg (.boot 0) 0x10).getLsbD 31 = false ∧
    (let s := bootSt (fun b => { b with otp := { b.otp with prog := 3 } }); (∃ k ∈ (s.boot 0).otp.live, k ≠ 1) ∧ (s.boot 0).slot ≠ some 1) ∧ (∀ k ∈ (State.reset.boot 0).otp.live, k = 1) ∧
    (3 ∈ bootTypes 0) ∧ (0 ∉ bootTypes 0) ∧ lifecycleOk .open .develop = true ∧ lifecycleOk .production .open = false ∧ lcCode .develop < 16 ∧ Canonical State.reset := by unfold Canonical; decide +kernel
theorem test_wit_BootUnlockJtag_hub : ((State.reset.setReg (.boot 0) 0x80 2).reg (.boot 0) 0x80).getLsbD 1 = true ∧ (State.reset.reg (.boot 0) 0x80).getLsbD 1 = false ∧
    ((State.reset.setReg (.boot 0) 0x84 0x80000000).reg (.boot 0) 0x84).getLsbD 31 = true ∧ (State.reset.reg (.boot 0) 0x84).getLsbD 31 = false ∧ (State.reset.boot 0).report = none ∧
    ((bootSt (fun b => { b with report := some ([1], 0x4000000000) })).boot 0).report = some ([1], 0x4000000000) ∧ ((bootSt (fun b => { b with chal := some ([1], 1) })).boot 0).chal ≠ none ∧
    State.reset.ready 3 = false ∧ (State.reset.setReg (.boot 0) 4 0x2208).ready 3 = true ∧ State.reset.ready 4 = false ∧ State.reset.ready (9 + 3) = false ∧ State.reset.dramDiffer = false ∧
    (State.reset.setReg (.boot 0) 4 0x2208).ready (9 + 0) = true ∧ (State.reset.setReg (.boot 0) 4 0x2208).funcReady.getLsbD 13 = true ∧ (jobSt 2 id).jobState = 2 ∧ State.reset.jobState ≠ 2 ∧
    ((bootSt (fun b => { b with retried := true })).boot 0).retried = true ∧ (hatchSt 3).readable 0 = true ∧ ((State.reset.setReg (.boot 0) 0 2).recovering = true) ∧ State.reset.recovering = false ∧
    State.reset.ready 21 = false ∧ (State.reset.setReg (.boot 0) 4 0).readable 1 = false := by decide +kernel
/-- A challenge stands, and a debug key whose response verifies has its slot programmed: in production the grant is refused while an island is armed. -/
def chalSt (key ch : List Byte) (lc : Lifecycle) : State :=
  ((hatchSt 0).modBoot 0 (fun b => { b with chal := some (ch, 7), otp := { b.otp with dprog := 1, dbg := b.otp.dbg.set 0 (sha512 key), lc := lc } })).setReg (.safe 0) 4 1
theorem test_wit_BootUnlockJtag_response (key ch sig : List Byte) (lc : Lifecycle) (h : ed25519Verify key (sha512 ch) sig = true) :
    (∃ k : Fin 2, ((chalSt key ch lc).boot 0).otp.dprog.getLsbD k.val = true ∧ ((chalSt key ch lc).boot 0).otp.drev.getLsbD k.val = false ∧ ((chalSt key ch lc).boot 0).otp.dbg[k] = sha512 key) ∧
    ((chalSt key ch lc).boot 0).chal = some (ch, 7) ∧ ed25519Verify key (sha512 ch) sig = true := 
  ⟨⟨0, by show (1#2).getLsbD 0 = true; decide, by show (0#2).getLsbD 0 = false; decide, rfl⟩, rfl, h⟩
/-- An image of no sections and no dies, which a job key signs, where SHA-512 of nothing is the image's SECT_HASH; and no job key. -/
theorem test_wit_BootUnlockJtag_images (key : List Byte) (h : sha512 [] = List.replicate 64 0)
    (hv : ed25519Verify key (sha512 (State.reset.bytes 0 0x180)) (State.reset.bytes 0x180 64) = true) :
    State.reset.imageVerified [key] 0 = true ∧ State.reset.imageVerified State.reset.job.keys 0 = false := by
  refine ⟨?_, rfl⟩
  have h1 : State.reset.img 0 0x64 % 2 ^ 16 = 0 := by decide +kernel
  have h2 : State.reset.sections 0 = [] := by decide +kernel
  have h3 : State.reset.bytes (0 + 0x80) 64 = List.replicate 64 0 := by decide +kernel
  have h4 : cellsOf (State.reset.diesOf 0) = [] := by decide +kernel
  unfold State.imageVerified
  simp only [h1, h2, h3, h4, hv, List.any_cons, Bool.true_or, Nat.mul_zero, List.flatMap_nil, List.append_nil, Nat.zero_add, List.all_nil, Bool.and_true, Bool.true_and]
  simp [State.bytes, h]
theorem test_wit_BootUnlockJtag_keys : (1 ≤ leNat (List.take 4 [(1 : Byte), 0, 0, 0]) ∧ leNat (List.take 4 [(1 : Byte), 0, 0, 0]) ≤ 4) ∧ ¬ 1 ≤ leNat (List.take 4 ([] : List Byte)) := by decide
theorem test_wit_BootUnlockJtag_scope : (chalSt [] [] .production).scopeRefused 0 7 = true ∧ (chalSt [] [] .develop).scopeRefused 0 7 = false ∧ (chalSt [] [] .develop).served .hd = true ∧
    (chalSt [] [] .develop).fld (.boot 0) 0xA0 23 20 < 8 ∧ 8 ≤ ((chalSt [] [] .develop).setReg (.boot 0) 0xA0 0x800000).fld (.boot 0) 0xA0 23 20 := by decide +kernel
/-- No slot is programmed: no response is good. -/
theorem test_wit_BootUnlockJtag_bad : ∀ k : Fin 2, (State.reset.boot 0).otp.dprog.getLsbD k.val = false := by decide
theorem test_wit_BootUnlockJtag_service : (State.reset.boot 0).otp.lc = .open ∧ ((bootSt (fun b => { b with otp := { b.otp with lc := .develop } })).boot 0).otp.lc ≠ .open ∧
    (List.replicate 64 (0 : Byte)).length = 64 ∧ (State.reset.boot 0).load = none ∧ ((bootSt (fun b => { b with load := some (96, []) })).boot 0).load = some (96, []) ∧
    (List.replicate 96 (0 : Byte)).length ≤ 96 := by decide +kernel
/-- TAPs that are closed and hold an instruction that is not IDCODE select BYPASS. -/
def tapSt (st : TapSt) : State :=
  let s : State := { State.reset with boots := State.reset.boots.map (fun b => { b with otp := { b.otp with lc := .production } }) }
  { s with jtag := { s.jtag with st := st, ir := Vector.replicate 7 (~~~Config.idcodeOp), dr := Vector.replicate 7 1 } }
theorem not_self (x : BitVec 6) : ~~~x ≠ x := by decide +revert
theorem test_wit_BootUnlockJtag_jtag (k : Fin 7) : (tapSt .shiftDr).tapReg k = .bypass ∧ ((tapSt .shiftDr).jtag.dr[k]).toNat < 2 ∧ (tapSt .shiftDr).jtag.st = .shiftDr ∧
    (tapSt .exit1Ir).jtag.st = .exit1Ir := by
  have h := not_self Config.idcodeOp
  have hi : (tapSt .shiftDr).jtag.ir[k] = ~~~Config.idcodeOp := by simp [tapSt]
  have ho : (tapSt .shiftDr).tapOpen k = false := by clear hi; revert k; decide +kernel
  refine ⟨?_, by simp [tapSt], rfl, rfl⟩
  unfold State.tapReg
  simp [hi, h, ho]
theorem test_wit_DecodeOfEncode : (Instr.move q0 0 8 .pkg true false 0x00016A11).wellFormed = true ∧ encode (.move q0 0 8 .pkg true false 0x00016A11) = some (0xFC08A006, some 0x00016A11) ∧
    encode (.nop q0) = some (0xF0000000, none) := by decide
theorem test_wit_CanonicalKept : Canonical State.reset ∧ step State.reset = .next State.reset.idle := ⟨by unfold Canonical; decide, rfl⟩
/-- A state whose eligible images are a list; what the images hold does not depend on it. -/
def withEl (s : State) (e : List Nat) : State := { s with job := { s.job with eligible := e } }
theorem admit_all (s : State) : ∀ (l e : List Nat), (∀ a ∈ l, s.sections a = [] ∧ s.imageVerified s.job.keys a = true) → l.foldl State.admitImage (withEl s e) = withEl s (e ++ l)
  | [], e, _ => by simp
  | a :: r, e, h => by
    obtain ⟨h1, h2⟩ := h a (by simp)
    have h3 : (withEl s e).imageVerified (withEl s e).job.keys a = true := h2
    have h4 : (withEl s e).copySections a (List.finRange 4) = withEl s e := by
      unfold State.copySections
      rw [show (withEl s e).sections a = [] from h1]; rfl
    have h5 : (withEl s e).admitImage a = withEl s (e ++ [a]) := by
      unfold State.admitImage
      rw [if_pos h3, h4]; rfl
    rw [List.foldl_cons, h5, admit_all s r (e ++ [a]) (fun x hx => h x (by simp [hx]))]
    simp
/-- The eleven images of R414 at the start of hub DRAM, 4 KiB apart: KIND and PARAM of each. -/
def kindAt : List (Nat × Nat) := ((0, 0) :: shippedJobs).zipIdx.map (fun p => (0x4000000000 + 0x1000 * p.2, p.1.1 + 16 * p.1.2))
def kindSt : State := kindAt.foldl (fun s p => s.write (p.1 + 0x10) (toLe 4 p.2)) (State.reset.setReg (.boot 0) 4 0x200000)
theorem test_wit_BootUnlockJtag_shipped (h : ∀ a ∈ kindAt.map (·.1), kindSt.imageVerified kindSt.job.keys a = true) :
    ((kindAt.map (·.1)).foldl State.admitImage (withEl kindSt [])).imagesReady = true ∧ (withEl kindSt []).imagesReady = false := by
  rw [admit_all kindSt _ [] (fun a ha => ⟨by clear h; revert a; decide +kernel, h a ha⟩)]
  decide +kernel
theorem test_wit_JobLife_start : (imageSt 0).noStart = false ∧ (imageSt 5).noStart = false ∧ State.reset.noStart = true ∧
    (let s := State.reset.setReg (.boot 0) 4 0x200000; s.noStart = false ∧ s.jobState = 0 ∧ s.jobImage = 0 ∧ s.imageRefused 0 = some 0x15 ∧ 0 ∉ s.job.eligible ∧ Canonical s) ∧
    ((State.reset.setReg (.d2d 5) 0x100 2).setReg .therm 0x64 0x40).abandoned = true ∧ ({ State.reset with dramGib := (State.reset.dramGib.set 3 (some 8)).set 0 (some 16) } : State).dramDiffer = true ∧
    State.reset.ready 21 = false := by unfold Canonical; decide +kernel
theorem test_wit_JobLife_aborts : (let s := jobSt 2 id; s.jobState = 2 ∧ s.allHalted = true) ∧ (let s := jobSt 3 (fun j => { j with stop := some .switch }); s.jobState = 3 ∧ s.job.stop = some .switch ∧ s.allHalted = true) ∧
    (jobSt 1 id).jobState = 1 ∧ (jobSt 4 id).jobState = 4 ∧ State.reset.jobState = 0 ∧ (jobSt 3 (fun j => { j with stop := some .abort })).job.stop ≠ some .switch ∧
    (let s : State := { jobSt 4 id with jobFaults := [(3, 15, 0x0D)] }; s.jobState = 4 ∧ s.jobFaults = [(3, 15, 0x0D)]) := by decide +kernel
/-- A request line with no arguments, READY of tag 01, and one with one argument, PEEK. -/
def rdLine : List Byte := lineOf (ascii ['0', '1', ' ', 'R', 'E', 'A', 'D', 'Y'])
def pkLine : List Byte := lineOf (ascii ['0', '1', ' ', 'P', 'E', 'E', 'K', ' ', '4'])
theorem test_wit_HatchRequests_lines : rdLine.length = 13 ∧ lineFields rdLine = some [ascii ['0', '1'], ascii ['R', 'E', 'A', 'D', 'Y']] ∧ lineTag rdLine = some 1 ∧ lineFields [] = none ∧ lineFields (rdLine.set 0 0x3A) = none ∧
    (lineFields pkLine).map (fun f => (f.getD 1 [], f.length - 2)) = some (ascii ['P', 'E', 'E', 'K'], 1) := by decide +kernel
/-- A monitor at which a line of 13 bytes waits, and one whose buffer it fills up. -/
def waiting (l : List Byte) : State := (hatchSt 3).modUart .hd (fun q => { q with wait := [(l, .ready .hd)] })
theorem test_wit_HatchRequests_turn : (∀ m : MonId, (hatchSt 3).listens m = true ∧ (hatchSt 3).monBusy m = false) ∧ State.reset.listens .hd = false ∧
    ((waiting rdLine).listens .hd = true ∧ (waiting rdLine).monBusy .hd = true ∧ ((waiting rdLine).uart[monNum .hd]).bytes + 13 ≤ 512) ∧
    ((waiting (List.replicate 500 0)).monBusy .hd = true ∧ 512 < ((waiting (List.replicate 500 0)).uart[monNum .hd]).bytes + 13) ∧ ((waiting (List.replicate 499 0)).uart[monNum .hd]).bytes + 13 = 512 := by
  refine ⟨fun m => by cases m <;> decide +kernel, by decide +kernel⟩
/-- The hub's ROM serves its port in OPEN, with a grant that stands; SIB's monitor with a grant. -/
def romSt : State := (State.reset.setReg (.boot 0) 4 4).setReg (.boot 0) 0xA0 3
theorem test_wit_HatchRequests_grants : (hatchSt 0).anyGrant .hd = false ∧ (hatchSt 3).anyGrant .hd = true ∧ (hatchSt 4).anyGrant .hd = true ∧ (hatchSt 4).granted 0 0 = false ∧ (hatchSt 4).granted 0 1 = false ∧
    (romSt.listens .hd = true ∧ romSt.monBusy .hd = false ∧ romSt.anyGrant .hd = true ∧ romSt.served .hd = false) ∧
    (let s := (hatchSt 3).setReg (.boot 2) 0xA0 1; s.listens .sib = true ∧ s.monBusy .sib = false ∧ s.anyGrant .sib = true ∧ s.granted 2 0 = true ∧ s.served .sib = true) ∧
    (let s := ((hatchSt 3).setReg (.boot 1) 0xA0 3); s.served .sia = true ∧ s.anyGrant .sia = true ∧ s.granted 1 1 = true ∧ s.listens .sia = true ∧ s.monBusy .sia = false ∧
      ({ s with dump := { s.dump with run := some (1, 0) } } : State).dump.run ≠ none ∧ monWindow .sia 0 1 = false) := by decide +kernel
/-- The hub's monitor while none of the modules is in service. -/
def hatchCut : State := (upSt.setReg (.boot 0) 4 8).setReg (.boot 0) 0xA0 3
theorem test_wit_HatchRequests_cut : hatchCut.listens .hd = true ∧ hatchCut.monBusy .hd = false ∧ hatchCut.served .hd = true ∧ hatchCut.anyGrant .hd = true ∧ hatchCut.granted 0 0 = true ∧ hatchCut.granted 0 1 = true ∧
    hatchCut.hostCut (islBase 1) = true ∧ hatchCut.hostCut (lsBase c0) = true ∧ hatchCut.isChecker c0 = false ∧ (0x2 : Nat) % 4 ≠ 0 ∧
    (let s : State := { hatchCut with crossings := [⟨4, 8, false, true⟩] }; s.hostCut hubBase = true ∧ s.granted 0 0 = true) ∧
    ((hatchSt 3).setReg .job 4 2).noStart = true ∧ (let s := ((hatchSt 3).setReg .job 4 2).setReg (.boot 0) 4 0x200008; s.noStart = false ∧ s.jobState = 2 ∧ s.served .hd = true ∧ Canonical s) := by
  unfold Canonical; decide +kernel
theorem test_wit_HatchRequests_broken : (openCommands .hd).find? (fun p => p.1 == ascii ['C', 'H', 'A', 'L']) = some (ascii ['C', 'H', 'A', 'L'], [1]) ∧ 0 ∉ [1] ∧
    (∀ p ∈ openCommands .hd ++ scopedCommands .hd, p.1 ≠ ascii ['N', 'O']) ∧ (openCommands .hd).find? (fun p => p.1 == ascii ['P', 'E', 'E', 'K']) = none ∧
    (scopedCommands .hd).find? (fun p => p.1 == ascii ['P', 'E', 'E', 'K']) = some (ascii ['P', 'E', 'E', 'K'], [2]) ∧ 1 ∉ [2] ∧
    (lineFields (lineOf (ascii ['0', '1', ' ', 'N', 'O']))).map (fun f => f.getD 1 []) = some (ascii ['N', 'O']) ∧
    (lineFields (lineOf (ascii ['0', '1', ' ', 'C', 'H', 'A', 'L']))).map (fun f => (f.getD 1 [], f.length - 2)) = some (ascii ['C', 'H', 'A', 'L'], 0) := by decide +kernel
theorem test_wit_HatchCompletions_start : (hatchImage 0).noStart = false ∧ (hatchImage 2).noStart = false ∧ (hatchImage 0).listens .hd = true ∧ (hatchImage 0).monBusy .hd = false ∧ (hatchImage 0).anyGrant .hd = true ∧
    (∀ a, a = 0xF401890000 ∨ a = atticSlot 1 → (hatchSt 3).monCut .hd a = false ∧ superOk false a = true) ∧ superOk true 0xF401890000 = true ∧ (hatchSt 3).dump.run = none ∧
    ({ hatchSt 3 with dump := { State.reset.dump with run := some (1, 0) } } : State).dump.run ≠ none := by
  refine ⟨by decide +kernel, by decide +kernel, by decide +kernel, by decide +kernel, by decide +kernel, ?_, by decide +kernel, by decide +kernel, by decide +kernel⟩
  rintro a (rfl | rfl) <;> decide +kernel
/-- A cell whose counters have run from cycle 0, at a cycle, with windows of 1,024 cycles. -/
def windowSt (cycle : Nat) : State := (State.reset.setReg (.perf 0) 0x10 1).modCell c0 (fun k => { k with cycle := cycle, perf := { k.perf with enAt := some 0 } })
theorem test_wit_CellDebugAndCounters_window : (windowSt 1024).windowEnd c0 = some 1024 ∧ ((windowSt 1024).cell c0).cycle = 1024 ∧ (windowSt 1023).windowEnd c0 = some 1024 ∧ ((windowSt 1023).cell c0).cycle < 1024 ∧
    (windowSt 1024).clkStopped 0 = false ∧ State.reset.windowEnd c0 = none ∧ stopped.clkStopped 3 = true := by decide +kernel
theorem test_wit_CellDebugAndCounters_tag : (let s := State.reset.modCell c0 (fun k => { k with perf := { k.perf with tagged := some ⟨1, 2, 3⟩ } })
      s.clkStopped 0 = false ∧ (s.cell c0).perf.tagged = some ⟨1, 2, 3⟩ ∧ Canonical s) ∧
    (let s := dbgSt 0x01028003; s.engineHalted q0 = true ∧ s.fld (.perf 0) 0x408 17 15 = 5 ∧ s.fld (.perf 0) 0x408 14 0 = 3 ∧ ((s.cell c0).tiles[Fin.ofNat 4 (3 / 4096)]).par.contains (3 % 4096) = false ∧ s.dbgRead q0 5 3 ≠ none) ∧
    (let s := (dbgSt 0x01028003).modCell c0 (fun k => { k with tiles := k.tiles.set 0 { k.tiles[0] with par := [3] } }); ((s.cell c0).tiles[Fin.ofNat 4 (3 / 4096)]).par.contains (3 % 4096) = true) := by
  unfold Canonical; decide +kernel
theorem test_wit_CellDebugAndCounters_hatch : (hatchSt 3).listens .hd = true ∧ (hatchSt 3).monBusy .hd = false ∧ lineFields rdLine ≠ none ∧ (hatchSt 3).hostCut (lsBase c0) = false ∧ (hatchSt 3).isChecker c0 = false ∧
    ((dbgSt 0x01000001).served .hd = true ∧ (dbgSt 0x01000001).anyGrant .hd = true ∧ (dbgSt 0x01000001).hostCut (lsBase c0) = false ∧ (dbgSt 0x01000001).engineHalted q0 = true) ∧
    hatchCut.hostCut (lsBase c0) = true ∧ hatchCut.isChecker c0 = false ∧ (let s := (hatchSt 3).setReg (.cell 0) 0x500 1; s.isChecker ⟨0, 1⟩ = true ∧ s.listens .hd = true) := by decide +kernel
/-- The part with the key of the image in slot 0 of the hub's OTP, and SIA's module in service. -/
def bootImg (f : BootSt → BootSt) : State := (upSt.setReg (.d2d 5) 0x100 2).modBoot 0 (fun b => f { b with otp := fwOtp 0 })
theorem test_wit_BootUnlockJtag_header : (256 ≤ fwImage.length ∧ leNat (fwImage.take 4) = 0x544F4F42 ∧ leNat ((fwImage.drop 4).take 1) = 3 ∧ leNat ((fwImage.drop 7).take 1) = 0 ∧ leNat ((fwImage.drop 6).take 1) ≤ 32 ∧
      leNat ((fwImage.drop 8).take 4) % 256 = 0 ∧ (fwImage.drop 256).length = leNat ((fwImage.drop 8).take 4) ∧ leNat ((fwImage.drop 0x70).take 16) = 0 ∧ leNat ((fwImage.drop 0xC0).take 64) = 0) ∧
    (fwImage.drop 0x10).take 32 = edKey ∧ fwImage.take 0x80 = fwHead ∧ (fwImage.drop 0x80).take 64 = edSig ∧ fwImage.drop 256 = fwBody ∧
    (∃ k ∈ (fwOtp 0).live, k.val = leNat ((fwImage.drop 5).take 1) ∧ (fwOtp 0).keys[k] = sha512 edKey) ∧ (fwOtp 0).svn[(3 : Fin 5)] = 0 ∧ ¬ 256 ≤ ([] : List Byte).length := by
  rw [test_sha512_key]; decide +kernel
/-- SIA's flash holds that image: it is served, and passes. -/
theorem test_wit_BootUnlockJtag_serving (h : Config.flashDir 0 0 = [(3, fwImage)]) : (let s := bootImg id
      (s.isl[(0 : Fin 2)]).up = true ∧ s.hubLink 0 = true ∧ (s.boot 0).stopped = false ∧ (s.boot 0).otp.blank = false ∧ s.ready 3 = false ∧ (dirImages (Config.flashDir 0 s.free) 3).head? = some fwImage ∧
        (verifyImage (s.boot 0).otp 3 fwImage).toOption.map (fun x => x.slot) = some 0 ∧ (dirImages (Config.flashDir 0 s.free) 4).head? = none) ∧
    (let s := bootImg (fun b => { b with otp := { b.otp with rev := 1 } }); failed (verifyImage (s.boot 0).otp 3 fwImage) = 2) := by
  have h0 : (bootImg id).free = 0 := rfl
  simp only [h0, h]
  refine ⟨?_, by decide +kernel⟩
  have := test_image_accepted.1
  refine ⟨by decide +kernel, by decide +kernel, by decide +kernel, by decide +kernel, by decide +kernel, by decide +kernel, ?_, by decide +kernel⟩
  show (verifyImage (fwOtp 0) 3 fwImage).toOption.map _ = _
  revert this; cases (verifyImage (fwOtp 0) 3 fwImage).toOption <;> simp +contextual
theorem test_wit_BootUnlockJtag_ucode : (let s := (bootImg id).setReg (.boot 0) 4 8; s.ready 3 = true ∧ s.ready 21 = false ∧ (s.boot 0).ucode = false ∧ (s.boot 0).otp.blank = false ∧ Canonical s) ∧
    ((bootImg (fun b => { b with asksSib := true })).boot 0).asksSib = true ∧ ((bootImg (fun b => { b with ucode := true })).boot 0).ucode = true ∧ (State.reset.boot 0).otp.blank = true ∧
    ((bootImg (fun b => { b with stopped := true })).boot 0).stopped = true ∧ State.reset.abandoned = false ∧ (State.reset.boot 0).stopped = false ∧ (0x200000#32).getLsbD 21 = true ∧ State.reset.ready 21 = false ∧
    ((List.replicate 32 (0 : Byte)).length = 32 ∧ dramWin 0x4000000000 = some 4) := by unfold Canonical; decide +kernel
theorem test_wit_BootUnlockJtag_turn : (hatchSt 3).listens .hd = true ∧ (hatchSt 3).monBusy .hd = false ∧ State.reset.listens .hd = false ∧ (∀ m, (hatchSt 3).fld (.boot (monNum m)) 0xA0 23 20 < 8) ∧
    (hatchSt 3).boot 0 = State.reset.boot 0 ∧ (State.reset.boot 0).otp.lc = .open ∧ (List.replicate 64 (0 : Byte)).length = 64 ∧ (List.replicate 32 (0 : Byte)).length = 32 ∧
    (romSt.setReg (.boot 0) 0 2).recovering = true ∧ (romSt.setReg (.boot 0) 0 2).listens .hd = true ∧ (romSt.setReg (.boot 0) 0 2).monBusy .hd = false ∧
    (romSt.modBoot 0 (fun b => { b with otp := fwOtp 0 })).listens .hd = false ∧
    (let s := (romSt.setReg (.boot 0) 0 2).modBoot 0 (fun b => { b with otp := fwOtp 0 }); s.listens .hd = true ∧ (s.boot 0).otp.lc = .open) ∧
    loaded 2 [(0, 1), (1, 2)] = some [1, 2] ∧ loaded 2 [(0, 1)] = none := by
  refine ⟨by decide +kernel, by decide +kernel, by decide +kernel, fun m => by cases m <;> decide +kernel, by decide +kernel⟩
/-- A challenge whose signature is that of the image's header, under the debug key of slot 0: a good response. -/
theorem test_wit_BootUnlockJtag_good : (let s := chalSt edKey fwHead .develop
      edKey.length = 32 ∧ edSig.length = 64 ∧ (s.boot 0).chal = some (fwHead, 7) ∧ s.listens .hd = true ∧ s.monBusy .hd = false ∧ s.scopeRefused 0 7 = false ∧
      (∃ k : Fin 2, (s.boot 0).otp.dprog.getLsbD k.val = true ∧ (s.boot 0).otp.drev.getLsbD k.val = false ∧ (s.boot 0).otp.dbg[k] = sha512 edKey)) ∧ ed25519Verify edKey (sha512 fwHead) edSig = true :=
  ⟨⟨by decide, by decide, rfl, by decide +kernel, by decide +kernel, by decide +kernel, ⟨0, by decide +kernel, by decide +kernel, rfl⟩⟩, test_image_signature⟩

/-! ### A Larder store whose page translates, where CD0 has its first 32 MiB of DRAM -/

/-- The page table of virtual address 0x100000000 in CD0's DRAM: a pointer at each of two levels and a 64 KiB leaf; cell 0's descriptor of one row of 32 bytes. -/
def kvT : State :=
  ((((State.reset.write 0x20 (toLe 8 0x200001)).write 0x200000 (toLe 8 0x201003)).write 0x201000 (toLe 8 0x100007D)).write (lsBase c0)
    (toLe 32 (0x2800 + 2 ^ 96 + 0x1000 * 2 ^ 128 + 32 * 2 ^ 160))).setReg (.mmu 0) 0 1
theorem kvT_walk (h : 0x2000000 ≤ cdUsable) (pa n : Nat) (h1 : 1 ≤ n) (h2 : pa + n ≤ 0x2000000) : walkOk 0 pa n = true := by
  have hw : ∀ a, a < 0x2000000 → dramWin a = some 0 := by
    intro a ha; unfold dramWin; rw [dif_pos (by omega)]; congr 1; apply Fin.ext; show a / _ = 0; omega
  have hd : ∀ a, a < 0x2000000 → dramOk a = true := by
    intro a ha; unfold dramOk; rw [hw a ha]; exact decide_eq_true (by show a % _ < cdUsable; omega)
  unfold walkOk
  rw [hd pa (by omega), hd _ (by omega), hw pa (by omega), hw _ (by omega)]; rfl
theorem kvT_translate (h : 0x2000000 ≤ cdUsable) : ∃ t, kvT.translate 0 false .read 0x100000000 = (.page ⟨0x100000000, 0x1000000, 65536, 0, 0x100007D#64⟩, t) := by
  have hw := kvT_walk h
  have r0 : ((kvT.reg (.mmu 0) 4).toNat / 4096 * 4096 + (kvT.fld (.mmu 0) 8 7 0) * 2 ^ 32) = 0 := by decide +kernel
  have hs : (if h : (0 : Fin 5).val < 4 then kvT.reach ⟨(0 : Fin 5).val, h⟩ 18 else kvT) = kvT := rfl
  have he : kvT.fld (.mmu 0) 0 0 0 ≠ 0 := by decide +kernel
  obtain ⟨t1, p1⟩ : ∃ t1, kvT.pte 0 1 0x100000000 0x20 = (some 0x200001#64, t1) := ⟨_, Prod.ext (by decide +kernel) rfl⟩
  have e1 : t1 = (kvT.pte 0 1 0x100000000 0x20).2 := by rw [p1]
  obtain ⟨t2, p2⟩ : ∃ t2, t1.pte 0 2 0x100000000 0x200000 = (some 0x201003#64, t2) := ⟨_, Prod.ext (by rw [e1]; decide +kernel) rfl⟩
  have e2 : t2 = ((kvT.pte 0 1 0x100000000 0x20).2.pte 0 2 0x100000000 0x200000).2 := by rw [← e1, p2]
  obtain ⟨t3, p3⟩ : ∃ t3, t2.pte 0 4 0x100000000 0x201000 = (some 0x100007D#64, t3) := ⟨_, Prod.ext (by rw [e2]; decide +kernel) rfl⟩
  refine ⟨t3, ?_⟩
  have w0 := hw 0 0x200000 (by omega) (by omega)
  have c1 : ptrCheck 0 1 4096 0x200001#64 = none := by
    unfold ptrCheck; rw [show ptePa 0x200001#64 = 0x200000 by decide, hw _ _ (by omega) (by omega)]; decide
  have c2 : ptrCheck 0 2 256 0x201003#64 = none := by
    unfold ptrCheck; rw [show ptePa 0x201003#64 = 0x201000 by decide, hw _ _ (by omega) (by omega)]; decide
  have hr : rangeOk false false 0x1000000 65536 = true := by
    have := hw 0x1000000 65536 (by omega) (by omega)
    unfold walkOk at this
    unfold rangeOk
    simp only [Bool.and_eq_true, beq_iff_eq] at this
    simp [this]
  have hl : leaf3 0 0x100000000 65536 false .read 0x100007D#64 = .page ⟨0x100000000, 0x1000000, 65536, 0, 0x100007D#64⟩ := by
    unfold leaf3 leafCheck
    simp [show rangeOk false (Acc.read == Acc.write) 0x1000000 65536 = true from hr, pteType, pteReserved, foreignChip]
  unfold State.translate
  simp only [hs]
  rw [if_neg he, r0, w0]
  have p1' : kvT.pte 0 1 4294967296 (0 + 4294967296 / 2 ^ 30 * 8) = (some 0x200001#64, t1) := p1
  rw [p1']
  simp only [Bool.not_true, Bool.false_eq_true, if_false]
  rw [if_neg (by decide : ¬ ((!(0x200001#64).getLsbD 0) = true)), if_neg (by decide : ¬ pteType 0x200001#64 ≠ 0)]
  simp only [c1, show ptePa 0x200001#64 + 0x100000000 / 2 ^ 21 % 512 * 8 = 0x200000 by decide, p2]
  rw [if_neg (by decide : ¬ ((!(0x201003#64).getLsbD 0) = true))]
  simp only [show pteType 0x201003#64 = 1 by decide, c2, show ptePa 0x201003#64 + 0x100000000 / 65536 % 32 * 8 = 0x201000 by decide, p3, hl]
/-- The descriptor at offset 0 is legal, its page translates, and its memory is reached: the sequencer may issue it. -/
theorem test_wit_LarderOperations_issue (h : 0x2000000 ≤ cdUsable) : CanIssue kvT q0 false [2, 3, 0] ∧ kvT.ecc = [] ∧ (kvT.cell c0).kv.length < 4 ∧
    ∃ k, kvOf (kvT.num (lsBase c0 + 0) 32) 2 = some k ∧
      (let walk := kvPages c0 0 ((kvT.cell c0).level == .user) (if k.store then .write else .read) ((k.va + k.count * k.rb - 1) / 65536 + 1 - k.va / 65536) (k.va / 65536 * 65536)
        ([], none, 0, 0) kvT
       walk.1.2.1 = none ∧ walk.1.1 = [⟨0x100000000, 0x1000000, 65536, 0, 0x100007D#64⟩] ∧ ∀ p ∈ walk.1.1, isMem p.pa = true) := by
  refine ⟨by unfold CanIssue; decide +kernel, by decide +kernel, by decide +kernel, ?_⟩
  obtain ⟨t, ht⟩ := kvT_translate h
  obtain ⟨k, hk, h1, h2, h3⟩ : ∃ k, kvOf (kvT.num (lsBase c0 + 0) 32) 2 = some k ∧ k.store = false ∧ k.va = 0x100000000 ∧ k.count * k.rb = 32 :=
    ⟨{ d := 2, store := false, transpose := false, ew := 1, rb := 32, va := 0x100000000, count := 1, ls := 0x1000, lss := 32, pages := [], dropped := none, seqn := 0, drains := false },
      by decide +kernel, rfl, rfl, rfl⟩
  refine ⟨k, hk, ?_⟩
  have hu : ((kvT.cell c0).level == .user) = false := by decide +kernel
  have hn : (0x100000000 + 32 - 1) / 65536 + 1 - 0x100000000 / 65536 = 1 := by decide
  have hv : 0x100000000 / 65536 * 65536 = 0x100000000 := by decide
  have hm : ∀ x : Trans, (kvT.missNoted c0 (x, t)).1 = x := fun x => by unfold State.missNoted; dsimp only; split <;> rfl
  simp only [h1, h2, h3, hu, hn, hv, if_neg Bool.false_ne_true, kvPages, ht]
  obtain ⟨t', ht'⟩ : ∃ t', kvT.missNoted c0 (Trans.page ⟨0x100000000, 0x1000000, 65536, 0, 0x100007D#64⟩, t) = (Trans.page ⟨0x100000000, 0x1000000, 65536, 0, 0x100007D#64⟩, t') := ⟨_, Prod.ext (hm _) rfl⟩
  simp only [ht']
  simp [isMem]

/-! ### The spec's worked examples -/

theorem test_drain_sr_worked : (drainFp 4 2 false 59391#32 0x3F801800#32).1 = 0x3F80 ∧ (drainFp 4 2 false 59392#32 0x3F801800#32).1 = 0x3F81 ∧
    (drainFp 4 2 false 0xFFFF#32 0xBF801800#32).1 = 0xBF81 := by decide +kernel
theorem test_cutoff_worked : (let s := ((State.reset.setReg .tbase 0x30 33333333).setReg .tbase 0x34 38000000)
    (s.modTb (fun t => { t with now := 33371333000 })).cutDue = some 1000 ∧ (s.modTb (fun t => { t with now := 33371332999 })).cutDue = some 999) := by decide +kernel
theorem test_parity_worked : parity0 [0x12, 0x34, 0x56, 0x78] = 0x08 ∧ parity1 [0x12, 0x34, 0x56, 0x78] = 0xD8 ∧ gfPow 1 0x34 = 0x68 ∧ gfPow 2 0x56 = 0x45 ∧ gfPow 3 0x78 = 0xE7 ∧
    decodeByte [some 0x12, none, none, some 0x78] (some 0x08) (some 0xD8) = [0x12, 0x34, 0x56, 0x78] := by decide +kernel
theorem test_line_worked : endLine 0x02 none = ascii ['0', '2', ' ', 'O', 'K', '*', '1', 'C', '\r', '\n'] ∧
    dataLine 0x02 [hexNum 8 2] = ascii ['0', '2', ' ', '=', ' ', '0', '0', '0', '0', '0', '0', '0', '2', '*', '6', '1', '\r', '\n'] ∧
    lineSum (ascii ['0', '1', ' ', 'R', 'E', 'A', 'D', 'Y']) = 0xF6 ∧
    lineSum (ascii ['0', '2', ' ', 'P', 'E', 'E', 'K', ' ', 'F', '4', '0', '0', '0', '0', '0', '0', '0', '4']) = 0xC5 := by decide
theorem test_age_worked : (let a := ageMeasure (ageMeasure [] 2 8 78000 78125) 2 8 71010 73760
    let s := State.reset.modHlth (fun h => { h with ages := a })
    s.ageWord 2 = BitVec.ofNat 32 (2 ^ 31 + 2 ^ 29 + 357) ∧ s.ageWord 1 = 0) := by decide +kernel
/-- B0 and B1 of the example of issue order: the product is written at the end of cycle n + 2, and the add one cycle after it reads the old value. -/
theorem test_issue_worked : (let s := run (.mul q0 false 4 2 3) (withS (withS State.reset 2 6) 3 7)
    (run (.addi q0 5 4 1) s).xw q0 5 = 1 ∧ (s.tick c0 1).xw q0 4 = 0 ∧ (s.tick c0 2).xw q0 4 = 42) := by decide +kernel

/-! ### Results of single commands, by hand from the tables -/

theorem test_add_wraps : qreg (.add q0 false 1 2 3) (withS (withS State.reset 2 0xFFFFFFFF) 3 2) 1 = 1 := by decide +kernel
theorem test_sub_order : qreg (.sub q0 false 1 2 3) (withS (withS State.reset 2 5) 3 7) 1 = 0xFFFFFFFE := by decide +kernel
theorem test_mulh_sign : qreg3 (.mulh q0 false 1 2 3) (withS (withS State.reset 2 0xFFFFFFFF) 3 2) 1 = 0xFFFFFFFF ∧
    qreg3 (.mulhu q0 false 1 2 3) (withS (withS State.reset 2 0xFFFFFFFF) 3 2) 1 = 1 := by decide +kernel
theorem test_andn_operand : qreg (.andn q0 false 1 2 3) (withS (withS State.reset 2 0xFF) 3 0x0F) 1 = 0xF0 := by decide +kernel
theorem test_shift_amount : qreg (.sll q0 false 1 2 3) (withS (withS State.reset 2 1) 3 33) 1 = 2 ∧ qreg (.sra q0 false 1 2 3) (withS (withS State.reset 2 0x80000000) 3 31) 1 = 0xFFFFFFFF ∧
    qreg (.srl q0 false 1 2 3) (withS (withS State.reset 2 0x80000000) 3 31) 1 = 1 := by decide +kernel
theorem test_compare_sign : qreg (.slt q0 false 1 2 3) (withS (withS State.reset 2 0x80000000) 3 1) 1 = 1 ∧ qreg (.sltu q0 false 1 2 3) (withS (withS State.reset 2 0x80000000) 3 1) 1 = 0 := by decide +kernel
theorem test_zero_discards : qreg (.add q0 false 0 2 3) (withS (withS State.reset 2 5) 3 7) 0 = 0 := by decide +kernel
theorem test_addi_sign : qreg (.addi q0 1 2 0x8000) (withS State.reset 2 1) 1 = 0xFFFF8001 := by decide +kernel
theorem test_lui : qreg (.lui q0 1 0xABCD) State.reset 1 = 0xABCD0000 := by decide +kernel

/-- A vector register of sliver core 0 after an instruction. -/
def vreg (i : Instr) (s : State) (r : Reg) : W256 := (run i s).vr x0 r
def vab (a b : Nat) : State := withV (withV vs 2 (BitVec.ofNat 256 a)) 3 (BitVec.ofNat 256 b)

theorem test_vadd_lanes : vreg (.vadd x0 .i8 0 1 2 3) (vab 0x01FF 0x0001) 1 = 0x0100 ∧ vreg (.vadds x0 .i8 0 1 2 3) (vab 0x807F 0xFF01) 1 = 0x807F := by decide +kernel
theorem test_vabs_wraps : vreg (.vabs x0 .i8 0 1 2) (vab 0x80FF 0) 1 = 0x8001 := by decide +kernel
theorem test_vadd_f32 : vreg (.vadd x0 .f32 0 1 2 3) (vab 0x3F8000007F800000 0x33800000FF800000) 1 = 0x3F8000007FC00000 := by decide +kernel
theorem test_vmin_zero : vreg (.vmin x0 .f32 0 1 2 3) (vab 0x00000000 0x80000000) 1 = 0x80000000 ∧ vreg (.vmax x0 .f32 0 1 2 3) (vab 0x80000000 0xFFC00001) 1 = 0x7FC00000 := by decide +kernel
theorem test_vmac_fused : vreg (.vmac x0 .f32 0 1 2 3) (withV (vab 0x3F800001 0x3F800001) 1 0xBF800002) 1 = 0x28800000 := by decide +kernel
theorem test_vdot4 : vreg (.vdot4I8 x0 0 1 2 3) (withV (vab 0x02010180 0x03FF0280) 1 5) 1 = 0x400C ∧
    vreg (.vdot4sI8 x0 0 1 2 3) (withV (vab 0x7F 0x7F) 1 0x7FFFFFFF) 1 = 0x7FFFFFFF := by decide +kernel
theorem test_predicate_bytes : ((vab 0x1111 0).modSlv x0 (fun k => { k with p := k.p.set (1 : Fin 8) 0x1#32 }) |> fun s => vreg (.vadd x0 .i8 1 1 2 3) s 1) = 0x11 := by decide +kernel
theorem test_vsra_amount : vreg (.vsra x0 .i16 0 1 2 3) (vab 0x80008000 0x0010000F) 1 = 0x8000FFFF := by decide +kernel
theorem test_vextw : (run (.vextw x0 1 2 7) (vab (0xABCD * 2 ^ 224) 0)).xw (.slv x0) 1 = 0xABCD := by decide +kernel
theorem test_store_load_order : (let s := run (.scalarStore h0 3 1 2 0) (withH (near 0xF401890000) 3 0x11223344)
    s.num 0xF401890000 1 = 0x44 ∧ s.num 0xF401890003 1 = 0x11 ∧ s.num 0xF401890004 1 = 0) ∧
    (let s := withX (withLs vs 0x100 4 0x81223344) 1 0x100
     (run (.scalarLoad (.slv x0) 2 1 0 true 3) s).xw (.slv x0) 2 = 0x81 ∧ (run (.scalarLoad (.slv x0) 2 1 1 false 2) s).xw (.slv x0) 2 = 0xFFFF8122) := by decide +kernel
theorem test_host_width : ((run (.add h0 true 1 2 3) (withH (withH (hm .monitor z7 z7) 2 0x17FFFFFFF) 3 1)).x h0 1) = 0xFFFFFFFF80000000 ∧
    ((run (.add h0 false 1 2 3) (withH (withH (hm .monitor z7 z7) 2 0x17FFFFFFF) 3 1)).x h0 1) = 0x180000000 := by decide +kernel
theorem test_division_corners : ((run (.div h0 false 1 2 3) (withH (withH (hm .monitor z7 z7) 2 7) 3 0)).x h0 1) = 0xFFFFFFFFFFFFFFFF ∧
    ((run (.rem h0 false 1 2 3) (withH (withH (hm .monitor z7 z7) 2 7) 3 0)).x h0 1) = 7 ∧
    ((run (.div h0 false 1 2 3) (withH (withH (hm .monitor z7 z7) 2 0x8000000000000000) 3 0xFFFFFFFFFFFFFFFF)).x h0 1) = 0x8000000000000000 ∧
    ((run (.rem h0 false 1 2 3) (withH (withH (hm .monitor z7 z7) 2 0xFFFFFFFFFFFFFFF9) 3 2)).x h0 1) = 0xFFFFFFFFFFFFFFFF := by decide +kernel
theorem test_counts_zero : ((run (.clz (.slv x0) false 1 2) vs).xw (.slv x0) 1) = 32 ∧ ((run (.ctz h0 false 1 2) (hm .monitor z7 z7)).x h0 1) = 64 := by decide +kernel

/-! ### The queue, and small clauses -/

theorem test_wit_StepRunsFrontAndCompletes : State.reset.pending = [] := rfl
theorem test_wit_CellEvents_pair : (State.reset.setReg .job 4 2).jobRuns = true ∧ (State.reset.setReg (.cell 0) 0x500 1).pairOn c0 = true := by decide
theorem test_wit_VectorLogicLanesReductions : CanIssue vs (.slv x0) false [] ∧ (7 : Reg).val < 8 ∧ 8 ≤ (8 : Reg).val := by unfold CanIssue; decide

end Sys2Proof.Tests
end

section
/-! SUPPORT. The seed of the stochastic rounding (O24): where a cell's registers stand in the address map and what they read at reset, what a seed
loads and leaves alone, and ASEED issued while the drain unit is free. -/

namespace Sys2Proof.Machine

/-! ### Registers of a cell -/

/-- R186: the address of an offset of a cell's CELL_ block, as a number. -/
theorem cell_at_eq (n : Fin 64) (o : Nat) :
    (Blk.cell n).at o = 0xF000000000 + n.val / 16 * 0x100000000 + n.val % 16 * 0x1000000 + 0xC00000 + o := by
  show cellBase n + 0xC00000 + o = _
  unfold cellBase dieBase
  rfl

/-- R186: the address map finds every offset of a cell's CELL_ block in that block. -/
theorem blkOf_cell_at (n : Fin 64) {o : Nat} (ho : o < 0x10000) : blkOf ((Blk.cell n).at o) = some (.cell n, o) := by
  have hpa := cell_at_eq n o
  generalize (Blk.cell n).at o = pa at hpa
  have hdies : 0xF000000000 ≤ pa ∧ pa < 0xF400000000 := by omega
  have hdie : pa / 0x100000000 % 4 = n.val / 16 := by omega
  have hcells : pa % 0x100000000 < 0x10000000 := by omega
  have hcell : pa % 0x100000000 / 0x1000000 = n.val % 16 := by omega
  have hblk : pa % 0x100000000 % 0x1000000 / 0x10000 = 0xC0 := by omega
  have hoff : pa % 0x10000 = o := by omega
  have hnum : Fin.ofNat 64 ((Fin.ofNat 4 (n.val / 16)).val * 16 + n.val % 16) = n := by
    ext
    simp only [Fin.ofNat]
    omega
  unfold blkOf
  simp only [if_pos hdies, if_pos hcells, hdie, hcell, hblk, hoff, hnum]

/-- At reset nothing has written a register: each reads its reset value. -/
theorem reset_reg_eq (b : Blk) (o : Nat) : State.reset.reg b o = regReset (b.at o) := by
  unfold State.reg State.rd State.reset sparseGet
  rfl

/-- R83: the seed of every cell reads 1 at reset. -/
theorem reset_reg_cell_seed (c : CellId) : State.reset.reg (cellBlk c) 8 = 1#32 := by
  rw [reset_reg_eq, regReset, cellBlk, blkOf_cell_at c.num (by decide)]
  rfl

theorem State.reg_modCell (s : State) (c : CellId) (f : Cell → Cell) (b : Blk) (o : Nat) : (s.modCell c f).reg b o = s.reg b o := by
  unfold State.reg State.rd
  rw [State.modCell_regs]

/-- A register of a state in canonical form reads back what was stored. -/
theorem State.reg_setReg_self {s : State} (h : Canonical s) (b : Blk) (o : Nat) (v : W32) : (s.setReg b o v).reg b o = v :=
  State.rd_wr_self s (b.at o) v h.2

/-! ### A seed -/

section
variable (s : State) (c : CellId) (v : W32)

@[simp] theorem State.seed_mem : (s.seed c v).mem = s.mem := by
  rw [State.seed, State.modCell_mem, State.setReg_mem]
@[simp] theorem State.seed_hosts : (s.seed c v).hosts = s.hosts := by
  rw [State.seed, State.modCell_hosts, State.setReg_hosts]

/-- R63: the generator of a column after a seed. -/
theorem State.seed_lfsr (j : Fin 64) : ((s.seed c v).cell c).lfsr[j] = seedOf v j := by simp [State.seed]

/-- R83: a seed reads back. -/
theorem State.seed_reg (h : Canonical s) : (s.seed c v).reg (cellBlk c) 8 = v := by
  rw [State.seed, State.reg_modCell, State.reg_setReg_self h]

end

/-! ### ASEED -/

/-- The state that ASEED leaves before its bundle retires: the cell is seeded, and the drain unit is occupied for 1 ARR cycle (R165). -/
def State.aseeded (s : State) (c : CellId) (v : W32) : State :=
  (s.seed c v).modCell c (fun k => { k with drainFree := k.cycle + 1 })

section
variable (s : State) (c : CellId) (v : W32)

@[simp] theorem State.aseeded_mem : (s.aseeded c v).mem = s.mem := by
  rw [State.aseeded, State.modCell_mem, State.seed_mem]
@[simp] theorem State.aseeded_hosts : (s.aseeded c v).hosts = s.hosts := by
  rw [State.aseeded, State.modCell_hosts, State.seed_hosts]
theorem State.aseeded_lfsr (j : Fin 64) : ((s.aseeded c v).cell c).lfsr[j] = seedOf v j := by
  rw [State.aseeded, State.cell_modCell_self]
  exact s.seed_lfsr c v j
theorem State.aseeded_reg (h : Canonical s) : (s.aseeded c v).reg (cellBlk c) 8 = v := by
  rw [State.aseeded, State.reg_modCell, State.seed_reg s c v h]

end

/-- R165: with the drain unit free, ASEED seeds its cell from the register. -/
theorem opAseed_act_free {s : State} {c : CellId} (a : Reg) (hf : (s.cell c).drainFree ≤ (s.cell c).cycle) :
    (opAseed c a).act s = .ok (s.aseeded c (s.xw (.seq c) a), .fall) :=
  if_neg (Nat.not_lt.mpr hf)

/-- An ASEED that issues while the drain unit is free completes with its cell seeded from the register. -/
theorem exec_aseed_free {s : State} {c : CellId} {a : Reg} (h : CanIssue s (.seq c) false [a]) (hf : (s.cell c).drainFree ≤ (s.cell c).cycle) :
    exec (.aseed c a) s = .next ((s.aseeded c (s.xw (.seq c) a)).retire (.seq c) 16 .fall) :=
  congrArg Host.Outcome.next (runOp_next h rfl rfl rfl (opAseed_act_free a hf))

/-- Settles O24 from what a seed loads: SR_SEED_WRITE reaches the main of the cell named (log entry 13), ASEED with the drain unit free reaches its
own cell. -/
theorem roundingSeed : Obligations.RoundingSeed := by
  intro c a v s col seeded
  refine ⟨⟨s.seed (s.mainOf c) v, rfl, ?_, s.seed_reg _ v⟩, reset_reg_cell_seed c, fun h hf => ?_⟩
  · exact ⟨s.seed_lfsr _ v, s.seed_mem _ v, s.seed_hosts _ v⟩
  · let w := s.xw (.seq c) a
    exact ⟨s.aseeded c w, exec_aseed_free h hf, ⟨s.aseeded_lfsr c w, s.aseeded_mem c w, s.aseeded_hosts c w⟩, s.aseeded_reg c w⟩

end Sys2Proof.Machine
end

section
/-! SUPPORT. Scalar operations at their issue, and division, remainder and bit counts as arithmetic on the operands' numbers (O4). -/

namespace Sys2Proof.Machine

/-! ### A scalar operation at its issue -/

theorem wOk_eq (e : Engine) (w : Bool) : wOk e w = (isHost e || !w) := by cases e <;> rfl

section
variable {e : Engine} {w legal : Bool} {d a b : Reg} {s : State} {f g : BinFn} {lat : Nat} {word : W32} {k : W64}

/-- R142, R143: a legal operation of two registers that may issue gives s[d] the value of any function that agrees with its own. -/
theorem runOp_opScalar (hw : wOk e w = true) (hl : legal = true) (h : CanIssue s e false [d, a, b]) (hfg : ∀ n x y, f n x y = g n x y) :
    runOp e word (opScalar e w d a b lat legal f) s = s.wrote e 2 lat false d (scalarVal e w g (s.x e a) (s.x e b)) := by
  have hlegal : (opScalar e w d a b lat legal f).legal = true := Bool.and_eq_true_iff.mpr ⟨hl, wOk_eq e w ▸ hw⟩
  obtain rfl : f = g := funext fun n => funext fun x => funext (hfg n x)
  exact runOp_next h hlegal rfl rfl rfl

/-- R142, R143: the same of an operation of a register and a value, where the function to agree with takes another second operand. -/
theorem runOp_opScalarImm (hw : wOk e w = true) (hl : legal = true) (h : CanIssue s e false [d, a]) (v : W64) (hfg : ∀ n x y z, f n x y = g n x z) :
    runOp e word (opScalarImm e w d a k lat legal f) s = s.wrote e 2 lat false d (scalarVal e w g (s.x e a) v) := by
  have hlegal : (opScalarImm e w d a k lat legal f).legal = true := Bool.and_eq_true_iff.mpr ⟨hl, wOk_eq e w ▸ hw⟩
  have hval : scalarVal e w f (s.x e a) k = scalarVal e w g (s.x e a) v := by
    unfold scalarVal
    rw [hfg 64 _ k v, hfg 32 _ (k.setWidth 32) (v.setWidth 32)]
  rw [← hval]
  exact runOp_next h hlegal rfl rfl rfl

/-- An operation of two registers that its engine lacks raises ILLEGAL_INSTR. -/
theorem runOp_opScalar_illegal (hl : legal = false) (h : CanIssue s e false [d, a, b]) :
    runOp e word (opScalar e w d a b lat legal f) s = s.raise e 2 (s.pc e) word excIllegal :=
  runOp_illegal h (by simp [opScalar, hl])

/-- An operation of a register and a value that its engine lacks raises ILLEGAL_INSTR. -/
theorem runOp_opScalarImm_illegal (hl : legal = false) (h : CanIssue s e false [d, a]) :
    runOp e word (opScalarImm e w d a k lat legal f) s = s.raise e 2 (s.pc e) word excIllegal :=
  runOp_illegal h (by simp [opScalarImm, hl])

end

/-! ### Division and remainder -/

section
variable (n : Nat) (x y : BitVec n)

theorem ofInt_neg_one_eq : BitVec.ofInt n (-1) = -1 := by
  rw [BitVec.ofInt_neg]
  rfl

/-- The signed quotient is the truncated one modulo 2^n; only the most negative number divided by -1 wraps, to itself. -/
theorem sdiv_eq_ofInt_tdiv : x.sdiv y = BitVec.ofInt n (x.toInt.tdiv y.toInt) :=
  BitVec.eq_of_toInt_eq (by rw [BitVec.toInt_sdiv, BitVec.toInt_ofInt])

/-- The signed remainder takes the sign of the dividend. -/
theorem srem_eq_ofInt_tmod : x.srem y = BitVec.ofInt n (x.toInt.tmod y.toInt) := by
  rw [← BitVec.toInt_srem, BitVec.ofInt_toInt]

theorem udiv_eq_ofNat_div : x.udiv y = BitVec.ofNat n (x.toNat / y.toNat) := by
  rw [← BitVec.toNat_udiv, BitVec.ofNat_toNat, BitVec.setWidth_eq]
  rfl

theorem umod_eq_ofNat_mod : x.umod y = BitVec.ofNat n (x.toNat % y.toNat) := by
  rw [← BitVec.toNat_umod, BitVec.ofNat_toNat, BitVec.setWidth_eq]
  rfl

theorem fnDiv_eq : fnDiv n x y = if y = 0 then BitVec.ofInt n (-1) else BitVec.ofInt n (x.toInt.tdiv y.toInt) := by
  rw [fnDiv, ofInt_neg_one_eq, sdiv_eq_ofInt_tdiv]

theorem fnDivu_eq : fnDivu n x y = if y = 0 then BitVec.ofInt n (-1) else BitVec.ofNat n (x.toNat / y.toNat) := by
  rw [fnDivu, ofInt_neg_one_eq, udiv_eq_ofNat_div]

theorem fnRem_eq : fnRem n x y = if y = 0 then x else BitVec.ofInt n (x.toInt.tmod y.toInt) := by
  rw [fnRem, srem_eq_ofInt_tmod]

theorem fnRemu_eq : fnRemu n x y = if y = 0 then x else BitVec.ofNat n (x.toNat % y.toNat) := by
  rw [fnRemu, umod_eq_ofNat_mod]

end

/-! ### Bit counts -/

/-- Up to the power of 2 in a number, the only set bit is that power's. -/
theorem testBit_of_le_padicValNat {m j : Nat} (hm : m ≠ 0) (hj : j ≤ padicValNat 2 m) : m.testBit j = decide (j = padicValNat 2 m) := by
  have hodd : ¬ 2 ^ (padicValNat 2 m + 1) ∣ m := pow_succ_padicValNat_not_dvd hm
  obtain ⟨q, hq⟩ : 2 ^ padicValNat 2 m ∣ m := pow_padicValNat_dvd
  generalize padicValNat 2 m = k at *
  subst hq
  rw [pow_succ, Nat.mul_dvd_mul_iff_left (by positivity)] at hodd
  rw [Nat.testBit_two_pow_mul]
  obtain rfl | hlt := hj.eq_or_lt
  · simp only [ge_iff_le, le_refl, decide_true, Nat.sub_self, Bool.true_and, Nat.testBit_zero]
    exact decide_eq_true (by omega)
  · rw [decide_eq_false (Nat.not_le.mpr hlt), decide_eq_false hlt.ne, Bool.false_and]

/-- A number has no set bit above the one that its logarithm names. -/
theorem testBit_of_log2_lt {m j : Nat} (hj : m.log2 < j) : m.testBit j = false := by
  obtain rfl | hm := eq_or_ne m 0
  · exact Nat.zero_testBit j
  · exact Nat.testBit_lt_two_pow ((Nat.log2_lt hm).mp hj)

section
variable {n : Nat} (x : BitVec n)

theorem ctzNat_zero : ctzNat (0#n) = n := by
  have hnone : (List.range n).find? (fun i => (0#n).getLsbD i) = none := List.find?_range_eq_none.mpr (by simp)
  rw [ctzNat, hnone, Option.getD_none]

theorem clzNat_zero : clzNat (0#n) = n := by
  have hnone : (List.range n).find? (fun i => (0#n).getLsbD (n - 1 - i)) = none := List.find?_range_eq_none.mpr (by simp)
  rw [clzNat, hnone, Option.getD_none]

/-- The lowest set bit is the power of 2 in the number. -/
theorem ctzNat_eq : ctzNat x = if x.toNat = 0 then n else padicValNat 2 x.toNat := by
  split
  case isTrue hx => rw [BitVec.eq_of_toNat_eq (y := 0#n) hx, ctzNat_zero]
  case isFalse hx =>
    have hlow {j : Nat} := testBit_of_le_padicValNat (j := j) hx
    have hset : x.getLsbD (padicValNat 2 x.toNat) = true := (hlow le_rfl).trans (decide_eq_true rfl)
    have hsome : (List.range n).find? (fun i => x.getLsbD i) = some (padicValNat 2 x.toNat) := by
      refine List.find?_range_eq_some.mpr ⟨hset, List.mem_range.mpr (BitVec.lt_of_getLsbD hset), fun j hj => ?_⟩
      rw [BitVec.getLsbD, hlow hj.le, decide_eq_false hj.ne, Bool.not_false]
    rw [ctzNat, hsome, Option.getD_some]

/-- The highest set bit is the logarithm of the number. -/
theorem clzNat_eq : clzNat x = n - (if x.toNat = 0 then 0 else Nat.log2 x.toNat + 1) := by
  split
  case isTrue hx => rw [BitVec.eq_of_toNat_eq (y := 0#n) hx, clzNat_zero, Nat.sub_zero]
  case isFalse hx =>
    have hset : x.getLsbD x.toNat.log2 = true := Nat.testBit_log2 hx
    have hlt : x.toNat.log2 < n := BitVec.lt_of_getLsbD hset
    have hsome : (List.range n).find? (fun i => x.getLsbD (n - 1 - i)) = some (n - (x.toNat.log2 + 1)) := by
      refine List.find?_range_eq_some.mpr ⟨?_, List.mem_range.mpr (by omega), fun j hj => ?_⟩
      · rwa [show n - 1 - (n - (x.toNat.log2 + 1)) = x.toNat.log2 by omega]
      · rw [BitVec.getLsbD, testBit_of_log2_lt (by omega), Bool.not_false]
    rw [clzNat, hsome, Option.getD_some]

end

/-! ### The statement -/

/-- Settles O4: each operation's own function agrees with the arithmetic of R144, and a sequencer has none of them. -/
theorem divisionAndCounts : Obligations.DivisionAndCounts := by
  intro e w d a b s hw h3 h2 r
  refine ⟨fun hcore => ?_, fun hseq => ?_⟩
  · have hl : (!isSeq e) = true := by rw [hcore]; rfl
    have reg {lat : Nat} {f g : BinFn} {word : W32} (hfg : ∀ n x y, f n x y = g n x y) :
        Host.Outcome.next (runOp e word (opScalar e w d a b lat (!isSeq e) f) s) = r lat g :=
      congrArg Host.Outcome.next (runOp_opScalar hw hl h3 hfg)
    have count {g : BinFn} {f : (n : Nat) → BitVec n → BitVec n} {word : W32} (hfg : ∀ n x z, f n x = g n x z) :
        Host.Outcome.next (runOp e word (opScalarImm e w d a 0 1 (!isSeq e) (fun n x _ => f n x)) s) = r 1 g :=
      congrArg Host.Outcome.next (runOp_opScalarImm hw hl h2 _ (fun n x _ z => hfg n x z))
    refine ⟨reg fnDiv_eq, reg fnDivu_eq, reg fnRem_eq, reg fnRemu_eq, count ?clz, count ?ctz, count ?popc⟩
    case clz => exact fun n x _ => congrArg (BitVec.ofNat n) (clzNat_eq x)
    case ctz => exact fun n x _ => congrArg (BitVec.ofNat n) (ctzNat_eq x)
    case popc => exact fun n x _ => congrArg (BitVec.ofNat n) List.countP_eq_length_filter
  · have hl : (!isSeq e) = false := by rw [hseq]; rfl
    have reg {f : BinFn} (word : W32) :
        ∃ v, Host.Outcome.next (runOp e word (opScalar e w d a b 18 (!isSeq e) f) s) = (.next (s.raise e 2 (s.pc e) v excIllegal) : Out) :=
      ⟨word, congrArg Host.Outcome.next (runOp_opScalar_illegal hl h3)⟩
    have count {f : BinFn} (word : W32) :
        ∃ v, Host.Outcome.next (runOp e word (opScalarImm e w d a 0 1 (!isSeq e) f) s) = (.next (s.raise e 2 (s.pc e) v excIllegal) : Out) :=
      ⟨word, congrArg Host.Outcome.next (runOp_opScalarImm_illegal hl h2)⟩
    simp only [List.forall_mem_cons]
    exact ⟨reg _, reg _, reg _, reg _, count _, count _, count _, List.forall_mem_nil _⟩

end Sys2Proof.Machine
end
